-- ==== Sys2Proof/Word.lean ====
section
/-! DEFINITION. Word.lean: the word types of the model and their plainest arithmetic. -/

namespace Sys2Proof

/-- One byte. -/
abbrev Byte := BitVec 8

/-- A run of bytes, lowest address first. -/
abbrev Bytes := List Byte

/-- Module-wide function number, link × 64 + n (R61). -/
abbrev FuncId := Fin 256

/-- PCIe link 0 to 3 (R26). -/
abbrev LinkId := Fin 4

/-- Field die 0 or 1 (R26). -/
abbrev DieId := Fin 2

/-- Physical port 0 to 3 (R228). -/
abbrev PhysId := Fin 4

/-- Logical port number 8 × physical port + first lane (R228). -/
abbrev LPort := Fin 32

/-- Traffic class 0 to 7 (R213). -/
abbrev ClassId := Fin 8

/-- Furrow 0 to 39 (R290). -/
abbrev FurrowId := Fin 40

/-- The 32-bit register word (R9). -/
abbrev Word32 := BitVec 32

/-- The 64-bit word of doorbells, offsets and counters. -/
abbrev Word64 := BitVec 64

/-- Saturating addition of counters (R430). -/
def satAdd (limit a b : Nat) : Nat := min (a + b) limit

/-- 2^64 − 1, where 64-bit counters saturate (R429). -/
def max64 : Nat := 0xFFFFFFFFFFFFFFFF

/-- 2^32 − 1, where 32-bit counters saturate. -/
def max32 : Nat := 0xFFFFFFFF

end Sys2Proof
end

