-- ==== Sys2Proof/Syntax.lean ====
section
/-! DEFINITION. Syntax.lean: the commands the block takes, one constructor per row of spec/opcode_table.json, and the
types of their operands. A mailbox-command row carries the issuing function: its header and payload are the bytes of
that function's command mailbox (R37). An event row carries what the event brings from outside. -/

namespace Sys2Proof

/-! ### What a read of a protected 64-byte block met (R342) -/

/-- What the controller's decoder met in one 64-byte block (R342). -/
inductive BlockObs where
  /-- No bad symbol. -/
  | good
  /-- One bad 8-bit symbol: corrected. -/
  | corrected
  /-- Two bad symbols, or more that were detected: uncorrectable. -/
  | uncorrectable
  /-- Three or more bad symbols, miscorrected into these 64 bytes. -/
  | miscorrected (wrong : Bytes)
  /-- Three or more bad symbols, returned unchanged as these 64 bytes. -/
  | unchanged (wrong : Bytes)
  deriving DecidableEq, Repr

/-! ### Frames (R168 to R172, R244) -/

/-- A VLAN tag: PCP in bits 15:13 of the TCI, DEI in bit 12, VID in bits 11:0 (R244). -/
structure VlanTag where
  tpid : BitVec 16
  tci : BitVec 16
  deriving DecidableEq, Repr

/-- The parts of an IP header that the module reads or writes (R168): `ttl` is the TTL or hop limit, `df` the DF flag of IPv4. IPv4
addresses are IPv4-mapped. -/
structure IpHdr where
  v6 : Bool
  src : BitVec 128
  dst : BitVec 128
  dscp : BitVec 6
  ecn : BitVec 2
  ttl : BitVec 8
  df : Bool
  deriving DecidableEq, Repr

/-- What every received frame brings: addresses, tags, its length on the wire from the destination address through the frame check
sequence (R235), whether that sequence held, whether a fragment of it was missing, out of sequence or bad (R241), and how many codewords
the decoder corrected and could not correct in it (R234). -/
structure L2 where
  da : BitVec 48
  sa : BitVec 48
  outer : Option VlanTag
  inner : Option VlanTag
  length : Nat
  fcsOk : Bool
  fragBad : Bool
  corrected : Nat
  uncorrectable : Nat
  deriving DecidableEq, Repr

/-- The addresses, tag, and a good end of a frame that the module builds. -/
def L2.built (da sa : BitVec 48) (outer : Option VlanTag) : L2 := ⟨da, sa, outer, none, 0, true, false, 0, 0⟩

/-- The body of an acknowledgement or NAK (R172). -/
structure AckBody where
  credit : Word32
  code : Word32
  nakPsn : Word32
  xsack : Option (BitVec 960)
  deriving DecidableEq, Repr

/-- A native frame: Ethernet, IP and UDP parts, the 32-byte native header (R169), and what follows it (R168). -/
structure NFrame where
  l2 : L2
  ip : IpHdr
  udpSrc : BitVec 16
  udpDst : BitVec 16
  udpSum : BitVec 16
  version : BitVec 8
  type : BitVec 8
  flags : BitVec 8
  hopLimit : BitVec 8
  route : Word32
  dstConn : Word32
  srcConn : Word32
  psn : Word32
  key : Word32
  offset : Word64
  imm : Option Word32
  ack : Option AckBody
  payload : Bytes
  tag : Bytes
  deriving DecidableEq, Repr

/-- The RoCE v2 operations of the supported subset (R164). -/
inductive RoceOp where
  | sendFirst | sendMiddle | sendLast | sendLastImm | sendOnly | sendOnlyImm
  | writeFirst | writeMiddle | writeLast | writeLastImm | writeOnly | writeOnlyImm
  | readReq | readRespFirst | readRespMiddle | readRespLast | readRespOnly
  | ack | atomicAck | cmpSwap | fetchAdd | cnp
  deriving DecidableEq, Repr

/-- The kinds of acknowledgement of the RoCE v2 subset (R164). -/
inductive RoceAck where
  | ack | nakSeq | rnr | nakAccess
  deriving DecidableEq, Repr

/-- A RoCE v2 packet of the supported subset (R164). -/
structure RFrame where
  l2 : L2
  ip : IpHdr
  udpSrc : BitVec 16
  op : RoceOp
  dqp : BitVec 24
  psn : BitVec 24
  pkey : BitVec 16
  va : Word64
  rkey : Word32
  dlen : Word32
  operand : Word64
  compare : Word64
  imm : Word32
  syndrome : RoceAck
  payload : Bytes
  icrcOk : Bool
  deriving DecidableEq, Repr

/-- Any other Ethernet frame: `bytes` runs from the destination address to the last byte before the frame check
sequence (R248). -/
structure EFrame where
  l2 : L2
  etype : BitVec 16
  ip : Option IpHdr
  udpDst : Option (BitVec 16)
  preempted : Bool
  bytes : Bytes
  deriving DecidableEq, Repr

/-! ### Work of a drill-program run (R290 to R312) -/

/-- The scalar formats of the array: MX elements, integers and the E8M0 scale included (R296). -/
inductive Fmt where
  | fp32 | fp16 | bf16 | e4m3 | e5m2 | e2m3 | e3m2 | e2m1 | int8 | int4 | mxint8 | e8m0
  deriving DecidableEq, Repr

/-- The RND field (R306). -/
inductive Rnd where
  | dflt | rne | rtz | stochastic
  deriving DecidableEq, Repr

/-- The SAT field (R306). -/
inductive Sat where
  | dflt | off | on
  deriving DecidableEq, Repr

/-- A byte position in a tine's local store or a core's exchange buffer (R291). -/
structure Loc where
  furrow : FurrowId
  core : Fin 16
  /-- The logical tine; with `exchange` set, the tine that makes the access. -/
  tine : Fin 16
  exchange : Bool
  addr : Nat
  deriving DecidableEq, Repr

/-- What a stream of a furrow's stream engine reaches in Tilth and HBM: the program's own Tilth in that furrow, its own HBM, or the memory
that a stream descriptor of its image names (R291, R327, R355); each with a byte offset. -/
inductive StreamEnd where
  | tilth (off : Nat)
  | hbm (off : Nat)
  | descriptor (k off : Nat)
  deriving DecidableEq, Repr

/-- A stream descriptor of a program image: where it stands in the image, and the module-local bytes it names (R314, R355). The image's
code is the library's (R313), so the command that loads it says what descriptors it holds. -/
structure StreamDesc where
  imageOff : Nat
  addr : Nat
  len : Nat
  deriving DecidableEq, Repr

/-- What the code section of a program image holds that a load looks at: where an arithmetic instruction carries RND STOCHASTIC, if one
does, and its stream descriptors (R315, R355). -/
structure ImageCode where
  stochasticAt : Option Nat
  descs : List StreamDesc
  deriving DecidableEq, Repr

/-- The copy of a ring entry that a read brought: its 64 bytes, from a ring in host memory, or what its block in module memory was found to
be (R104, R342 to R345). -/
structure EntryCopy where
  bytes : Bytes
  obs : BlockObs
  deriving DecidableEq, Repr

/-- One operation of a run, as the program carries it out. The encoding of a program's instructions is the library's
(R313) and no part of the manual; what an operation computes is R302 to R310. -/
inductive TineOp where
  /-- FP32 a × b + c (R302). -/
  | fma (rnd : Rnd) (a b c dst : Loc)
  /-- k-way dot of `n` element pairs with an FP32 accumulator (R302). -/
  | dot (rnd : Rnd) (fa fb : Fmt) (n : Nat) (a b c dst : Loc)
  /-- Integer dot into an INT32 accumulator (R304). -/
  | idot (f : Fmt) (n : Nat) (a b c dst : Loc)
  /-- MX dot of two 32-element blocks (R303). -/
  | mxDot (rnd : Rnd) (fa fb : Fmt) (a sa b sb c dst : Loc)
  /-- Conversion of `n` packed elements (R309); `stream` and the `index` of the first one feed STOCHASTIC (R308). -/
  | convert (rnd : Rnd) (sat : Sat) (src dst : Fmt) (n : Nat) (stream : BitVec 16) (index : Word64) (a d : Loc)
  /-- Conversion of `n` elements of an MX block into FP32, by the block's scale (R295, R309). -/
  | mxToFp32 (rnd : Rnd) (sat : Sat) (src : Fmt) (n : Nat) (stream : BitVec 16) (index : Word64) (a scale d : Loc)
  /-- Conversion of one block of 32 FP32 values into an MX format (R310). -/
  | mxConvert (rnd : Rnd) (dst : Fmt) (stream : BitVec 16) (index : Word64) (a d scale : Loc)
  /-- Conversion from FP32 to grid with scale S (R271, R309). -/
  | toGrid (s : Int) (a d : Loc)
  /-- 160-bit grid accumulate (R301). -/
  | gridAdd (a b d : Loc)
  /-- Conversion of `n` grid values to a float format (R273, R309). -/
  | fromGrid (s : Int) (rnd : Rnd) (dst : Fmt) (n : Nat) (stream : BitVec 16) (index : Word64) (a d : Loc)
  /-- Any other instruction's store of bytes. -/
  | put (d : Loc) (bytes : Bytes)
  /-- Stores of several tines in one cycle (R292). -/
  | puts (l : List (Loc × Bytes))
  /-- A core barrier that every participant has passed (R292, R293). -/
  | coreBarrier (furrow : FurrowId) (core : Fin 16)
  /-- A corrected single-bit error of a local store or exchange buffer (R292). -/
  | memCorrected (l : Loc)
  /-- The furrow's stream engine moves `len` bytes, whole aligned 64-byte blocks, from Tilth or HBM into a local store or an exchange
  buffer; `obs`: what the blocks read prove to be (R291, R292, R327, R342). -/
  | streamIn (src : StreamEnd) (d : Loc) (len : Nat) (obs : List BlockObs)
  /-- The same from a local store or an exchange buffer to Tilth or HBM. -/
  | streamOut (a : Loc) (dst : StreamEnd) (len : Nat)
  /-- An uncorrectable error: of a local store or an exchange buffer at `l`, or of the program's Tilth; `weights`: in weights (R292,
  R326, R386). -/
  | memFailed (l : Option Loc) (weights : Bool)
  deriving DecidableEq, Repr

/-- A piece of an input or output: `len` bytes at `loc`, at byte `off` of slot `slot` (R323). -/
structure Piece where
  slot : Fin 16
  off : Nat
  loc : Loc
  len : Nat
  deriving DecidableEq, Repr

/-! ### Boot (R406 to R410) -/

/-- One failure of a boot step or unit; `unit` is 255 for a step without units (R407, R408). -/
structure StepFail where
  step : Nat
  unit : Nat
  timeout : Bool
  deriving DecidableEq, Repr

/-- What an ALT method or a test of a boot step gave up (R406). -/
inductive BootLoss where
  | tilthGranule (addr : Nat)
  | hbmChannel (stack : Fin 4) (channel : Fin 32)
  | tine (furrow : FurrowId) (core : Fin 16) (tine : Fin 16)
  deriving DecidableEq, Repr

/-- What one pass through the boot steps meets. -/
structure BootReport where
  fails : List StepFail
  losses : List BootLoss
  /-- Usable hold-up energy measured at step 1, in mJ (R404). -/
  holdupMj : Nat
  /-- The step and unit still at work when the event is over: a boot that a power loss or a reset will cut short (R409). -/
  underWay : Option (Nat × Nat)
  deriving DecidableEq, Repr

/-! ### Other operands -/

/-- The two registers of WIN_SET (R66). -/
inductive WinReg where
  | base | ctrl
  deriving DecidableEq, Repr

/-- The BARs that REG_WRITE and BAD_REG_ACCESS reach (R62). -/
inductive Bar where
  | bar0 | bar4
  deriving DecidableEq, Repr

/-- The two ways a ring-entry read fails (R469). -/
inductive EntryFault where
  | memory | translation
  deriving DecidableEq, Repr

/-- The answer to an ATS translation request (R89, R90). -/
inductive AtsAnswer where
  /-- A translation of 2^log2Size bytes to bus address `addr`. -/
  | translated (addr : Word64) (log2Size : Nat) (writable : Bool)
  | noAccess
  deriving DecidableEq, Repr

/-- The responses to a page request (R90). -/
inductive PriAnswer where
  | success | invalidRequest | responseFailure
  deriving DecidableEq, Repr

/-- What the manual leaves to the image store: what IMAGE_PROGRAM's check found in the source region (R422, R423). -/
structure ImageInfo where
  signatureGood : Bool
  securityVersion : BitVec 16
  fwVersion : Word32
  /-- Whether the image uses the running image's firmware-store format (R423). -/
  sameFormat : Bool
  deriving DecidableEq, Repr

/-- The hottest sensors of one 1 ms reading, in °C (R456, R457, R462). -/
structure Temps where
  furrows : List Int
  hbm : List Int
  optics : List Int
  other : Int
  deriving DecidableEq, Repr

/-- One 10 µs sample of the input (R454, R462). -/
structure PowerReading where
  millivolts : Nat
  milliamps : Nat
  /-- Input power in units of 0.1 W. -/
  deciwatts : Nat
  /-- Hold-up store voltage in mV (R453). -/
  storeMv : Nat
  deriving DecidableEq, Repr

/-- The commands of the block: one constructor per row of spec/opcode_table.json, in its order. -/
inductive Instr where
  | nop (f : FuncId)
  | moduleInfo (f : FuncId)
  | undefinedOpcode (f : FuncId)
  | funcQuery (f : FuncId)
  | funcCreate (f : FuncId)
  | funcDestroy (f : FuncId)
  | funcShareSet (f : FuncId)
  | funcAttach (f : FuncId)
  | managerTransfer (f : FuncId)
  | funcPolicySet (f : FuncId)
  | regionCreate (f : FuncId)
  | regionDestroy (f : FuncId)
  | regionQuery (f : FuncId)
  | regionRemap (f : FuncId)
  | mirrorInvalidate (f : FuncId)
  | hotConfig (f : FuncId)
  | hotRead (f : FuncId)
  | ringCreate (f : FuncId)
  | ringDestroy (f : FuncId)
  | ringQuery (f : FuncId)
  | ringModify (f : FuncId)
  | ringRestart (f : FuncId)
  | cqCreate (f : FuncId)
  | cqDestroy (f : FuncId)
  | cqQuery (f : FuncId)
  | connCreate (f : FuncId)
  | connConnect (f : FuncId)
  | connDestroy (f : FuncId)
  | connQuery (f : FuncId)
  | connReset (f : FuncId)
  | trigAlloc (f : FuncId)
  | trigFree (f : FuncId)
  | trigSet (f : FuncId)
  | trigQuery (f : FuncId)
  | trigAdd (f : FuncId)
  | keyCreate (f : FuncId)
  | keyDestroy (f : FuncId)
  | connSetKeys (f : FuncId)
  | connRotateKeys (f : FuncId)
  | xportSet (f : FuncId)
  | xportQuery (f : FuncId)
  | ccSet (f : FuncId)
  | ccQuery (f : FuncId)
  | shaperAlloc (f : FuncId)
  | shaperSet (f : FuncId)
  | shaperBind (f : FuncId)
  | shaperFree (f : FuncId)
  | schedFuncSet (f : FuncId)
  | schedClassSet (f : FuncId)
  | policerSet (f : FuncId)
  | policerQuery (f : FuncId)
  | policerFree (f : FuncId)
  | gateSet (f : FuncId)
  | gateQuery (f : FuncId)
  | portQuery (f : FuncId)
  | portSet (f : FuncId)
  | portBreakout (f : FuncId)
  | portReset (f : FuncId)
  | portStats (f : FuncId)
  | portGlobalSet (f : FuncId)
  | portMgmtSet (f : FuncId)
  | portFilterSet (f : FuncId)
  | portQueueBind (f : FuncId)
  | ptpAdjust (f : FuncId)
  | ptpRead (f : FuncId)
  | portTsBind (f : FuncId)
  | relaySet (f : FuncId)
  | relayTableWrite (f : FuncId)
  | relayEpochSwitch (f : FuncId)
  | relayQuery (f : FuncId)
  | commCreate (f : FuncId)
  | commDestroy (f : FuncId)
  | commQuery (f : FuncId)
  | collRingCreate (f : FuncId)
  | collSlotsQuery (f : FuncId)
  /-- `img`: the image as read from a HOST region; an image in a MODULE region is read from module memory. -/
  | drillLoad (f : FuncId) (img : Bytes) (code : ImageCode)
  | drillUnload (f : FuncId)
  | drillQuery (f : FuncId)
  | drillControl (f : FuncId)
  | furrowQuery (f : FuncId)
  | memLayoutQuery (f : FuncId)
  | memLayoutSet (f : FuncId)
  | shareScrub (f : FuncId)
  | scrubSet (f : FuncId)
  | scrubQuery (f : FuncId)
  | granuleGrant (f : FuncId)
  | granuleRevoke (f : FuncId)
  | granuleQuery (f : FuncId)
  | spareQuery (f : FuncId)
  | repair (f : FuncId)
  /-- `mj`: the energy the controlled discharge measured. -/
  | holdupTest (f : FuncId) (mj : Nat)
  | moduleReset (f : FuncId)
  | fwRestart (f : FuncId)
  | tineReset (f : FuncId)
  | moduleFallow (f : FuncId)
  | moduleWipe (f : FuncId)
  | imageQuery (f : FuncId)
  | imageProgram (f : FuncId) (img : ImageInfo)
  | imageSelect (f : FuncId)
  | bootLogRead (f : FuncId)
  | bootLogClear (f : FuncId)
  | lcQuery (f : FuncId)
  | lcChallenge (f : FuncId)
  /-- `signatureGood`: what the check of the token's signature found. -/
  | lcTransition (f : FuncId) (signatureGood : Bool)
  | factoryTest (f : FuncId)
  | cntGlobalRead (f : FuncId)
  | traceConfig (f : FuncId)
  | traceControl (f : FuncId)
  | traceQuery (f : FuncId)
  | traceRead (f : FuncId)
  | faultRead (f : FuncId)
  | hangGraph (f : FuncId)
  /-- `size`: the tensor's bytes by the image's glean table, none when it has no entry (R443). -/
  | gleanArm (f : FuncId) (size : Option Nat)
  | gleanQuery (f : FuncId)
  | gleanCancel (f : FuncId)
  | globalStop (f : FuncId)
  | globalResume (f : FuncId)
  | stopRead (f : FuncId)
  | longCommandDone (f : FuncId)
  | progressRecord (f : FuncId) (stage : BitVec 16) (doneUnits totalUnits : Word64) (remainingMs : Word32)
  | commandTimeout (f : FuncId)
  | mbxGo (f : FuncId) (value : Word32)
  | mbxEvtConsWrite (f : FuncId) (value : Word32)
  | mbxEvtLostRead (f : FuncId)
  /-- An aligned write of `size` bytes (4, or 8 in the command mailbox) at `off` of `bar`. -/
  | regWrite (f : FuncId) (bar : Bar) (off size : Nat) (value : Word64)
  | badRegAccess (f : FuncId) (bar : Bar) (write : Bool) (off size : Nat)
  | idTimeLoRead (f : FuncId)
  | winSet (f : FuncId) (reg : WinReg) (value : Word32)
  /-- `obs`: what the controller met in each 64-byte block touched, in order; blocks not named are good. -/
  | bar2Read (f : FuncId) (off len : Nat) (obs : List BlockObs)
  | bar2Write (f : FuncId) (off : Nat) (data : Bytes) (obs : List BlockObs)
  | evcClaimRead (f : FuncId)
  | evcEoiWrite (f : FuncId) (value : Word32)
  | evcThresholdWrite (f : FuncId) (value : Word32)
  | evcRaiseSignal (f : FuncId) (value : Word32)
  | evcRaiseWithdraw (f : FuncId) (value : Word32)
  | evcCtrlWrite (f : FuncId) (value : Word32)
  | evcRouteWrite (f : FuncId) (source : Nat) (value : Word32)
  | evcSourceSignal (f : FuncId) (source : Nat)
  | evcSourceWithdraw (f : FuncId) (source : Nat)
  | msixVectorUnmask (f : FuncId) (vector : Nat)
  | msixFunctionUnmask (f : FuncId)
  | msixEnableSet (f : FuncId)
  | cntSnap (f : FuncId) (value : Word32)
  | cntSnapDone (f : FuncId)
  /-- `whole`: the doorbell arrived as one aligned 64-bit write (R10). -/
  | dblWork (f : FuncId) (ring : Nat) (value : Word64) (whole : Bool)
  /-- `obs`: what the read of each windrow entry moved to the ring met (R345). -/
  | dblCq (f : FuncId) (cq : Nat) (value : Word64) (whole : Bool) (obs : List BlockObs)
  | dblCqArm (f : FuncId) (cq : Nat) (value : Word64) (whole : Bool)
  | copy (f : FuncId) (ring : Nat)
  | write (f : FuncId) (ring : Nat)
  | read (f : FuncId) (ring : Nat)
  | send (f : FuncId) (ring : Nat)
  | recv (f : FuncId) (ring : Nat)
  | fetchAdd (f : FuncId) (ring : Nat)
  | cmpSwap (f : FuncId) (ring : Nat)
  | swap (f : FuncId) (ring : Nat)
  | rawSend (f : FuncId) (ring : Nat)
  | allreduce (f : FuncId) (ring : Nat)
  | reduce (f : FuncId) (ring : Nat)
  | broadcast (f : FuncId) (ring : Nat)
  | reduceScatter (f : FuncId) (ring : Nat)
  | allgather (f : FuncId) (ring : Nat)
  /-- `lastReread`: no further reread falls inside the 1 µs of R109. -/
  | entryReadDone (f : FuncId) (ring : Nat) (got : EntryCopy) (lastReread : Bool)
  | entryReadFault (f : FuncId) (ring : Nat) (cause : EntryFault)
  | triggeredStart (f : FuncId) (ring : Nat)
  /-- Read number `x` of the module's outstanding host reads returns these bytes. -/
  | dmaReadCompletion (x : Nat) (bytes : Bytes)
  | packetSend (conn : Nat)
  | egressFrameStart (p : LPort)
  | shaperRefill
  | gateIntervalEnd (p : LPort)
  | gateListSwitch (p : LPort)
  | rxFrameDiscard (p : LPort) (fr : EFrame)
  | rxWrite (p : LPort) (fr : NFrame)
  | rxWriteFlag (p : LPort) (fr : NFrame)
  | rxSend (p : LPort) (fr : NFrame)
  | rxReadReq (p : LPort) (fr : NFrame)
  | rxReadResp (p : LPort) (fr : NFrame)
  | rxAtomicReq (p : LPort) (fr : NFrame)
  | rxAtomicResp (p : LPort) (fr : NFrame)
  | rxAck (p : LPort) (fr : NFrame)
  | rxNakRnr (p : LPort) (fr : NFrame)
  | rxNakAccess (p : LPort) (fr : NFrame)
  | rxNakSeq (p : LPort) (fr : NFrame)
  | rxNakClosed (p : LPort) (fr : NFrame)
  | rxProbe (p : LPort) (fr : NFrame)
  | rxProbeReply (p : LPort) (fr : NFrame)
  | rxUnreach (p : LPort) (fr : NFrame)
  | relayFrame (p : LPort) (fr : NFrame)
  | rxRocePacket (p : LPort) (fr : RFrame)
  | rxCnp (p : LPort) (fr : RFrame)
  | rpTimerExpiry (conn : Nat)
  | rxCollUp (p : LPort) (fr : NFrame)
  | rxCollDown (p : LPort) (fr : NFrame)
  | rxCollReport (p : LPort) (fr : NFrame)
  | rxCollSeal (p : LPort) (fr : NFrame)
  | rxCollRepair (p : LPort) (fr : NFrame)
  | rxCollGrant (p : LPort) (fr : NFrame)
  | rxPause (p : LPort) (quanta : BitVec 16)
  | rxPfc (p : LPort) (enables : BitVec 8) (quanta : List (BitVec 16))
  /-- The whole port's pause ends (`none`), or one class's. -/
  | pauseQuantaExpiry (p : LPort) (cls : Option ClassId)
  | pfcXoffRefresh (p : LPort) (cls : ClassId)
  | rxPreemptVerify (p : LPort) (respond : Bool)
  | preemptVerifyTimeout (p : LPort)
  | rxRawFrame (p : LPort) (fr : EFrame)
  | rxDrillFrame (p : LPort) (fr : EFrame)
  | drillFrameVerdict (prog : Nat) (good : Bool)
  | contextFetchDone (conn : Nat) (obs : BlockObs)
  /-- Module memory has taken the writes of transfer `x`; `obs`: what the merge read of each 64-byte block touched met. -/
  | memWriteResponse (x : Nat) (obs : List BlockObs)
  | flushComplete (id : Nat)
  | flushFailed (id : Nat)
  | probeFlushTimer
  | ackDelayExpiry (conn : Nat)
  | rtoExpiry (conn : Nat)
  | probeIntervalExpiry (conn : Nat)
  | rnrRetryExpiry (conn : Nat)
  | flowIdleExpiry (die : DieId) (node conn : Nat) (path : Nat)
  | unreachHoldExpiry (epoch : Bool) (index : Nat) (p : LPort)
  | drainMaxExpiry (conn : Nat) (path : Nat)
  | atsTranslationDone (x : Nat) (ans : AtsAnswer)
  | pageRequestResponse (x : Nat) (ans : PriAnswer)
  | pageRequestTimeout (x : Nat)
  | invalidateRequest (l : LinkId) (f : FuncId) (pasid : BitVec 20) (base : Word64) (len : Nat)
  | invalidateReadTimeout (id : Nat)
  | atsDisable (f : FuncId)
  | priReenable (f : FuncId)
  | linkDown (l : LinkId)
  | linkUp (l : LinkId) (rate width : Nat)
  | replayDone (l : LinkId)
  | retrainWindowExpiry (l : LinkId)
  | linkHotReset (l : LinkId)
  | functionLevelReset (f : FuncId)
  | configResetDone (f : FuncId)
  | attachMsExpiry (f : FuncId)
  | teardownDone (f : FuncId)
  | vfEnable (l : LinkId) (numVfs : Nat)
  | vfDisable (l : LinkId) (numVfs : Nat)
  | d3hotEntry (f : FuncId)
  | d0Return (f : FuncId)
  | l1IdleEntry (l : LinkId)
  | l0pNarrow (l : LinkId)
  | laneSerExceeded (ph : PhysId) (lane : Fin 9)
  | laneSignalLoss (ph : PhysId) (lane : Fin 9)
  | laneSwapDone (ph : PhysId)
  | portLinkDown (p : LPort)
  /-- `peer7440`: the Pliath exchange recognised another 7440; `reversed`: the far end's lane order is reversed. -/
  | portLinkUp (p : LPort) (peer7440 reversed : Bool)
  /-- `feed`: where the program's streams put the input bytes. -/
  | runStart (prog : Nat) (feed : List Piece)
  | runScheduleEnd (prog : Nat)
  /-- `ops`: what the program carried out; `outs`: where its outputs lie; `added`: the value each COUNTER output of
  MODE 1 adds; `cycles`: the cycles the run took. -/
  | runEnd (prog : Nat) (ops : List TineOp) (outs : List Piece) (added : List Nat) (cycles : Nat)
  | gleanStepReached (prog : Nat) (step : Word32) (data : Bytes)
  | rampGranted (prog : Nat)
  | warmHoldExpiry (fur : FurrowId)
  | tineFault (fur : FurrowId) (core tine : Fin 16)
  | tineThresholdDraw (fur : FurrowId) (core tine : Fin 16)
  /-- The next block of HBM (`false`) or Tilth (`true`) and what the scrub met there. -/
  | patrolScrub (tilth : Bool) (obs : BlockObs)
  | rehashDone (stack : Fin 4)
  | hotIntervalEnd (f : FuncId)
  | faultSummaryPost (f : FuncId)
  | fwWatchdogExpiry
  | fwFault
  | fwRestartDone
  | stopRefLatch
  | freezeAssert
  | freezeRelease
  /-- `boots`: what each pass through the boot steps meets, in order. -/
  | powerOn (boots : List BootReport)
  | moduleResetStart (boots : List BootReport)
  | mrstAssert (boots : List BootReport)
  | powerLoss
  | powerLossFlushDone
  | holdupMeasure (mj : Nat)
  | powerSample (r : PowerReading)
  | thermalSample (t : Temps)
  | overcurrent (milliamps : Nat) (held50us : Bool)
  | ppsInEdge
  | ppsOutSecond
  | refLock
  | refLost
  | smbusId
  | smbusStatus
  | smbusBoot
  | smbusVin
  | smbusIin
  | smbusPin
  | smbusTemp
  | smbusHoldup
  | smbusShutdownCause
  | smbusWrite (code : Byte) (data : Bytes)
  | msixFunctionMaskSet (f : FuncId)
  | msixEnableClear (f : FuncId)
  | atsEnableSet (f : FuncId)
  /-- Read number `x` of the outstanding module-memory reads returns; `obs` as for BAR2_READ. -/
  | memReadResponse (x : Nat) (obs : List BlockObs)
  | contextWriteBackDone (conn : Nat)
  | txFrameEnd (p : LPort)
  | unloadRunTimeout (f : FuncId)
  | inputInsertion (millivolts : Nat)
  deriving DecidableEq, Repr

end Sys2Proof
end

