-- ==== Sys2Proof/Machine/State.lean ====
section
/-! DEFINITION. Machine/State.lean: the machine's state as plain data, the reasons a step can stop, and the state
after reset. Each field's docstring gives its width, the rule of spec/ that names it, and its reset value. A `Tbl` is a
finite map kept as a list of pairs with rising keys; what an absent key reads as is said by its accessor. -/

namespace Sys2Proof.Machine

/-- A finite map by number: pairs with strictly rising keys (Machine/Table.lean keeps the form). -/
abbrev Tbl (α : Type) := List (Nat × α)

/-- A sparse byte memory: pairs with strictly rising addresses and no pair holding 0, which every unlisted address
reads as (R417: boot step 8 writes zeros everywhere). -/
abbrev Mem := List Host.Cell

/-! ### Mailboxes (R33 to R58) -/

/-- STATE of MBX_CMD_STATUS (R35). -/
inductive MbxState where
  | idle | posted | running | done
  deriving DecidableEq, Repr

/-- One event record (R49). -/
structure EvtRec where
  /-- KIND, 16 bits (R50). -/
  kind : BitVec 16
  /-- TOKEN, 16 bits (R49). -/
  token : BitVec 16
  /-- SEQ, 32 bits (R49). -/
  seq : Nat
  /-- TIME, module time in ns (R49). -/
  time : Nat
  /-- PAYLOAD, 48 bytes (R49). -/
  payload : Bytes
  deriving DecidableEq, Repr

/-- One edge of a wait-for graph sample: waiter and waited-for by node kind and id, their function, the reason, and a mark that
changes when the waiter makes progress (R441, R442). -/
structure WaitEdge where
  /-- Function of the waiter (R442). -/
  func : Nat
  /-- Node kind of the waiter (R441). -/
  fromKind : Nat
  /-- Number of the waiter (R442). -/
  fromId : Nat
  /-- Node kind waited for (R441). -/
  toKind : Nat
  /-- Number of the node waited for (R442). -/
  toId : Nat
  /-- Why it waits (R441). -/
  reason : Nat
  /-- Changes when the waiter makes progress (R442). -/
  mark : List Nat
  deriving DecidableEq, Repr

/-- The work a long command, or a command waiting on an invalidation, still has to do (R42, R47). -/
inductive LongJob where
  | funcDestroy (target : FuncId)
  | ringRestart (func : FuncId) (ring : Nat)
  | portBreakout (ph : PhysId) (breakout : Nat)
  | portReset (p : LPort)
  | drillLoad (prog : Nat)
  | drillUnload (prog : Nat)
  | memLayoutSet (windrowMib traceMib slots : Nat) (inlineMib : List Nat)
  | shareScrub (base len : Nat)
  | granuleRevoke (target : FuncId) (tilth : Bool) (base len : Nat)
  | repair (kind unit addr : Nat)
  | tineReset (mask : BitVec 40)
  | moduleFallow (enter : Bool)
  | moduleWipe
  | imageProgram (slot : Nat) (img : ImageInfo)
  | lcTransition (toState : Nat) (ownerHash : Bytes)
  | traceRead (die : DieId) (key off len : Nat)
  | hangGraph (key off len : Nat) (sample : List WaitEdge)
  /-- TRACE_READ (`trace`) or HANG_GRAPH writes its region; the response's payload. -/
  | writing (trace : Bool) (payload : Bytes)
  | invalidation (id : Nat)
  deriving DecidableEq, Repr

/-- A function's command and event mailboxes with their registers (R33 to R35). -/
structure Mbx where
  /-- STATE, 3 bits (R35). Reset IDLE. -/
  state : MbxState
  /-- RESULT, 8 bits (R35). Reset 0x00. -/
  result : Byte
  /-- TOKEN, 16 bits (R35). Reset 0x0000. -/
  token : BitVec 16
  /-- The 4 KiB command mailbox (R33). Reset: zeros, DESIGN CHOICE 0 (log entry 5). -/
  cmd : Mem
  /-- Ranges (offset, length) of the command mailbox whose bytes are undefined after a response (R38). Reset: none. -/
  cmdUndef : List (Nat × Nat)
  /-- Bytes written while POSTED: the values firmware's copy may hold, by offset (R40). Reset: none. -/
  mixed : Tbl Bytes
  /-- TOKEN of the command as firmware copied it: of its response and its progress records (R38, R40). Reset 0x0000. -/
  copyToken : BitVec 16
  /-- Place in GO order of the posted command (R41). Reset 0, DESIGN CHOICE (the model's own, log entry 44). -/
  goOrder : Nat
  /-- Module time at which the command became RUNNING (R38, R44). Reset 0, DESIGN CHOICE (the model's own, log entry 44). -/
  runAt : Nat
  /-- OPCODE of the command taken (R38). Reset 0, DESIGN CHOICE (the model's own, log entry 44). -/
  opcode : Nat
  /-- TIMEOUT_MS of the command taken (R38, R44). Reset 0, DESIGN CHOICE (the model's own, log entry 44). -/
  timeoutMs : Nat
  /-- The long command RUNNING, if one is, and whether it has committed (R42, R57). Reset none. -/
  long : Option (LongJob × Bool)
  /-- The answer (code, DETAIL, payload) of a long command that ended while firmware restarts (R57). Reset none. -/
  deferred : Option (Nat × Nat × Bytes)
  /-- MBX_EVT_PROD, WRAP and INDEX, 7 bits (R35). Reset 0. -/
  evtProd : BitVec 7
  /-- MBX_EVT_CONS, WRAP and INDEX, 7 bits (R35). Reset 0. -/
  evtCons : BitVec 7
  /-- The records written into the 64 slots of the event mailbox (R48); a slot never written holds zeros, DESIGN CHOICE (log entry 5).
  Reset: none written. -/
  evtSlots : Tbl EvtRec
  /-- The backlog of up to 192 records, in SEQ order (R52). Reset: empty. -/
  backlog : List EvtRec
  /-- MBX_EVT_LOST, 32 bits, read clears (R35). Reset 0. -/
  lost : Nat
  /-- Records discarded since the last LOST_MARKER, and the SEQ of the first of them (R52). Reset (0, 0). -/
  marker : Nat × Nat
  /-- SEQ of the next event record, 32 bits (R49). Reset 0. -/
  seq : Nat
  /-- EVT_EN of MBX_INT_CTRL, 1 bit (R35). Reset 0. -/
  evtEn : Bool
  /-- DONE_EN of MBX_INT_CTRL, 1 bit (R35). Reset 0. -/
  doneEn : Bool
  deriving DecidableEq, Repr

/-- The mailbox at reset (R35, R58). -/
def Mbx.reset : Mbx where
  state := .idle
  result := 0
  token := 0
  cmd := []
  cmdUndef := []
  mixed := []
  copyToken := 0
  goOrder := 0
  runAt := 0
  opcode := 0
  timeoutMs := 0
  long := none
  deferred := none
  evtProd := 0
  evtCons := 0
  evtSlots := []
  backlog := []
  lost := 0
  marker := (0, 0)
  seq := 0
  evtEn := false
  doneEn := false

/-! ### Windows, events, MSI-X, counters of a function (R64 to R79, R429) -/

/-- The WIN_ registers (R65). -/
structure Win where
  /-- WIN_BASE BASE, 19 bits (R65). Reset 0. -/
  base : BitVec 19
  /-- WIN_CTRL ENABLE, 1 bit (R65). Reset 0. -/
  enable : Bool
  /-- WIN_CTRL WRITE_EN, 1 bit (R65). Reset 0. -/
  writeEn : Bool
  /-- WIN_STATUS FAULT, 1 bit, W1C (R65). Reset 0. -/
  fault : Bool
  deriving DecidableEq, Repr

/-- WIN_ registers at reset (R65). -/
def Win.reset : Win := ⟨0, false, false, false⟩

/-- The event controller of a function (R74, R75). -/
structure Evc where
  /-- Pending bits of sources 0 to 4,094, as the rising list of those set (R76). Reset: none set. -/
  pending : List Nat
  /-- Active bits, as the rising list of those set (R76). Reset: none set. -/
  active : List Nat
  /-- Route table entries s, 32 bits each; an absent entry is 0 (R75). Reset: all 0. -/
  route : Tbl Word32
  /-- EVC_THRESHOLD, 4 bits (R75). Reset 0. -/
  threshold : BitVec 4
  /-- EVC_CTRL MSG_EN, 1 bit (R75). Reset 0. -/
  msgEn : Bool
  deriving DecidableEq, Repr

/-- The event controller at reset (R75, R82). -/
def Evc.reset : Evc := ⟨[], [], [], 0, false⟩

/-- One MSI-X table entry (R62, R82). -/
structure MsixEntry where
  /-- Message address, 64 bits (R82). Reset 0. -/
  addr : Word64
  /-- Message data, 32 bits (R82). Reset 0. -/
  data : Word32
  /-- Vector mask bit (R79, R82). Reset 1. -/
  masked : Bool
  deriving DecidableEq, Repr

/-- An MSI-X table entry at reset: address and data 0, masked (R82). -/
def MsixEntry.reset : MsixEntry := ⟨0, 0, true⟩

/-- MSI-X of a function (R62, R79). -/
structure Msix where
  /-- The table in BAR4; an absent entry is at its reset (R82). Reset: every entry at its reset. -/
  table : Tbl MsixEntry
  /-- Pending-bit array in BAR4, as the rising list of bits set (R79). Reset: none set. -/
  pba : List Nat
  /-- MSI-X Enable in configuration space, 1 bit (R79, R82). Reset 0. -/
  enable : Bool
  /-- Function Mask in configuration space, 1 bit (R79, R82). Reset 0. -/
  fmask : Bool
  deriving DecidableEq, Repr

/-- MSI-X at reset (R82). -/
def Msix.reset : Msix := ⟨[], [], false, false⟩

/-- The always-on counters of a function and their shadow (R429, R430). -/
structure Counters where
  /-- The 26 live counters, 64 bits each (R430). Reset 0. -/
  live : List Nat
  /-- The shadow copy that reads return (R429). Reset 0. -/
  shadow : List Nat
  /-- CNT_SNAP_TIME, 64 bits (R429). Reset 0. -/
  snapTime : Nat
  /-- CNT_CTRL SNAP, 1 bit: the copy is in progress (R429). Reset 0. -/
  snap : Bool
  deriving DecidableEq, Repr

/-- The counters at reset (R429). -/
def Counters.reset : Counters := ⟨List.replicate 26 0, List.replicate 26 0, 0, false⟩

/-- The part of a function's configuration space that commands change (R60, R89, R90, R419). -/
structure Cfg where
  /-- ATS Enable and PASID Enable, as one bit (R88, R89). Reset 0. -/
  ats : Bool
  /-- Page requests stopped after a Response Failure until PRI is enabled again (R90). Reset 0. -/
  priStopped : Bool
  /-- The function is in D3hot (R419). Reset 0 (D0). -/
  d3hot : Bool
  deriving DecidableEq, Repr

/-- Configuration space at reset. -/
def Cfg.reset : Cfg := ⟨false, false, false⟩

/-! ### Function states and shares (R373 to R385) -/

/-- The states of R375. -/
inductive FuncState where
  | disabled | unprovisioned | active | fenced | cleaning | destroying
  deriving DecidableEq, Repr

/-- A series of numbers assigned never-used first, then oldest freed first (R85, R136, R467). -/
structure Series where
  /-- Lowest number not used since power-on or module reset (R85). -/
  next : Nat
  /-- Freed numbers, oldest first (R85). -/
  freed : List Nat
  deriving DecidableEq, Repr

/-! ### Rings (R100 to R134) -/

/-- The kinds of work ring (R130, R262). -/
inductive RingKind where
  | copy | send | coll
  deriving DecidableEq, Repr

/-- How far a started request has come. -/
inductive JobPhase where
  /-- Source bytes, or other reads, are outstanding. -/
  | reading
  /-- Packets are to be sent, or acknowledgements are outstanding. -/
  | sending
  /-- Destination writes are outstanding. -/
  | writing
  /-- A RECV posted, or a collective entry launched: waits for others. -/
  | posted
  /-- Finished with a status; completes in ring order (R106). -/
  | finished
  /-- The oldest of its ring: it makes the writes of its completion (R106, R122). -/
  | retiring
  deriving DecidableEq, Repr

/-- Transport parameters (R203). -/
structure Xport where
  /-- RTO_MIN_US (R203). -/
  rtoMinUs : Nat
  /-- RTO_MAX_MS (R203). -/
  rtoMaxMs : Nat
  /-- RETRY_LIMIT (R203). -/
  retryLimit : Nat
  /-- REORDER (R203). -/
  reorder : Nat
  /-- PATH_FAIL (R203). -/
  pathFail : Nat
  /-- PROBE_OK (R203). -/
  probeOk : Nat
  /-- ACK_PACKETS (R203). -/
  ackPackets : Nat
  /-- ACK_DELAY_NS (R203). -/
  ackDelayNs : Nat
  /-- PROBE_INTERVAL_US (R203). -/
  probeIntervalUs : Nat
  /-- CREDIT_MAX (R203). -/
  creditMax : Nat
  deriving DecidableEq, Repr

/-- Defaults of R203. -/
def Xport.reset : Xport := ⟨20, 100, 16, 3, 2, 3, 16, 2000, 100, 4096⟩

/-- Congestion parameters (R208). -/
structure Cc where
  /-- CWND_INIT (R208). -/
  cwndInit : Nat
  /-- CWND_MIN (R208). -/
  cwndMin : Nat
  /-- CWND_MAX (R208). -/
  cwndMax : Nat
  /-- AI (R208). -/
  ai : Nat
  /-- G_SHIFT (R208). -/
  gShift : Nat
  /-- BETA_PCT (R208). -/
  betaPct : Nat
  /-- DELAY_TARGET_NS (R208). -/
  delayTargetNs : Nat
  /-- SRTT_INIT_NS (R208). -/
  srttInitNs : Nat
  /-- BASE_WINDOW_MS (R208). -/
  baseWindowMs : Nat
  /-- CNP_INTERVAL_US (R208). -/
  cnpIntervalUs : Nat
  /-- RP_TIMER_US (R208). -/
  rpTimerUs : Nat
  /-- RP_FAST_STAGES (R208). -/
  rpFastStages : Nat
  /-- RP_RAI_MBPS (R208). -/
  rpRaiMbps : Nat
  /-- RP_MIN_MBPS (R208). -/
  rpMinMbps : Nat
  deriving DecidableEq, Repr

/-- Defaults of R208. -/
def Cc.reset : Cc := ⟨16, 1, 4096, 1, 4, 50, 5000, 10000, 10, 4, 55, 5, 5000, 100⟩

/-- A started request of a work ring (R105, R106). -/
structure Job where
  /-- Linear index W × N + I of its first entry (R101). -/
  slot : Nat
  /-- The 64 bytes of its first entry (R102). -/
  ent : Bytes
  /-- Its extension entries, 64 bytes each (R102, R105). -/
  exts : List Bytes
  /-- How far it has come (R106). -/
  phase : JobPhase
  /-- Status code when finished (R113). -/
  status : Nat
  /-- BYTES of the completion entry (R111). -/
  bytes : Nat
  /-- AUX of the completion entry (R111). -/
  aux : Nat
  /-- FAILED_COPY flag (R20, R111). -/
  failedCopy : Bool
  /-- NONCE for the STATUS_AREA, 12 bytes or none (R123). -/
  nonce : Bytes
  /-- Source bytes read so far, in order (R22: a record refers to the request, the bytes are read again to resend). -/
  data : Bytes
  /-- Network requests: first PSN (R171). -/
  psn0 : Nat
  /-- PSNs taken so far (R171). -/
  psns : Nat
  /-- Payload bytes already put into packets. -/
  sent : Nat
  /-- Packets of this request still unacknowledged or responses still to be placed, by PSN (R151). -/
  waiting : List Nat
  /-- Whether every packet of the request has been built. -/
  built : Bool
  /-- Number of the SEND message it is (R171). -/
  msg : Nat
  /-- Its next packet is replaced, since its source could not be read (R345). -/
  broken : Bool
  /-- COPY: runs (bus address, length) of host memory its source was read from (R121). -/
  srcAt : List (Nat × Nat)
  /-- The transport and congestion parameters in force when it started (R15). -/
  settings : Option (Xport × Cc)
  deriving DecidableEq, Repr

/-- A completion entry without its PHASE (R111). -/
structure Cqe where
  /-- USER_DATA, 64 bits (R111). -/
  userData : Nat
  /-- BYTES, 64 bits (R111). -/
  bytes : Nat
  /-- RING, 16 bits (R111). -/
  ring : Nat
  /-- WQE_INDEX, 16 bits (R111). -/
  wqe : Nat
  /-- OPCODE, 8 bits (R111). -/
  op : Nat
  /-- STATUS, 8 bits (R111, R113). -/
  status : Nat
  /-- CONN, 32 bits (R111). -/
  conn : Nat
  /-- AUX, 32 bits (R111). -/
  aux : Nat
  /-- FAILED_COPY (R111). -/
  failedCopy : Bool
  /-- FROM_WINDROW (R111, R116). -/
  fromWindrow : Bool
  deriving DecidableEq, Repr

/-- One write that the completion of a request still has to make (R122). -/
inductive Post where
  /-- `bytes` at offset `at_` of the ring's slot `slot`: STATUS_AREA, or CTRL with OWNER cleared. -/
  | back (slot at_ : Nat) (bytes : Bytes)
  | entry (e : Cqe)
  deriving DecidableEq, Repr

/-- A work ring or collective ring (R100, R130, R262). -/
structure Ring where
  /-- KIND (R130). -/
  kind : RingKind
  /-- MODE C4 (R128). -/
  c4 : Bool
  /-- LOG2_SIZE, 4 to 16 (R130). -/
  log2 : Nat
  /-- WEIGHT, 1 to 16 (R110). -/
  weight : Nat
  /-- BURST, 1 to 64 (R110). -/
  burst : Nat
  /-- WEIGHT and BURST set by RING_MODIFY, in force from the next refill (R110). -/
  nextWeightBurst : Option (Nat × Nat)
  /-- ERROR_SOURCE, 0 for none (R130). -/
  errSource : Nat
  /-- Completion ring (R130). -/
  cq : Option Nat
  /-- Region key of the ring (R130). -/
  key : Word32
  /-- Offset of the ring in its region (R130). -/
  offset : Nat
  /-- Producer index, linear (R100). -/
  prod : Nat
  /-- Consumer index: the oldest request not completed, linear (R129). -/
  cons : Nat
  /-- Index of the first entry not yet started, linear (R129). -/
  started : Nat
  /-- In ERROR (R114). -/
  error : Bool
  /-- ERROR_INDEX, linear (R129). -/
  errorIndex : Nat
  /-- Arbiter credit (R110). -/
  credit : Nat
  /-- Has joined the active set since creation, and refills seen when it last left (R110). -/
  joined : Option Nat
  /-- In the active set (R110). -/
  inSet : Bool
  /-- Requests started in the turn being served (R110). -/
  turn : Nat
  /-- Entries of the next request accepted so far, oldest first (R105, R161). -/
  held : List Bytes
  /-- An entry read is outstanding, with the rereads already made (R109). -/
  fetching : Option Nat
  /-- Started requests, oldest first (R106). -/
  jobs : List Job
  /-- Shapers bound to the ring, at most two (R216). -/
  shapers : List Nat
  /-- Raw queue (logical port × 16 + queue) this ring serves (R247). -/
  rawq : Option Nat
  /-- Module time at which its next request became wholly held: start of a wait (R433). -/
  waitSince : Nat
  /-- Slot of the request completed last: the one a FENCE waited for (R433). -/
  lastDone : Nat
  /-- What the completing request has still to write, in order (R106, R122). -/
  posts : List Post
  /-- The transfer of its write-back that waits for a translation or page (R106, R122). -/
  postWait : Option Nat
  deriving DecidableEq, Repr

/-- A time-stamp entry or gap marker (R252, R253). -/
structure TsEntry where
  /-- STAMP, 64 bits (R252, R253). -/
  stamp : Nat
  /-- USER_DATA, 64 bits (R253). -/
  userData : Nat
  /-- WQE_INDEX, 16 bits (R253). -/
  wqe : Nat
  /-- It is a gap marker (R252). -/
  marker : Bool
  /-- Logical port (R253). -/
  lport : Nat
  /-- Function-local work ring, or COUNT of a marker (R252, R253). -/
  ringOrCount : Nat
  /-- SEQ, 32 bits (R252). -/
  seq : Nat
  /-- Physical port whose queue it stands in (R252). -/
  home : PhysId
  deriving DecidableEq, Repr

/-- The reported states of a completion ring (R118). -/
inductive CqState where
  | normal | spilling | backpressure | faulted
  deriving DecidableEq, Repr

/-- A completion ring (R100, R115 to R118, R131). -/
structure Cq where
  /-- LOG2_SIZE, 4 to 16 (R131). -/
  log2 : Nat
  /-- EVENT_SOURCE, 0 for none (R131). -/
  eventSource : Nat
  /-- WINDROW_ENTRIES (R115). -/
  windrowEntries : Nat
  /-- Region key of the ring (R131). -/
  key : Word32
  /-- Offset of the ring in its region (R131). -/
  offset : Nat
  /-- Producer, linear (R100). -/
  prod : Nat
  /-- Consumer, linear (R100). -/
  cons : Nat
  /-- The windrow, oldest first (R116). -/
  windrow : List Cqe
  /-- WINDROW_PEAK (R129). -/
  peak : Nat
  /-- Entries put into the windrow so far: the next one's place there (R115, R116). -/
  spilled : Nat
  /-- Reservations (R117). -/
  reserved : Nat
  /-- ARM pending (R134). -/
  armed : Bool
  /-- FAULTED (R468). -/
  faulted : Bool
  /-- The transfer of an entry write that waits for a translation or page (R468). -/
  waiting : Option Nat
  /-- Later entries, with their indices, whose writes wait behind that one (R468). -/
  unwritten : Tbl Cqe
  /-- State last reported, for the entries into SPILLING and BACKPRESSURE (R118). -/
  last : CqState
  /-- Bound to a physical port's time-stamp queue (R253). -/
  tsPorts : List PhysId
  /-- Module time at which it last entered BACKPRESSURE (R433). -/
  blockedAt : Nat
  deriving DecidableEq, Repr

/-- A trigger counter (R160, R167). -/
structure Trig where
  /-- 64-bit saturating value (R160). Reset value of a new counter 0, DEDUCED (log entry 6). -/
  value : Nat
  /-- EVENT_SOURCE, 0 for none (R167). -/
  eventSource : Nat
  /-- EVENT_AT (R167). -/
  eventAt : Nat
  /-- The event has been signalled (R167). -/
  fired : Bool
  deriving DecidableEq, Repr

/-- A shaper, or one of the two credit meters of a member (R216, R217). Credit in 1/65,536 byte. -/
structure Meter where
  /-- RATE in Mb/s (R216). -/
  rate : Nat
  /-- BURST in bytes (R216). -/
  burst : Nat
  /-- Signed credit in 1/65,536 byte (R217). -/
  credit : Int
  /-- Rate and burst set but not yet in force (R217). -/
  pend : Option (Nat × Nat)
  deriving DecidableEq, Repr

/-- A shaper of a function (R216). -/
structure Shaper where
  /-- Logical port it shapes (R216). -/
  lport : LPort
  /-- Its rate, burst and credit (R216, R217). -/
  meter : Meter
  /-- Connections it is bound to (R216). -/
  conns : List Nat
  /-- Send rings it is bound to (R216). -/
  rings : List Nat
  /-- A packet is ready and held back by the shaper alone (R217). -/
  waiting : Bool
  deriving DecidableEq, Repr

/-! ### Collectives (R256 to R289) -/

/-- A child of a tree node (R259). -/
structure Child where
  /-- Connection to the child (R259). -/
  conn : Nat
  /-- Lowest member of its subtree (R259). -/
  first : Nat
  /-- Members of its subtree (R259). -/
  count : Nat
  /-- Lost or pruned (R285, R286). -/
  lost : Bool
  /-- Members of its subtree reported as lost or pruned while the edge lives (R283, R286). -/
  gone : Nat
  deriving DecidableEq, Repr

/-- A communicator of a function (R259, R261). -/
structure Comm where
  /-- COMM_TAG, 32 bits (R259). -/
  tag : Word32
  /-- MEMBERS (R259). -/
  members : Nat
  /-- FIRST_LOCAL (R259). -/
  firstLocal : Nat
  /-- LOCAL_COUNT (R259). -/
  localCount : Nat
  /-- The node is the root of the tree (R259). -/
  root : Bool
  /-- Connection to the parent (R259). -/
  parent : Nat
  /-- Connection to the successor in the ring (R259). -/
  ringNext : Nat
  /-- Connection to the predecessor in the ring (R259). -/
  ringPrev : Nat
  /-- Position of the node in the ring (R259). -/
  ringPos : Nat
  /-- Nodes of the ring (R259). -/
  ringNodes : Nat
  /-- Children of the tree node (R259). -/
  children : List Child
  /-- DEGRADED (R261). -/
  degraded : Bool
  /-- PRUNED_MEMBERS (R289). -/
  pruned : Nat
  /-- CHUNK_LIMIT of the last COLL_GRANT received, by GSEQ (R270). -/
  grants : Tbl Nat
  /-- This node's own part is lost: its loss is recorded once (R265, R284, R287). -/
  cut : Bool
  /-- GSEQs whose ABORT lap of the ring has passed this node (R286). -/
  aborted : List Nat
  deriving DecidableEq, Repr

/-- A reduction slot holding one chunk (R267, R268). -/
structure Slot where
  /-- Chunk it holds (R267). -/
  chunk : Nat
  /-- Accumulators: exact sums for GRID, bit patterns for FAST, MAX, MIN and data (R272, R276, R277). -/
  acc : List Int
  /-- CLIP_COUNT, 32 bits (R272, R279). -/
  clip : Nat
  /-- NAN_COUNT, 32 bits (R272, R279). -/
  nan : Nat
  /-- CONTRIB: members counted in (R279). -/
  contrib : Nat
  /-- Local members whose input has been taken (R270). -/
  gotMembers : List Nat
  /-- Edges whose partial has been taken (R270). -/
  gotEdges : List Nat
  /-- Bytes of COLL_UP or COLL_DOWN packets of the chunk gathered so far, by edge (R258). -/
  gather : Tbl Bytes
  /-- The partial sum has been sent to the parent or successor (R270). -/
  sentUp : Bool
  /-- The result has been sent to the children or successor (R270). -/
  sentDown : Bool
  /-- Result bytes in DTYPE_OUT, once rounded or received (R273). -/
  result : Option Bytes
  /-- CHECKSUM of the chunk header (R279, R282). -/
  checksum : Nat
  /-- OVERFLOW of the chunk header (R279). -/
  overflow : Bool
  /-- The result as it was read from the slot for the local placements (R282, R284). -/
  read : Option Bytes
  /-- Local members whose placement has been flushed (R282). -/
  placed : List Nat
  /-- Comparisons failed (R284). -/
  failed : Nat
  /-- Own comparison matched (R283). -/
  matched : Bool
  /-- Children that have reported (R283). -/
  reports : List Nat
  /-- MATCHED reported so far (R283). -/
  matchedSum : Nat
  /-- PRUNED reported so far (R283). -/
  prunedSum : Nat
  /-- Its own report has been sent (R283). -/
  reported : Bool
  deriving DecidableEq, Repr

/-- A local member's launched entry (R263 to R266). -/
structure CollEntry where
  /-- Member number (R263). -/
  member : Nat
  /-- Collective ring (R262). -/
  ring : Nat
  /-- Linear index of its first entry (R263). -/
  slot : Nat
  /-- Its first entry, 64 bytes (R263). -/
  ent : Bytes
  /-- Its COLL_ARGS extension, 64 bytes (R264). -/
  args : Bytes
  /-- COUNTER and THRESHOLD of its WAIT extension (R150, R264). -/
  wait : Option (Nat × Nat)
  /-- Status of the member's own regions, OK so far (R266). -/
  status : Nat
  /-- Its completion is ready (R266). -/
  finished : Bool
  /-- A chunk placed for the member was replaced (R266, R284). -/
  repaired : Bool
  /-- Module time of its launch: start of a wait (R433). -/
  arrived : Nat
  deriving DecidableEq, Repr

/-- An operation at this node (R265, R269). -/
structure CollOp where
  /-- Communicator (R259). -/
  comm : Nat
  /-- GSEQ (R269). -/
  gseq : Nat
  /-- PREV_GSEQ (R269). -/
  prev : Nat
  /-- Entries launched (R265). -/
  entries : List CollEntry
  /-- First entry the local members agree on (R265). -/
  ent : Bytes
  /-- COLL_ARGS extension they agree on (R264, R265). -/
  args : Bytes
  /-- Every local member has launched it (R265). -/
  launched : Bool
  /-- It holds its slot set (R268, R269). -/
  admitted : Bool
  /-- Slots reserved (R268). -/
  slotSet : Nat
  /-- Reduction slots in use, by unit (R267). -/
  slots : Tbl Slot
  /-- Next chunk to begin (R270). -/
  nextChunk : Nat
  /-- CHUNK_LIMIT granted (R270). -/
  granted : Nat
  /-- The scale pass is done (R275). -/
  scaleDone : Bool
  /-- Local inputs seen by the scale pass (R275). -/
  scaleGot : List Nat
  /-- Children heard by the scale pass (R275). -/
  scaleEdges : List Nat
  /-- Messages of the ring's lap received (R275). -/
  scaleIn : Nat
  /-- Messages of the ring's lap sent (R275). -/
  scaleOut : Nat
  /-- EMAX so far (R275). -/
  emax : Int
  /-- S in force (R271, R275). -/
  scale : Int
  /-- Chunks completed at this node (R283). -/
  doneChunks : List Nat
  /-- Chunks sealed (R283). -/
  sealed : List Nat
  /-- AUX flags gathered (R266). -/
  flags : Nat
  /-- Members known to be pruned from it (R283, R286). -/
  prunedOf : Nat
  /-- Ring: report tokens waiting at this node, by chunk: MATCHED so far (R283). -/
  tokens : Tbl Nat
  /-- Module time at which it was launched: start of a wait (R433). -/
  launchedAt : Nat
  /-- Module time at which each chunk was complete here: starts of waits (R433). -/
  doneAt : Tbl Nat
  /-- Use number of the free value of its AUX flags: the model's own (R266, log entry 155). -/
  auxUse : Nat
  deriving DecidableEq, Repr

/-! ### Regions and translation (R84 to R99) -/

/-- KIND of a region (R84). -/
inductive RegionKind where
  | hostAts | hostMirror | module
  deriving DecidableEq, Repr

/-- A live region (R84, R87). -/
structure Region where
  /-- GEN, 12 bits (R85). -/
  gen : Nat
  /-- Owner (R84). -/
  func : FuncId
  /-- KIND (R84). -/
  kind : RegionKind
  /-- PATH VIA_ROOT (R70). -/
  viaRoot : Bool
  /-- ACCESS, 16 bits (R87). -/
  access : BitVec 16
  /-- PASID, 20 bits (R87, R88). -/
  pasid : BitVec 20
  /-- Virtual address, or module-local address (R87). -/
  base : Nat
  /-- LENGTH in bytes (R87). -/
  length : Nat
  /-- Address of the mirror table (R87, R91). -/
  mirrorAddr : Nat
  /-- Entries of the mirror table (R87, R91). -/
  mirrorEntries : Nat
  /-- MIRROR_PAGE, 0 to 2 (R87). -/
  mirrorPage : Nat
  /-- Remapped 2 MiB extents: offset to module-local address (R98). -/
  remap : Tbl Nat
  /-- XTS keys of a sealed region, two of 32 bytes (R351). -/
  sealKeys : Option (Bytes × Bytes)
  /-- Access counters by 2 MiB page (R97). -/
  counters : Tbl Nat
  /-- The program whose weights it names (R327). -/
  weights : Option Nat
  /-- Runs (address, length) of module memory that hold them, in order (R327). -/
  extents : List (Nat × Nat)
  deriving DecidableEq, Repr

/-- A cached translation (R89, R91). -/
structure AtcEntry where
  /-- Function it was obtained for (R89). -/
  func : FuncId
  /-- Obtained through a mirror table; else by ATS (R89, R91). -/
  mirror : Bool
  /-- HOST_ATS: its PASID. HOST_MIRROR: its region slot (R88, R89, R91). -/
  tag : Nat
  /-- Number of the page it translates (R89). -/
  page : Nat
  /-- Log2 of the bytes it covers (R89). -/
  log2 : Nat
  /-- Bus address of the page (R89). -/
  addr : Nat
  /-- Writes are allowed (R89). -/
  writable : Bool
  deriving DecidableEq, Repr

/-- A function's use of one path kind on one link (R73). -/
structure PathState where
  /-- Function (R73). -/
  func : FuncId
  /-- Link (R73). -/
  link : LinkId
  /-- Path kind VIA_ROOT (R70, R73). -/
  viaRoot : Bool
  /-- Failed flushes in a row (R73). -/
  fails : Nat
  /-- FENCED (R73). -/
  fenced : Bool
  /-- Last address written (R73). -/
  lastAddr : Nat
  deriving DecidableEq, Repr

/-- An entry of a function's hot list (R97, R99). -/
structure HotEntry where
  /-- Region key (R97, R99). -/
  key : Word32
  /-- Offset of the page (R97, R99). -/
  offset : Nat
  deriving DecidableEq, Repr

/-- What a transfer is for: decides what its completion leads to. -/
inductive Purpose where
  /-- COPY: source bytes, the tag to check, destination bytes, the tag written. -/
  | copySrc (f : FuncId) (ring slot : Nat)
  | copyTag (f : FuncId) (ring slot : Nat)
  | copyDst (f : FuncId) (ring slot : Nat)
  | copyTagOut (f : FuncId) (ring slot : Nat)
  /-- COPY: its source is to be read again for a destination write that was fenced or lost (R81, R94). -/
  | copyAgain (f : FuncId) (ring slot : Nat)
  /-- Source of the next packet of a WRITE or SEND, or of a raw SEND; of a retransmission. -/
  | sendSrc (f : FuncId) (ring slot : Nat)
  | rawSrc (f : FuncId) (ring slot : Nat)
  | resend (conn psn : Nat)
  /-- A received packet's payload, and the moment its bytes are written; a FLAG; a READ or atomic response placed locally. -/
  | packet (conn psn : Nat)
  | placing (conn psn : Nat)
  | flag (conn psn : Nat)
  | readResp (conn psn : Nat)
  | atomicResp (conn psn : Nat)
  /-- The responder's reads; the atomic at its target. -/
  | respond (conn psn : Nat)
  | atomicTarget (conn psn : Nat)
  /-- A write-back of STATUS_AREA or CTRL, not yet issued; and issued: covers nothing. -/
  | writeBack (f : FuncId) (ring : Nat)
  | writtenBack (f : FuncId) (ring : Nat)
  /-- A completion entry at an index of its ring, not yet issued; and issued, its record kept until a flush. -/
  | cqEntry (f : FuncId) (cq idx : Nat) (e : Cqe)
  | cqPosted (f : FuncId) (cq idx : Nat) (e : Cqe)
  /-- A time-stamp entry at an index of its ring (R253). -/
  | tsEntry (f : FuncId) (cq idx : Nat) (e : TsEntry)
  | tsPosted (f : FuncId) (cq idx : Nat) (e : TsEntry)
  /-- Raw frame into a RECV. -/
  | rawRecv (f : FuncId) (ring slot : Nat)
  /-- Collective inputs and outputs of a local member. -/
  | collIn (f : FuncId) (gseq member chunk : Nat)
  | collOut (f : FuncId) (gseq member chunk : Nat)
  /-- The result of a unit, read from its reduction slot for the local placements (R282, R284). -/
  | collSlot (f : FuncId) (gseq key : Nat)
  /-- Program inputs and outputs, gleans; trace and graph output of a long command. -/
  | runIn (prog slot : Nat)
  | runOut (prog slot : Nat)
  | glean (prog : Nat)
  | firmware (f : FuncId)
  /-- A mirror-table entry read for a region and page (R91). -/
  | mirrorEntry (region page : Nat)
  /-- An entry of a work ring, read as one aligned 64-byte read; whether no reread follows it (R104, R109). -/
  | ringEntry (f : FuncId) (ring : Nat) (last : Bool)
  /-- A path was fenced: what its fence does to completion rings (R73, R468). -/
  | pathFenced (f : FuncId)
  deriving DecidableEq, Repr

/-- Where a transfer stands. -/
inductive XPhase where
  /-- Waits for a translation of the page at this offset of the region, or for a page request there. -/
  | waitXlate (off : Nat)
  | waitPage (off : Nat)
  /-- Its reads, or its writes to module memory, are outstanding; host writes wait for their flush (R71). -/
  | issued
  /-- Waits for the link to return, for its place among 256 translation requests, or for a fence to lift (R73, R81,
  R89). -/
  | parked
  /-- A COPY's destination write: waits for its source to be read again (R81, R94). -/
  | reread
  deriving DecidableEq, Repr

/-- A run of bytes of a transfer that lies in one place. -/
structure XPiece where
  /-- In host or accelerator memory; else in module memory (R86). -/
  host : Bool
  /-- Bus address, or module-local address (R86). -/
  addr : Nat
  /-- Bytes of it (R86). -/
  len : Nat
  /-- Offset in the region of its first byte (R86). -/
  off : Nat
  /-- Read, or placed and visible (R21, R71). -/
  done : Bool
  /-- The bytes read, or to be written (R86). -/
  bytes : Bytes
  deriving DecidableEq, Repr

/-- A transfer between the module and a region (R86). -/
structure Xfer where
  /-- Function it is made for (R86). -/
  func : FuncId
  /-- Region slot (R85). -/
  region : Nat
  /-- The runs (offset, length) of the region it touches, in order. -/
  spans : List (Nat × Nat)
  /-- It writes; else it reads (R86). -/
  write : Bool
  /-- Bytes to write. -/
  data : Bytes
  /-- What its end leads to (the model's own, log entry 44). -/
  purpose : Purpose
  /-- Where it stands (R71, R89, R90). -/
  phase : XPhase
  /-- Where its bytes went or come from, in order, once resolved. -/
  pieces : List XPiece
  /-- Its link, for host memory (R70). -/
  link : LinkId
  /-- Path kind VIA_ROOT (R70). -/
  viaRoot : Bool
  /-- Runs of the region it has written under translations that remain valid: a fenced write does not write them again (R94). -/
  kept : List (Nat × Nat)
  /-- Its place in the order in which transfers were issued (R81). -/
  order : Nat
  /-- A write that is made again from its record, in its original order: the flush behind it is that of the replay (R73, R81). -/
  replay : Bool
  deriving DecidableEq, Repr

/-- How a transfer ended. -/
inductive XResult where
  /-- Every byte read, or placed and visible. -/
  | ok (bytes : Bytes)
  /-- A read met an uncorrectable block (R345). -/
  | memError
  /-- Translation failed (R90, R91). -/
  | xlateFault
  /-- Its path is fenced (R73). -/
  | fenced
  /-- A page request is pending for a page it would write (R90): a peer's frame is answered with NAK_RNR. -/
  | pageWait
  /-- Its region was destroyed (R95). -/
  | gone
  deriving DecidableEq, Repr

/-- An outstanding flush read (R71). -/
structure Flush where
  /-- Function (R71). -/
  func : FuncId
  /-- Link (R71). -/
  link : LinkId
  /-- Path kind VIA_ROOT (R70). -/
  viaRoot : Bool
  /-- The transfers it covers. -/
  covers : List Nat
  /-- It is a probe flush (R73). -/
  probe : Bool
  /-- It is the flush of a replay (R81). -/
  replay : Bool
  deriving DecidableEq, Repr

/-- An outstanding ATS translation or page request (R89, R90). -/
structure XlateReq where
  /-- Function (R89). -/
  func : FuncId
  /-- Link it is sent on (R89). -/
  link : LinkId
  /-- PASID (R89). -/
  pasid : Nat
  /-- Page asked for (R89, R90). -/
  page : Nat
  /-- Write access is asked for (R89, R90). -/
  write : Bool
  /-- A page request rather than a translation request. -/
  paging : Bool
  /-- A peer's frame that reached its page was answered with receiver-not-ready (R90). -/
  peer : Bool
  /-- An invalidation reached its page, or ATS was disabled, while it was outstanding: what it returns is not cached (R89, R93). -/
  stale : Bool
  deriving DecidableEq, Repr

/-- An invalidation waiting for old reads (R93). -/
structure Inval where
  /-- Reads still awaited. -/
  reads : List Nat
  /-- Link of the request (R93). -/
  link : LinkId
  /-- It is the host's Invalidate Request (R93). -/
  ats : Bool
  /-- It is a mailbox command's, else a teardown's (R43, R95). -/
  mail : Bool
  /-- Function of that command or teardown (R43, R95). -/
  func : FuncId
  /-- The region slot a command's invalidation concerns (R43). -/
  slot : Option Nat
  /-- The region is destroyed when it ends (R95). -/
  destroy : Bool
  deriving DecidableEq, Repr

/-! ### Connections (R135 to R203) -/

/-- MODE of a connection (R135). -/
inductive ConnMode where
  | pinned | sprayed | roce
  deriving DecidableEq, Repr

/-- States of R146. -/
inductive ConnState where
  | reset | ready | error | frozen
  deriving DecidableEq, Repr

/-- Where a context is (R138, R142). -/
inductive CtxState where
  | cached | fetching | writingBack | backing
  deriving DecidableEq, Repr

/-- Any frame a logical port transmits. -/
inductive TxFrame where
  | native (fr : NFrame)
  | roce (fr : RFrame)
  | raw (bytes : Bytes)
  deriving DecidableEq, Repr

/-- Where a collective packet's data is read each time it is sent: the slot of a unit (R22, R25, R258). -/
structure CollSrc where
  /-- Owner of the communicator (R259). -/
  func : FuncId
  /-- GSEQ of the operation (R269). -/
  gseq : Nat
  /-- Unit of the slot (R267). -/
  unit : Nat
  /-- First byte, counted from the chunk header (R279). -/
  start : Nat
  /-- Bytes. -/
  len : Nat
  deriving DecidableEq, Repr

/-- A collective packet to be sent (R258, R278). -/
structure CollPkt where
  /-- Its header, with the payload of a packet that carries no data of a chunk (R280). -/
  fr : NFrame
  /-- Where its data lies, for one that carries data (R22, R25). -/
  src : Option CollSrc
  deriving DecidableEq, Repr

/-- A packet of a connection that waits to start on its path (R210, R215, R216). -/
structure HeldPkt where
  /-- The packet (R168). -/
  fr : TxFrame
  /-- Its path (R177). -/
  path : Nat
  /-- EPOCH it is sent under (R370). -/
  epoch : Bool
  deriving DecidableEq, Repr

/-- The sender's record of an unacknowledged packet (R179). -/
structure SendRec where
  /-- PSN, 24 or 32 bits (R171). -/
  psn : Nat
  /-- PSNs the packet takes (more than one for a READ_REQ, R171). -/
  count : Nat
  /-- Ring of its request (R179). -/
  ring : Nat
  /-- Linear index of its request (R179). -/
  slot : Nat
  /-- Offset of its payload in the request (R179). -/
  off : Nat
  /-- Bytes of its payload (R179). -/
  len : Nat
  /-- Path it was sent on (R179, R181). -/
  path : Nat
  /-- Module time of its last transmission (R181). -/
  sentAt : Nat
  /-- Transmission count (R182). -/
  tries : Nat
  /-- Packet type (R171). -/
  type : Nat
  /-- First packet of its message (R171). -/
  first : Bool
  /-- Last packet of its message (R171). -/
  last : Bool
  /-- Shown placed by SACK (R172). -/
  sacked : Bool
  /-- EPOCH bit it was sent under (R370). -/
  epoch : Bool
  /-- Packets sent after it on its path that SACK shows placed (R181). -/
  passed : Nat
  /-- A collective packet, whose source memory is the slot (R258). -/
  coll : Option CollPkt
  /-- A READ_REQ or ATOMIC_REQ shown acknowledged, kept until its response is placed (R151, R181, R183). -/
  acked : Bool
  /-- Packets of it in flight on its path (R207). -/
  inAir : Nat
  /-- A READ_REQ being sent again: the missing runs below this place have their READ_REQ already (R181, R183). -/
  runAt : Nat
  deriving DecidableEq, Repr

/-- Per-path congestion and liveness state (R190, R207). -/
structure PathCc where
  /-- cwnd in 1/256 packet (R207). -/
  cwnd : Nat
  /-- Packets in flight on the path (R207). -/
  inflight : Nat
  /-- srtt_p in ns (R207). -/
  srtt : Nat
  /-- base_rtt in ns (R207). -/
  baseRtt : Option Nat
  /-- Samples of the last BASE_WINDOW: (time, sample) (R207). -/
  samples : List (Nat × Nat)
  /-- alpha in 1/65,536 (R207). -/
  alpha : Nat
  /-- Packets acknowledged in the update interval (R207). -/
  acked : Nat
  /-- Of them, with CE_ECHO (R206, R207). -/
  marked : Nat
  /-- Module time of the next update (R207). -/
  nextUpdate : Nat
  /-- No packet starts before this module time (R210). -/
  paceUntil : Nat
  /-- The path has failed (R190). -/
  failed : Bool
  /-- Expiries in a row on the path (R190). -/
  timeouts : Nat
  /-- Probe replies in a row on a failed path (R193). -/
  probeOk : Nat
  /-- A probe sent on it has had no reply yet (R193). -/
  probing : Bool
  /-- The path has switched to the current epoch (R370). -/
  epoch : Bool
  /-- It waits for its packets before it switches epochs (R371). -/
  draining : Bool
  deriving DecidableEq, Repr

/-- A mark on a tracked PSN (R173). -/
structure Mark where
  /-- PSN marked (R173). -/
  psn : Nat
  /-- REFUSED; otherwise FAILED_COPY (R173). -/
  refused : Bool
  deriving DecidableEq, Repr

/-- What a packet with LAST delivers when VPSN passes it (R176, R152, R153). -/
structure RxLast where
  /-- PSN of the packet with LAST (R176). -/
  psn : Nat
  /-- WRITE, WRITE_FLAG or SEND type (R171). -/
  type : Nat
  /-- NOTIFY VALUE or immediate (R171). -/
  imm : Option Nat
  /-- REMOTE_OFFSET of its WRITE (R152). -/
  offset : Nat
  /-- LENGTH of its WRITE (R152). -/
  length : Nat
  /-- SEND message number (R171). -/
  msg : Nat
  deriving DecidableEq, Repr

/-- Responder work waiting for earlier placements (R157). -/
structure RespWork where
  /-- PSN of the request (R157). -/
  psn : Nat
  /-- Target key (R155). -/
  key : Word32
  /-- Target offset (R155). -/
  off : Nat
  /-- Bytes asked for (R155). -/
  len : Nat
  /-- Atomic OP, or none for a READ_REQ (R156). -/
  atomic : Option Nat
  /-- Operand of the atomic (R156). -/
  operand : Nat
  /-- Compare value of the atomic (R156). -/
  compare : Nat
  /-- Path of the request (R157). -/
  path : Nat
  /-- READ_RESP packets sent (R171, R199). -/
  sent : Nat
  deriving DecidableEq, Repr

/-- A packet with data that the receiver took (R152, R174, R196). -/
structure RxSpan where
  /-- PSN of the packet (R152). -/
  psn : Nat
  /-- Target key (R152). -/
  key : Word32
  /-- Region offset of its first byte; in a SEND, the offset in the message (R152). -/
  off : Nat
  /-- Its bytes (R152). -/
  len : Nat
  /-- First packet of its message (R171). -/
  first : Bool
  /-- Where its message begins (R152). -/
  base : Nat
  /-- Length the message announced (R171). -/
  total : Nat
  /-- Bytes of the message up to its end, once passed (R152). -/
  got : Nat
  deriving DecidableEq, Repr

/-- The receiving half of a connection (R173). -/
structure Rx where
  /-- EPSN: the lowest PSN not written (R173). -/
  epsn : Nat
  /-- VPSN: the lowest PSN not visible (R173). -/
  vpsn : Nat
  /-- PSNs from EPSN upward written (R173). -/
  bitmap : List Nat
  /-- PSNs at or above VPSN placed and visible (R172). -/
  visible : List Nat
  /-- PSNs already counted as newly placed but judged later, none kept: at most 16 marks (R173). -/
  marks : List Mark
  /-- The one EPSN mark (R186). -/
  epsnMark : Option Mark
  /-- The message VPSN stands in has a REFUSED packet (R186). -/
  msgRefused : Bool
  /-- The message VPSN stands in has a FAILED_COPY packet (R20, R173). -/
  msgFailed : Bool
  /-- The message VPSN stands in has a SEND packet that was placed (R154). -/
  msgPlaced : Bool
  /-- Packets with LAST not yet passed by VPSN (R176). -/
  lasts : List RxLast
  /-- Packets with data taken and not yet passed by VPSN (R152, R196). -/
  spans : List RxSpan
  /-- The last packet passed (R196). -/
  passed : RxSpan
  /-- SEND packets taken or refused and not yet passed by VPSN: psn, message number (R154, R345). -/
  sends : List (Nat × Nat)
  /-- Message number of the message VPSN stands in, where a SEND packet of it has been passed (R154, R173). -/
  msgSend : Option Nat
  /-- Duplicates whose ACK is due when VPSN passes them: the echo of each (R174). -/
  owed : List (Nat × Nat × Bool × Bool)
  /-- Packets taken and not yet visible: the echo of each, for the ACK it causes (R172, R206). -/
  arrived : List (Nat × Nat × Bool × Bool)
  /-- WRITE_FLAG packets whose flag is held: psn, key, offset, value (R157). -/
  flags : List (Nat × Nat × Nat × Nat)
  /-- Work of the responder not yet begun, in PSN order (R157). -/
  work : List RespWork
  /-- Results of the last READ_DEPTH atomics (R156). -/
  saved : List (Nat × Nat)
  /-- ACK_PSN last sent (R177). -/
  acked : Nat
  /-- Packets visible since the last ACK (R177). -/
  sinceAck : Nat
  /-- FAILED_COPY is to be reported (R188). -/
  failedCopy : Bool
  /-- The echo of the next ACK: psn, path, CE, RETX (R172). -/
  echo : Nat × Nat × Bool × Bool
  /-- NAK_SEQ sent since EPSN last advanced (R175). -/
  nakSeqSent : Bool
  /-- No NAK_RNR before this time (R184). -/
  rnrUntil : Nat
  /-- Absolute number of the first RECV still posted (R154). -/
  recvBase : Nat
  /-- Credit granted (R178). -/
  credit : Nat
  /-- Completion entries reserved for the credit (R178). -/
  reservedCq : Nat
  /-- No CNP before this time (R211). -/
  cnpUntil : Nat
  /-- Marks dropped in a CNP interval, counted (R211). -/
  cnpSuppressed : Nat
  /-- Frames held in the receive buffer until placed and visible: (psn, port, class, bytes) (R180, R243). -/
  buffered : List (Nat × LPort × Nat × Nat)
  deriving DecidableEq, Repr

/-- The sending half of a connection. -/
structure Tx where
  /-- Next new PSN (R171). -/
  next : Nat
  /-- ACK_PSN of the latest acknowledgement: every PSN before it is acknowledged (R172). -/
  una : Nat
  /-- CREDIT of the latest acknowledgement (R172, R178). -/
  credit : Nat
  /-- Records of unacknowledged packets (R179). -/
  records : List SendRec
  /-- Started requests of the send ring not wholly in packets: (ring, slot), oldest first (R148). -/
  queue : List (Nat × Nat)
  /-- PSNs to be sent again, with the path to use if fixed (R181, R191). -/
  resend : List Nat
  /-- Bytes read again for a PSN to be resent (R22). -/
  reread : Tbl Bytes
  /-- No new PSN before RNR_RETRY_EXPIRY (R184). -/
  rnrPause : Bool
  /-- REASON of the pause (R184). -/
  rnrReason : Nat
  /-- Module time at which the pause began: start of a wait (R433). -/
  rnrAt : Nat
  /-- Module time of the last new packet: start of a wait (R433). -/
  lastNew : Nat
  /-- PSNs refused since the last ACK (R184). -/
  refused : List Nat
  /-- SEND messages begun (R171). -/
  msgNo : Nat
  /-- Current path of a pinned connection, last path used of a sprayed one (R192, R209). -/
  path : Nat
  /-- Congestion and liveness state by path (R190, R207). -/
  paths : Tbl PathCc
  /-- srtt in ns, none before the first sample (R181). -/
  srtt : Option Nat
  /-- rttvar in ns (R181). -/
  rttvar : Nat
  /-- rto in ns (R181). -/
  rto : Nat
  /-- Consecutive expiries for the same oldest packet (R181). -/
  backoff : Nat × Nat
  /-- PSNs sent under the TX key (R197, R199). -/
  keyPsns : Nat
  /-- Responses sent under the TX key (R199). -/
  respCount : Nat
  /-- KEY_PHASE (R200). -/
  keyPhase : Bool
  /-- First PSN sent under the present key when an older key remains (R200). -/
  phasePsn : Nat
  /-- RoCE rate in Mb/s (R212). -/
  rate : Nat
  /-- RoCE target rate in Mb/s (R212). -/
  target : Nat
  /-- RoCE alpha in 1/65,536 (R212). -/
  alpha : Nat
  /-- RoCE recovery stage (R212). -/
  stage : Nat
  /-- A CNP has come since the last expiry (R212). -/
  cnpSeen : Bool
  /-- Collective packets waiting to be sent (R278). -/
  coll : List CollPkt
  /-- Packets built, waiting for their pacing gap, a class queue or a shaper, oldest first (R210, R215, R216). -/
  held : List HeldPkt
  deriving DecidableEq, Repr

/-- Transport statistics of a connection (R202). -/
structure ConnStats where
  /-- RETRANSMISSIONS (R202). -/
  retransmissions : Nat
  /-- TIMEOUTS (R202). -/
  timeouts : Nat
  /-- RNR_SENT (R202). -/
  rnrSent : Nat
  /-- RNR_RECEIVED (R202). -/
  rnrReceived : Nat
  /-- DUPLICATES (R202). -/
  duplicates : Nat
  /-- AUTH_FAILURES (R202). -/
  authFailures : Nat
  /-- BEYOND_TRACKING (R202). -/
  beyondTracking : Nat
  /-- MISS_DROPS (R167). -/
  missDrops : Nat
  deriving DecidableEq, Repr

/-- Statistics of a new connection. -/
def ConnStats.reset : ConnStats := ⟨0, 0, 0, 0, 0, 0, 0, 0⟩

/-- A connection (R135, R143, R145). -/
structure Conn where
  /-- Owner (R143). -/
  func : FuncId
  /-- MODE (R135). -/
  mode : ConnMode
  /-- PIN: its context is never evicted (R138, R143). -/
  pin : Bool
  /-- ENCRYPT (R143, R197). -/
  encrypt : Bool
  /-- ERROR_SOURCE, 0 for none (R143). -/
  errSource : Nat
  /-- Send ring (R143). -/
  sendRing : Option Nat
  /-- Receive ring (R143). -/
  recvRing : Option Nat
  /-- Completion ring of NOTIFY (R143, R152). -/
  notifyCq : Option Nat
  /-- Trigger counter that received messages advance (R143, R160). -/
  recvCounter : Option Nat
  /-- READ_DEPTH (R143, R156). -/
  readDepth : Nat
  /-- State (R146). -/
  state : ConnState
  /-- Connection number at the peer (R145). -/
  peer : Nat
  /-- NODE: the peer is reached by node id (R145, R364). -/
  node : Bool
  /-- PMTU in bytes (R145). -/
  pmtu : Nat
  /-- Paths (R145). -/
  npaths : Nat
  /-- DSCP, 6 bits (R145). -/
  dscp : BitVec 6
  /-- ENTROPY, 16 bits (R145). -/
  entropy : BitVec 16
  /-- Logical egress port, none for any port of the home die (R145). -/
  port : Option LPort
  /-- PEER_ADDR, 128 bits (R145). -/
  peerAddr : BitVec 128
  /-- P_KEY, 16 bits (R145). -/
  pkey : BitVec 16
  /-- Where its context is (R138, R142). -/
  ctx : CtxState
  /-- Order of last use, for least-recently-used eviction (R138). -/
  used : Nat
  /-- Frames held in the miss buffer for it: (port, frame) (R140). -/
  missed : List (LPort × NFrame)
  /-- RoCE packets so held (R140). -/
  missedRoce : List (LPort × RFrame)
  /-- Transport parameters (R203). -/
  xport : Xport
  /-- Congestion parameters (R208). -/
  cc : Cc
  /-- The rto and cwnd limits of a set command wait for the next request to start (R15). -/
  clampDue : Bool
  /-- Statistics (R202). -/
  stats : ConnStats
  /-- TX key in use (R200, R201). -/
  txKey : Option Nat
  /-- RX key in use (R200, R201). -/
  rxKey : Option Nat
  /-- Next TX key (R200). -/
  nextTx : Option Nat
  /-- Next RX key (R200). -/
  nextRx : Option Nat
  /-- TX key of the old phase still needed (R200). -/
  oldTx : Option Nat
  /-- RX key of the old phase still needed (R200). -/
  oldRx : Option Nat
  /-- KEY_PHASE of the RX key in use (R200). -/
  rxPhase : Bool
  /-- PSN at which the RX phase changed (R200). -/
  rxPhasePsn : Option Nat
  /-- Shapers bound to it, at most two (R216). -/
  shapers : List Nat
  /-- The function-local communicator it is an edge of (R257). -/
  edge : Option Nat
  /-- Its sending half (R171 to R193). -/
  tx : Tx
  /-- Its receiving half (R173). -/
  rx : Rx
  deriving DecidableEq, Repr

/-- USAGE of a key (R201). -/
inductive KeyUse where
  | copy | connTx | connRx
  deriving DecidableEq, Repr

/-- A key handle (R126, R201, R202). -/
structure Key where
  /-- Owner (R201). -/
  func : FuncId
  /-- USAGE (R201). -/
  use : KeyUse
  /-- FIXED, 4 bytes (R126, R199, R202). -/
  fixed : Bytes
  /-- The key, 32 bytes (R201). -/
  key : Bytes
  /-- 64-bit per-key job counter (R126). -/
  count : Nat
  /-- It has been bound to a connection once (R201). -/
  everBound : Bool
  /-- Connection it is bound to now (R201). -/
  conn : Option Nat
  deriving DecidableEq, Repr

/-! ### Ports (R204 to R255) -/

/-- A frame in a class queue (R213). -/
structure QFrame where
  /-- The frame (R213). -/
  fr : TxFrame
  /-- Bytes from the destination address through the frame check sequence (R235). -/
  len : Nat
  /-- Member it counts against: the function, or none for relayed frames (R214). -/
  member : Option FuncId
  /-- A raw SEND to complete when its last bit leaves: (function, ring, slot) (R249). -/
  raw : Option (FuncId × Nat × Nat)
  /-- To be time-stamped (R251). -/
  stamp : Bool
  /-- A cut-through relay of a frame whose check failed: ends with an inverted frame check sequence (R28). -/
  badFcs : Bool
  deriving DecidableEq, Repr

/-- Settings and state of one class of a logical port (R205, R213). -/
structure ClassCfg where
  /-- STRICT: else DWRR (R213). -/
  strict : Bool
  /-- WEIGHT (R213). -/
  weight : Nat
  /-- QMAX in bytes (R215). -/
  qmax : Nat
  /-- KMIN in bytes (R205). -/
  kmin : Nat
  /-- KMAX in bytes (R205). -/
  kmax : Nat
  /-- PMAX in 1/65,536 (R226). -/
  pmax : Nat
  /-- Its queue, oldest first (R213). -/
  queue : List QFrame
  /-- Deficit of DWRR in bytes (R213). -/
  deficit : Nat
  /-- Paused by PFC (R242). -/
  pfcPaused : Bool
  /-- Bytes held in the receive buffer (R243). -/
  rxBytes : Nat
  /-- XOFF in force (R243). -/
  xoffSent : Bool
  /-- The head that did not fit its gate when it was due, with the members' deficits after it: it goes before any other frame of the class
  (R223). -/
  pinned : Option (QFrame × Tbl Nat)
  /-- Member of its queue served last (R214). -/
  lastMember : Nat
  /-- Deficits of its members past their reservation, in bytes (R214). -/
  deficits : Tbl Nat
  deriving DecidableEq, Repr

/-- Class defaults: DWRR, WEIGHT 1, QMAX 256 KiB, KMIN 32 KiB, KMAX 192 KiB, PMAX 1/4 (R205, R213, R215). -/
def ClassCfg.reset : ClassCfg :=
  ⟨false, 1, 262144, 32768, 196608, 16384, [], 0, false, 0, false, none, 0, []⟩

/-- Reservation of a member on a logical port (R214). -/
structure Member where
  /-- RESERVED in Mb/s (R214). -/
  reserved : Nat
  /-- CEILING in Mb/s, none for the port's rate (R214). -/
  ceiling : Option Nat
  /-- Credit of the reservation, in 1/65,536 byte (R214, R217). -/
  resMeter : Int
  /-- Credit of the ceiling, in 1/65,536 byte (R214, R217). -/
  ceilMeter : Int
  /-- RESERVED and CEILING of a SCHED_FUNC_SET not yet in force (R227). -/
  pend : Option (Nat × Option Nat)
  deriving DecidableEq, Repr

/-- A time-gate list (R221). -/
structure GateList where
  /-- Entries: GATES and interval in ns (R221). -/
  entries : List (BitVec 8 × Nat)
  /-- CYCLE_NS (R221). -/
  cycle : Nat
  /-- BASE_TIME in ns of PTP time (R221). -/
  base : Nat
  deriving DecidableEq, Repr

/-- A filter entry (R246, R255). -/
structure Filter where
  /-- The EtherType is compared (R246). -/
  etypeEn : Bool
  /-- ACTION 0 DROP, 1 RAW_QUEUE, 2 DRILL (R246, R255). -/
  action : Nat
  /-- Raw queue of ACTION 1 (R246, R255). -/
  queue : Nat
  /-- PCP, 3 bits (R246). -/
  pcp : BitVec 3
  /-- PCP_MASK, 3 bits (R246, R255). -/
  pcpMask : BitVec 3
  /-- VID, 12 bits (R246). -/
  vid : BitVec 12
  /-- VID_MASK, 12 bits (R246, R255). -/
  vidMask : BitVec 12
  /-- ETYPE, 16 bits (R246). -/
  etype : BitVec 16
  /-- Program of ACTION 2 (R246, R255). -/
  program : Nat
  deriving DecidableEq, Repr

/-- What a frame held in a port's receive buffer waits for: its placement in a RECV, or its run (R243, R247, R328). -/
inductive RxOwner where
  | raw (f : FuncId) (ring slot : Nat)
  | drill (prog input : Nat)
  deriving DecidableEq, Repr

/-- A raw or drill frame held in a port's receive buffer (R243). -/
structure RxHeld where
  /-- What it waits for. -/
  owner : RxOwner
  /-- Its class (R243). -/
  cls : Nat
  /-- Its bytes (R235). -/
  len : Nat
  deriving DecidableEq, Repr

/-- A raw queue's binding (R247). -/
structure RawQueue where
  /-- Function it is bound to (R247). -/
  func : FuncId
  /-- Receive ring (R247). -/
  recv : Option Nat
  /-- Send ring (R247). -/
  send : Option Nat
  deriving DecidableEq, Repr

/-- A logical port (R228 to R255). -/
structure PortSt where
  /-- UP (R255). Reset: down. -/
  up : Bool
  /-- Lanes in use (R228, R233). Reset 8. -/
  lanes : Nat
  /-- The Pliath exchange of its link training recognised another 7440 (R231). Reset false. -/
  peer7440 : Bool
  /-- The far end's lane order is reversed and corrected (R230). Reset false. -/
  reversed : Bool
  /-- Raw and drill frames in the receive buffer, oldest first (R243). Reset: none. -/
  rxHeld : List RxHeld
  /-- FLOW 0 NONE, 1 PAUSE, 2 PFC (R242). Reset 0. -/
  flow : Nat
  /-- MAX_FRAME (R235). Reset 9,216. -/
  maxFrame : Nat
  /-- MAC (R255). Reset: base address + logical port number. -/
  mac : BitVec 48
  /-- Classes with PFC, 8 bits (R242). Reset 0. -/
  pfcClasses : BitVec 8
  /-- EXPRESS classes, 8 bits (R239). Reset 0. -/
  express : BitVec 8
  /-- PREEMPT (R239). Reset 0. -/
  preempt : Bool
  /-- ADD_FRAG (R240, R255). Reset 0. -/
  addFrag : Nat
  /-- Preemption has been verified (R239). Reset false. -/
  preemptActive : Bool
  /-- Verify frames sent since PREEMPT was enabled (R239). Reset 0. -/
  verifySent : Nat
  /-- STRIP: the tag is removed on receipt (R244). Reset 0. -/
  strip : Bool
  /-- TAG: a tag is inserted (R245). Reset 0. -/
  tagEn : Bool
  /-- TPID, 16 bits (R245). Reset 0x88A8. -/
  tpid : BitVec 16
  /-- TCI, 16 bits (R245). Reset 0. -/
  tci : BitVec 16
  /-- XOFF in bytes (R243). Reset 131,072. -/
  xoff : Nat
  /-- XON in bytes (R243). Reset 65,536. -/
  xon : Nat
  /-- PFC_QUANTA, 16 bits (R243, R255). Reset 0xFFFF. -/
  pfcQuanta : BitVec 16
  /-- Management addresses: index to (MAC, queue) (R238, R255). Reset: none. -/
  mgmt : Tbl (BitVec 48 × Nat)
  /-- Filter entries by index (R246). Reset: none. -/
  filters : Tbl Filter
  /-- Raw queues bound, by number (R247). Reset: none. -/
  rawqs : Tbl RawQueue
  /-- Default raw queue (R248). Reset: none. -/
  defaultQ : Option Nat
  /-- The 24 counters of R254. Reset 0. -/
  stats : List Nat
  /-- Classes 0 to 7; one never set is at ClassCfg.reset (R205, R213). -/
  classes : Tbl ClassCfg
  /-- DSCP_MAP, 64 classes (R213). Reset: d / 8. -/
  dscpMap : List Nat
  /-- Members by function number, 256 for relayed frames (R214). Reset: none set. -/
  members : Tbl Member
  /-- Operational gate list (R221). Reset: none. -/
  oper : Option GateList
  /-- Pending gate list (R222). Reset: none. -/
  pend : Option GateList
  /-- PTP time at which the pending list becomes operational (R222). Reset 0. -/
  switchAt : Nat
  /-- The list's removal is pending (R227). Reset false. -/
  removing : Bool
  /-- Entry of the operational list in force (R221). Reset 0. -/
  gateIdx : Nat
  /-- PTP time at which the entry in force began (R221). Reset 0. -/
  gateAt : Nat
  /-- Frames dropped since no gate interval fits them (R225). Reset 0. -/
  gateOversize : Nat
  /-- Paused by a PAUSE frame (R242). Reset false. -/
  paused : Bool
  /-- The frame being sent with its class and the bytes it had left when it began or resumed (R240). Reset: none. -/
  sending : Option (QFrame × Nat × Nat)
  /-- Module time at which the frame being sent began or resumed (R240). Reset 0, DESIGN CHOICE (the model's own, log entry 44). -/
  sendingAt : Nat
  /-- The frame suspended with its class and bytes left (R240). Reset: none. -/
  suspended : Option (QFrame × Nat × Nat)
  /-- Class settings of a SCHED_CLASS_SET not yet in force: class, settings, DSCP_MAP (R227). Reset: none. -/
  pendClasses : List (Nat × ClassCfg × List Nat)
  /-- Class served last by DWRR (R213). Reset 0. -/
  lastClass : Nat
  /-- Frames the module makes itself (NAK_CLOSED, UNREACH, answer frames), with their class, waiting for room (R215). Reset: none. -/
  own : List (Nat × QFrame)
  deriving DecidableEq, Repr

/-- A physical port (R228 to R234, R252). -/
structure PhysSt where
  /-- BREAKOUT 0 to 3 (R228). Reset 0. -/
  breakout : Nat
  /-- Lane the spare replaces (R231, R255). Reset none. -/
  spareFor : Option Nat
  /-- The spare is used up (R231). Reset false. -/
  spareUsed : Bool
  /-- Lane whose swap is in progress, and whether it is hitless (R232). Reset none. -/
  swap : Option (Nat × Bool)
  /-- Failed lanes (R231, R233). Reset: none. -/
  failedLanes : List Nat
  /-- Held dark (R406, R410, R420). Reset false. -/
  dark : Bool
  /-- Transmit time-stamp queue, at most 512 (R252). Reset: empty. -/
  tsQueue : List TsEntry
  /-- SEQ of the next stamp, 32 bits (R252). Reset 0. -/
  tsSeq : Nat
  /-- Stamps dropped since the last marker (R252). Reset 0. -/
  tsDropped : Nat
  /-- Function and completion ring bound to its time-stamp queue (R253). Reset none. -/
  tsCq : Option (FuncId × Nat)
  deriving DecidableEq, Repr

/-- A physical port at reset. -/
def PhysSt.reset : PhysSt := ⟨0, none, false, none, [], false, [], 0, 0, none⟩

/-- A policer (R218, R219). -/
structure Policer where
  /-- BIND 1: the connection (R218). -/
  conn : Option Nat
  /-- BIND 0: logical port and class (R218). -/
  port : Option (LPort × ClassId)
  /-- COLOUR_AWARE (R219). -/
  aware : Bool
  /-- Source of the pre-colour: DSCP or DEI (R219). -/
  src : Nat
  /-- YELLOW_CE (R220). -/
  yellowCe : Bool
  /-- CIR in Mb/s (R219). -/
  cir : Nat
  /-- PIR in Mb/s (R219). -/
  pir : Nat
  /-- CBS in bytes (R219). -/
  cbs : Nat
  /-- PBS in bytes (R219). -/
  pbs : Nat
  /-- COLOUR_MAP, 64 colours of 2 bits (R226). -/
  map : List Nat
  /-- Bucket Tc in 1/8,000 byte (Mb/s × ns) (R219). -/
  tc : Nat
  /-- Bucket Tp in 1/8,000 byte (R219). -/
  tp : Nat
  /-- Module time of the last frame judged (R219). -/
  lastAt : Nat
  /-- GREEN, 64 bits (R219, R226). -/
  green : Nat
  /-- YELLOW, 64 bits (R219, R226). -/
  yellow : Nat
  /-- RED, 64 bits (R220, R226). -/
  red : Nat
  deriving DecidableEq, Repr

/-! ### PCIe links (R59, R64, R80) -/

/-- A PCIe link and its physical function's SR-IOV state. -/
structure Link where
  /-- DL_Active (R64). Reset false. -/
  up : Bool
  /-- Generation of its rate (R64). Reset 0. -/
  rate : Nat
  /-- Width in lanes (R64). Reset 0. -/
  width : Nat
  /-- Capacity in GT/s × width at the last training; nominal before the first (R59, R394). Reset 2,048. -/
  capacity : Nat
  /-- Retrains since power-on, of which RETRAINS shows at most 0xFFFF (R64). Reset 0. -/
  retrains : Nat
  /-- LINK_RETAIN, 1 bit (R64). Reset 1. -/
  retain : Bool
  /-- REPLAYING, 1 bit (R64). Reset 0. -/
  replaying : Bool
  /-- Module time of DL_Down while the link is down (R80). Reset none. -/
  downAt : Option Nat
  /-- NumVFs while VF Enable is set, else 0 (R375). Reset 0. -/
  numVfs : Nat
  /-- In L1 (R421). Reset false. -/
  l1 : Bool
  /-- Transmit width narrowed to x4 (R421). Reset false. -/
  l0p : Bool
  /-- The address translation cache, most recently used first, at most 32,768 (R89). Reset: empty. -/
  atc : List AtcEntry
  /-- Maximum payload size programmed, 128 to 512 bytes (R60). Reset 512, DESIGN CHOICE (log entry 45). -/
  maxPayload : Nat
  /-- Maximum read request size programmed, 128 to 4,096 bytes (R60). Reset 4,096, DESIGN CHOICE (log entry 45). -/
  maxRead : Nat
  /-- Page requests the host allocated in the PRI capability, at most 512 (R90). Reset 512, DESIGN CHOICE (log entry 45). -/
  pageRequests : Nat
  /-- Completion timeout of Device Control 2 in ms (R73). Reset 10, the default of R73. -/
  completionMs : Nat
  /-- A function's configuration space has changed in the present outage (R80). Reset false. -/
  cfgTouched : Bool
  deriving DecidableEq, Repr

/-- A link at reset. -/
def Link.reset : Link := ⟨false, 0, 0, 2048, 0, true, false, none, 0, false, false, [], 512, 4096, 512, 10, false⟩

/-! ### Drill programs (R313 to R334) -/

/-- States of a program (R322). -/
inductive ProgState where
  | ready | running | disabled | failed
  deriving DecidableEq, Repr

/-- Where the current run stands (R323). -/
inductive RunPhase where
  /-- Waits for the power governor (R332). -/
  | ramping
  /-- Streaming its inputs. -/
  | feeding
  | computing
  /-- Held at a furrow barrier for a glean (R444). -/
  | gleaning
  /-- Results held until the schedule ends (R330). -/
  | waiting
  /-- Region outputs being written. -/
  | writing
  /-- Outputs visible; frame outputs wait for the input frame's verdict (R329). -/
  | verdict
  /-- Waits at step 7 for a reservation (R324). -/
  | reserving
  deriving DecidableEq, Repr

/-- A run in progress (R323). -/
structure Run where
  /-- Where it stands (R323). -/
  phase : RunPhase
  /-- The input frame, for a FRAME start (R329). -/
  frame : Option EFrame
  /-- Verdict on the input frame, once known (R329). -/
  verdict : Option Bool
  /-- Where the streams put the input bytes (R323). -/
  feed : List Piece
  /-- Inputs still to be read (R323). -/
  inputs : List Nat
  /-- Bytes of each output slot, once the program has finished (R324). -/
  outputs : Tbl Bytes
  /-- Values its COUNTER outputs of MODE 1 add (R317). -/
  added : List Nat
  /-- Cycles it took (R330). -/
  cycles : Nat
  /-- Its exception flags (R311). -/
  flags : Word32
  /-- Its status (R326). -/
  status : Nat
  /-- Its schedule has ended (R330). -/
  scheduleEnded : Bool
  /-- It overran its schedule (R330, R331). -/
  late : Bool
  /-- RUN of this run (R308). -/
  num : Nat
  /-- SEED of this run (R308). -/
  seed : Word32
  /-- Bytes of the inputs read so far, by input slot (R323). -/
  got : Tbl Bytes
  /-- The program enters FAILED when the run has ended (R326). -/
  fails : Bool
  /-- Its inputs changed between its start event and its completion, or a write into its weights landed during it: its results are
  undefined (R325, R327). -/
  spoilt : Bool
  deriving DecidableEq, Repr

/-- A binding of an input or output (R317). -/
structure Binding where
  /-- It is an output; else an input (R317). -/
  output : Bool
  /-- Number of the input or output (R317). -/
  index : Nat
  /-- KIND (R317). -/
  kind : Nat
  /-- First operand of the binding: key, port, counter or pulse (R317). -/
  a : Nat
  /-- Second operand: offset, queue or mode (R317). -/
  b : Nat
  /-- Third operand (R317). -/
  c : Nat
  /-- BYTES of the IO declaration (R314). -/
  bytes : Nat
  deriving DecidableEq, Repr

/-- State of a glean (R448). -/
structure Glean where
  /-- 0 IDLE, 1 ARMED, 2 DONE, 3 MISSED (R448). -/
  state : Nat
  /-- STREAM (R443). -/
  stream : Nat
  /-- Event source (R443, R448). -/
  source : Nat
  /-- STEP (R443). -/
  step : Nat
  /-- The run named, 0xFFFF_FFFF for the next (R444). -/
  run : Nat
  /-- Region key of the output (R443). -/
  key : Word32
  /-- Offset of the output (R443). -/
  offset : Nat
  /-- Bytes of the tensor (R443). -/
  bytes : Nat
  deriving DecidableEq, Repr

/-- A loaded program (R316, R322). -/
structure Prog where
  /-- Owner (R316). -/
  func : FuncId
  /-- The program image, kept in the firmware store (R338, R388). -/
  image : Bytes
  /-- DETERMINISTIC (R314). -/
  deterministic : Bool
  /-- KEEP_WARM (R314, R332). -/
  keepWarm : Bool
  /-- CORES (R314). -/
  cores : Nat
  /-- TINES (R314). -/
  tines : Nat
  /-- Furrows it runs on (R319). -/
  furrows : List Nat
  /-- Cores it runs on, as furrow × 16 + core (R319, R321). -/
  coreList : List Nat
  /-- Its stream descriptors (R314, R355). -/
  descs : List StreamDesc
  /-- COUNTERS (R314). -/
  counters : Nat
  /-- RND, the default rounding (R306, R314). -/
  rnd : Nat
  /-- SAT, the default saturation (R306, R314). -/
  sat : Nat
  /-- SCHEDULE_CYCLES (R314). -/
  schedule : Nat
  /-- Streams it uses (R314). -/
  streams : Nat
  /-- TILTH_BYTES per furrow (R314). -/
  tilthBytes : Nat
  /-- HBM_BYTES (R314). -/
  hbmBytes : Nat
  /-- Where its Tilth and HBM storage lies: (address, length) (R320). -/
  storage : List (Nat × Nat)
  /-- Bindings of its inputs and outputs (R317). -/
  bindings : List Binding
  /-- Completion ring (R315). -/
  cq : Option Nat
  /-- SEED, 32 bits (R308). -/
  seed : Word32
  /-- START_KIND (R316, R322). -/
  startKind : Nat
  /-- START_INPUT (R316, R322). -/
  startInput : Nat
  /-- START_COUNTER (R316, R322). -/
  startCounter : Nat
  /-- ERROR_SOURCE, 0 for none (R316, R326). -/
  errSource : Nat
  /-- THRESHOLD of a counter start (R322). -/
  threshold : Nat
  /-- STEP of a counter start (R322). -/
  step : Nat
  /-- First pulse input (R317). -/
  inputBase : Nat
  /-- Key of its weights region (R327). -/
  weightsKey : Word32
  /-- LATENCY_NS (R331). -/
  latencyNs : Nat
  /-- State (R322). -/
  state : ProgState
  /-- RUN of the next run, 32 bits (R308). -/
  run : Nat
  /-- RUNS (R334). -/
  runs : Nat
  /-- LAST_FLAGS (R334). -/
  lastFlags : Word32
  /-- DET_LATE (R330, R334). -/
  detLate : Nat
  /-- OVERRUN (R328, R334). -/
  overrun : Nat
  /-- SHORT (R328, R334). -/
  short : Nat
  /-- BAD_INPUT (R329, R334). -/
  badInput : Nat
  /-- PULSE_LOST (R322, R334). -/
  pulseLost : Nat
  /-- Pulses held, 16-bit saturating (R322). -/
  pending : Nat
  /-- Frames waiting, oldest first, each with its input, at most QUEUE_DEPTH of an input (R328). -/
  frames : List (Nat × EFrame)
  /-- How many of the start events there are came before an input last changed: their runs have undefined results (R325). -/
  spoil : Nat
  /-- WARM_HOLD in ns (R332). -/
  warmHold : Nat
  /-- The run in progress (R323). -/
  current : Option Run
  /-- Its glean (R443, R444). -/
  glean : Glean
  /-- Module time at which it last became ready to start: start of a wait (R433). -/
  waitSince : Nat
  /-- Loading is not complete (R316). -/
  loading : Bool
  /-- Unloading has begun (R334). -/
  unloading : Bool
  deriving DecidableEq, Repr

/-! ### Relay (R364 to R372) -/

/-- An entry of a path table (R366). -/
structure RelayEntry where
  /-- Prefix of node ids, 20 bits (R366). -/
  prefix20 : BitVec 20
  /-- Length of the prefix (R366). -/
  len : Nat
  /-- Next-hop ports (R366). -/
  hops : List Nat
  deriving DecidableEq, Repr

/-- A flow entry (R367). -/
structure Flow where
  /-- Die that holds it (R367). -/
  die : DieId
  /-- Destination node (R367). -/
  node : Nat
  /-- Connection of the frames (R367). -/
  conn : Nat
  /-- Path of the frames (R367). -/
  path : Nat
  /-- Port chosen (R367). -/
  hop : LPort
  deriving DecidableEq, Repr

/-- Relay state of the module. -/
structure Relay where
  /-- NODE_ID, 20 bits (R364). Reset 0, DESIGN CHOICE 0 (log entry 7). -/
  nodeId : Nat
  /-- HOP_LIMIT, 8 bits (R364). Reset 16. -/
  hopLimit : Nat
  /-- FLOW_IDLE in µs (R367). Reset 50. -/
  flowIdleUs : Nat
  /-- UNREACH_HOLD in µs (R368). Reset 1,000. -/
  unreachHoldUs : Nat
  /-- RELAY_PORTS, 32 bits (R365). Reset 0, DESIGN CHOICE (log entry 7). -/
  ports : Word32
  /-- The table of epoch 0 (R366). Reset: no entry. -/
  table0 : Tbl RelayEntry
  /-- The table of epoch 1 (R366). Reset: no entry. -/
  table1 : Tbl RelayEntry
  /-- CURRENT_EPOCH (R370). Reset 0, DESIGN CHOICE (log entry 7). -/
  epoch : Bool
  /-- DRAIN_MAX in µs (R371). Reset 10,000. -/
  drainMaxUs : Nat
  /-- Flow entries (R367). Reset: none. -/
  flows : List Flow
  /-- Ports held out: (epoch, entry index, port) (R368). Reset: none. -/
  heldOut : List (Bool × Nat × Nat)
  /-- UNREACH sent: (epoch, entry index, or 4,096 + node where no entry matches, until) (R368). Reset: none. -/
  unreach : List (Bool × Nat × Nat)
  /-- RELAYED (R372). Reset 0. -/
  relayed : Nat
  /-- RELAY_NO_ROUTE (R372). Reset 0. -/
  noRoute : Nat
  /-- HOP_EXPIRED (R372). Reset 0. -/
  hopExpired : Nat
  /-- RELAY_DISABLED (R372). Reset 0. -/
  disabled : Nat
  deriving DecidableEq, Repr

/-- Relay state at reset. -/
def Relay.reset : Relay := ⟨0, 16, 50, 1000, 0, [], [], false, 10000, [], [], [], 0, 0, 0, 0⟩

/-! ### Functions -/

/-- All of one function (R61, R373 to R385). -/
structure Func where
  /-- State (R375). Reset: manager ACTIVE, other physical functions UNPROVISIONED, virtual functions DISABLED. -/
  state : FuncState
  /-- POLICY RETAIN (R375). Reset TEARDOWN (false), DESIGN CHOICE (log entry 8); the manager acts as RETAIN (R374). -/
  retain : Bool
  /-- ATTACH_MS (R385). Reset 1,000, the default of R385. -/
  attachMs : Nat
  /-- RESETS (R385). Reset 0. -/
  resets : Nat
  /-- The configuration-space part of a reset is still to complete (R375). Reset false. -/
  configPending : Bool
  /-- A teardown is in progress, and whether it ends in destruction (R383, R384). Reset false. -/
  tearing : Bool
  /-- HBM granules held, as rising 2 MiB granule numbers (R376). Reset: none. -/
  hbm : List Nat
  /-- Tilth granules held, as rising module-local addresses / 64 KiB (R376). Reset: none. -/
  tilth : List Nat
  /-- Furrow mask, 40 bits (R376). Reset 0. -/
  furrows : BitVec 40
  /-- Shares by resource code 3 to 15; an absent code is 0, VECTORS (14) 1 (R376, R381). Reset: all 0, VECTORS 1. -/
  shares : Tbl Nat
  /-- Its mailboxes (R33 to R58). -/
  mbx : Mbx
  /-- Its BAR2 window (R65). -/
  win : Win
  /-- Its event controller (R74). -/
  evc : Evc
  /-- Its MSI-X (R79). -/
  msix : Msix
  /-- Its always-on counters (R429). -/
  cnt : Counters
  /-- Its configuration-space bits that commands change (R60). -/
  cfg : Cfg
  /-- High word of module time latched by a read of ID_TIME_LO, 32 bits (R64). Reset 0. -/
  timeHi : Nat
  /-- Work rings and collective rings by number (R100, R130, R262). Reset: none. -/
  rings : Tbl Ring
  /-- Ring numbers to assign (R467). Reset: lowest 0. -/
  ringSeries : Series
  /-- Completion rings by number (R131). Reset: none. -/
  cqs : Tbl Cq
  /-- Completion-ring numbers to assign (R467). Reset: lowest 0. -/
  cqSeries : Series
  /-- Trigger counters by number (R160). Reset: none. -/
  trigs : Tbl Trig
  /-- Counter numbers to assign (R467). Reset: lowest 0. -/
  trigSeries : Series
  /-- Shapers by number (R216). Reset: none. -/
  shapers : Tbl Shaper
  /-- Shaper numbers to assign (R467). Reset: lowest 0. -/
  shaperSeries : Series
  /-- Communicators by number (R259). Reset: none. -/
  comms : Tbl Comm
  /-- Communicator numbers to assign (R467). Reset: lowest 0. -/
  commSeries : Series
  /-- Collective operations at this node, in launch order (R265). Reset: none. -/
  ops : List CollOp
  /-- LAST_GSEQ (R269). Reset 0. -/
  lastGseq : Nat
  /-- Pulse inputs: number to (program, input index) (R317). Reset: none. -/
  pulses : Tbl (Nat × Nat)
  /-- Access-counter interval in µs (R97). Reset 10,000. -/
  hotIntervalUs : Nat
  /-- Access-counter threshold (R97). Reset 65,536. -/
  hotThreshold : Nat
  /-- Access-counter event source (R97). Reset 0, DESIGN CHOICE: R97 gives defaults for interval and threshold alone (log entry 46). -/
  hotSource : Nat
  /-- The hot list of at most 1,024 entries (R97). Reset: empty. -/
  hotList : List HotEntry
  /-- Overflow count of the hot list (R97). Reset 0. -/
  hotOverflow : Nat
  /-- Faults counted since the last FAULT_SUMMARY, by class (R440). Reset: none. -/
  faultCounts : Tbl Nat
  /-- First SEQ of those faults (R440). Reset none. -/
  faultFirst : Option Nat
  /-- When the last FAULT_SUMMARY was posted (R440). Reset none. -/
  faultPostedAt : Option Nat
  deriving DecidableEq, Repr

/-- The number series at power-on or module reset (R85, R467). -/
def Series.from (n : Nat) : Series := ⟨n, []⟩

/-- A function with nothing in it, in state `st` (R375, R376). -/
def Func.fresh (st : FuncState) : Func where
  state := st
  retain := false
  attachMs := 1000
  resets := 0
  configPending := false
  tearing := false
  hbm := []
  tilth := []
  furrows := 0
  shares := []
  mbx := Mbx.reset
  win := Win.reset
  evc := Evc.reset
  msix := Msix.reset
  cnt := Counters.reset
  cfg := Cfg.reset
  timeHi := 0
  rings := []
  ringSeries := Series.from 0
  cqs := []
  cqSeries := Series.from 0
  trigs := []
  trigSeries := Series.from 0
  shapers := []
  shaperSeries := Series.from 0
  comms := []
  commSeries := Series.from 0
  ops := []
  lastGseq := 0
  pulses := []
  hotIntervalUs := 10000
  hotThreshold := 65536
  hotSource := 0
  hotList := []
  hotOverflow := 0
  faultCounts := []
  faultFirst := none
  faultPostedAt := none

/-- Function `f` at power-on or module reset: the manager ACTIVE, other physical functions UNPROVISIONED, virtual
functions DISABLED (R375). -/
def Func.reset (f : FuncId) : Func :=
  Func.fresh (if f = 0 then .active else if f.val % 64 = 0 then .unprovisioned else .disabled)

/-! ### Memory, tine array, spares (R290 to R312, R335 to R356, R386 to R398) -/

/-- Sizes of the adjustable reserved areas (R338). -/
structure Layout where
  /-- WINDROW_MIB (R338). Reset 1,024. -/
  windrowMib : Nat
  /-- TRACE_MIB (R338). Reset 256. -/
  traceMib : Nat
  /-- REDUCTION_SLOTS (R338). Reset 4,096. -/
  slots : Nat
  /-- INLINE_MIB per furrow, 40 bytes (R338). Reset 0. -/
  inlineMib : List Nat
  deriving DecidableEq, Repr

/-- The layout defaults (R338). -/
def Layout.reset : Layout := ⟨1024, 256, 4096, List.replicate 40 0⟩

/-- The module's memories and their protection. -/
structure MemSt where
  /-- Bytes of HBM and Tilth by 40-bit module-local address (R335). Reset: zeros (R417). -/
  bytes : Mem
  /-- Ranges (address, length) whose bytes are undefined (R19, R121, R132), apart from those of transfers outstanding.
  Reset: none. -/
  undef : List (Nat × Nat)
  /-- Poisoned 64-byte blocks, by rising block number (R344). Reset: none. -/
  poison : List Nat
  /-- Times of the corrections of the last 24 hours in a 4 KiB Tilth row since its repair (R386). Reset: none. -/
  rowErrors : Tbl (List Nat)
  /-- Times of the corrections of the last 24 hours in an HBM row (R386). Reset: none. -/
  hbmRowErrors : Tbl (List Nat)
  /-- Sizes of the reserved areas (R338). -/
  layout : Layout
  /-- Scrub period of HBM in s (R346). Reset 86,400. -/
  hbmPeriod : Nat
  /-- Scrub period of Tilth in s (R346). Reset 3,600. -/
  tilthPeriod : Nat
  /-- Next block the scrub reads in HBM, as a count of populated blocks (R346). Reset 0. -/
  hbmCursor : Nat
  /-- Next block the scrub reads in Tilth (R346). Reset 0. -/
  tilthCursor : Nat
  /-- CORRECTED of stacks 0 to 3 and dies 0 and 1 (as 4 and 5) (R356). Reset 0. -/
  corrected : Tbl Nat
  /-- UNCORRECTABLE of the same (R356). Reset 0. POISONED is the count of poisoned blocks. -/
  uncorrectable : Tbl Nat
  /-- Start of the present scrub pass (R356). Reset 0. -/
  passStart : Tbl Nat
  /-- PASS_MS of the last pass (R356). Reset 0. -/
  passMs : Tbl Nat
  /-- Retired Tilth granules (out of the pool), as addresses / 64 KiB (R391). Reset: none. -/
  retired : List Nat
  /-- Fallow Tilth granules, as addresses / 64 KiB (R391). Reset: none. -/
  fallow : List Nat
  /-- Lost 2 MiB HBM granules (R392). Reset: none. -/
  hbmLost : List Nat
  /-- Fallow 2 MiB HBM granules (R392). Reset: none. -/
  hbmFallow : List Nat
  /-- The Tilth repair map, in MRAM: by furrow, the 4 KiB row that each repair row used replaces, in the order they were drawn (R386,
  R387). Reset: none. -/
  tilthRows : Tbl (List Nat)
  /-- The HBM repair map: by bank, the row that each spare row used replaces (R386, R387). Reset: none. -/
  hbmRows : Tbl (List Nat)
  /-- Channels mapped out per stack, as masks of 32 (R392). Reset: none. -/
  channelsOut : Tbl (List Nat)
  /-- Stacks whose rehash is in progress (R392). Reset: none. -/
  rehashing : List Nat
  deriving DecidableEq, Repr

/-- Memory at reset. -/
def MemSt.reset : MemSt where
  bytes := []
  undef := []
  poison := []
  rowErrors := []
  hbmRowErrors := []
  layout := Layout.reset
  hbmPeriod := 86400
  tilthPeriod := 3600
  hbmCursor := 0
  tilthCursor := 0
  corrected := []
  uncorrectable := []
  passStart := []
  passMs := []
  retired := []
  fallow := []
  hbmLost := []
  hbmFallow := []
  tilthRows := []
  hbmRows := []
  channelsOut := []
  rehashing := []

/-- The tine array (R290 to R294, R311, R332, R388). -/
structure TineArray where
  /-- Local stores: address tine × 32 KiB + byte, tine = (furrow × 16 + core) × 16 + logical tine (R291). Reset zeros (R417). -/
  localStore : Mem
  /-- Exchange buffers: address core × 64 KiB + byte (R291). Reset zeros (R417). -/
  exchange : Mem
  /-- Ranges (address, length) of local stores whose bytes are undefined: where a load put code and weights (R316). Reset:
  none. -/
  undef : List (Nat × Nat)
  /-- Flag words by tine (R311). Reset 0. -/
  flags : Tbl Word32
  /-- Cores whose spare is drawn: core to the logical tine it replaced (R388). Reset: none. -/
  drawn : Tbl Nat
  /-- Tines out of service per core (R389). Reset: none. -/
  lost : Tbl Nat
  /-- Times of the corrected local-store errors of the last 24 hours, by tine (R386). Reset: none. -/
  storeErrors : Tbl (List Nat)
  /-- Furrows whose 16 cores were made fallow by a skipped test (R406). Reset: none. -/
  skipped : List Nat
  /-- Warm furrows (R332). Reset: none. -/
  warm : List Nat
  /-- Furrow clocks lowered, in per mille of 1.25 GHz; an absent furrow runs at 1,000 (R294, R454, R457). Reset: none. -/
  clock : Tbl Nat
  /-- Exchange-buffer bytes written since their core's last barrier: what each held at the barrier, and the tine that wrote it (R292).
  Reset: none. -/
  fresh : Tbl (Byte × Nat)
  /-- Programs whose runs wait for the governor to grant their cold furrows, in the order of their requests (R332). Reset: none. -/
  ramps : List Nat
  /-- Ranges (address, length) of exchange buffers whose bytes are undefined: a run was ended there (R19, R326). Reset: none. -/
  exUndef : List (Nat × Nat)
  /-- Module time at which the last run on a warm furrow ended (R332). Reset: none. -/
  ranAt : Tbl Nat
  deriving DecidableEq, Repr

/-- The tine array at reset. -/
def TineArray.reset : TineArray := ⟨[], [], [], [], [], [], [], [], [], [], [], [], [], []⟩

/-! ### Firmware, boot, faults, trace, power (R406 to R448, R449 to R464) -/

/-- FW_STATE (R35). -/
inductive FwState where
  | booting | running | restarting | safeMode
  deriving DecidableEq, Repr

/-- A boot-log record (R407). -/
structure BootRec where
  /-- BOOT (R407). -/
  boot : Nat
  /-- STEP (R407). -/
  step : Nat
  /-- UNIT (R407). -/
  unit : Nat
  /-- METHOD (R407). -/
  method : Nat
  /-- RESULT (R407). -/
  result : Nat
  /-- FAIL_COUNT (R407, R408). -/
  failCount : Nat
  /-- TIME_MS (R407). -/
  timeMs : Nat
  deriving DecidableEq, Repr

/-- An image slot (R422, R428). -/
structure ImageSlot where
  /-- 0 EMPTY, 1 VALID, 2 INVALID (R428). -/
  state : Nat
  /-- Security version (R422, R423). -/
  securityVersion : Nat
  /-- Firmware version (R422). -/
  fwVersion : Word32
  /-- Same firmware-store format as the running image (R423). -/
  sameFormat : Bool
  deriving DecidableEq, Repr

/-- A fault record or marker (R439). -/
structure FaultRec where
  /-- TIME (R439). -/
  time : Nat
  /-- SEQ (R438, R439). -/
  seq : Nat
  /-- CLASS (R439). -/
  cls : Nat
  /-- CODE (R439). -/
  code : Nat
  /-- FUNC (R439). -/
  func : Nat
  /-- OBJECT (R439). -/
  object : Nat
  /-- DETAIL (R439). -/
  detail : Nat
  /-- ADDRESS (R439). -/
  address : Nat
  deriving DecidableEq, Repr

/-- A trace record (R434). -/
structure TraceRec where
  /-- TIME (R434). -/
  time : Nat
  /-- KIND (R433, R434). -/
  kind : Nat
  /-- DIE (R434). -/
  die : Nat
  /-- FUNC (R434). -/
  func : Nat
  /-- OBJECT (R434). -/
  object : Nat
  /-- OTHER (R434). -/
  other : Nat
  /-- VALUE (R434). -/
  value : Nat
  /-- WAIT_NS (R433, R434). -/
  waitNs : Nat
  deriving DecidableEq, Repr

/-- Trace states (R436). -/
inductive TraceState where
  | idle | active | triggered | stopped
  deriving DecidableEq, Repr

/-- The synchronisation trace (R433 to R437, R448). -/
structure Trace where
  /-- State (R436). Reset IDLE. -/
  state : TraceState
  /-- WRAP (R436, R448). -/
  wrap : Bool
  /-- PRE_PERCENT (R436, R448). -/
  prePercent : Nat
  /-- STOP_ON_TRIGGER (R437, R448). -/
  stopOnTrigger : Bool
  /-- KIND_MASK (R435, R448). -/
  kindMask : Word32
  /-- FUNC filter, 0xFFFF for all (R435, R448). -/
  func : Nat
  /-- Trigger kind (R437, R448). -/
  trigKind : Nat
  /-- Fault class of the trigger (R437, R448). -/
  trigFaultClass : Nat
  /-- Object of the trigger, 0xFFFF_FFFF for any (R437, R448). -/
  trigObject : Nat
  /-- Triggers ignored (R437). Reset 0. -/
  ignored : Nat
  /-- The trigger recorded in slot 0 since START (R437). Reset none. -/
  slot0 : Option TraceRec
  /-- Die 0: records oldest first, with slot numbers (R434). Reset: none. -/
  recs0 : Tbl TraceRec
  /-- Die 1: records oldest first, with slot numbers (R434). Reset: none. -/
  recs1 : Tbl TraceRec
  /-- Records written, by die (R448). Reset 0. -/
  written : List Nat
  /-- Records dropped, by die (R435, R448). Reset 0. -/
  dropped : List Nat
  /-- Next slot, by die (R434). Reset 1: slot 0 is the trigger's. -/
  nextSlot : List Nat
  /-- Records still to be kept after the trigger, by die (R436). Reset 0. -/
  post : List Nat
  /-- Drops not yet marked, by die (R435). Reset 0. -/
  toMark : List Nat
  /-- Token bucket per die, in records (R435). Reset 4,096. -/
  tokens : List Nat
  /-- When the buckets were last filled (R435). Reset 0. -/
  tokensAt : Nat
  deriving DecidableEq, Repr

/-- The trace at reset. -/
def Trace.reset : Trace :=
  ⟨.idle, false, 0, false, 0, 0xFFFF, 0, 0, 0xFFFFFFFF, 0, none, [], [], [0, 0], [0, 0], [1, 1], [0, 0], [0, 0],
   [4096, 4096], 0⟩

/-- Life-cycle and image state held in MRAM (R422 to R427). -/
structure Mram where
  /-- Boot log, newest last (R407). Reset: empty, DESIGN CHOICE (log entry 9). -/
  bootLog : List BootRec
  /-- Number of the boot (R407). Reset 0, DESIGN CHOICE (log entry 9). -/
  bootNo : Nat
  /-- FAIL_COUNT by step × 256 + unit (R408). Reset: all 0, DESIGN CHOICE (log entry 9). -/
  failCount : Tbl Nat
  /-- Steps that run by their other method (R408). Reset: none, DESIGN CHOICE (log entry 9). -/
  altMethod : List Nat
  /-- Fault records kept over resets, newest last (R438). Reset: empty, DESIGN CHOICE (log entry 9). -/
  faultLog : List FaultRec
  /-- NEXT image slot (R422). Reset 0, DESIGN CHOICE (log entry 9). -/
  next : Nat
  /-- MIN_VERSION (R422, R423). Reset 0, DESIGN CHOICE (log entry 9). -/
  minVersion : Nat
  /-- Image slot 0 (R422). Reset VALID, version 0x0100_0000, security version 0, DESIGN CHOICE (log entry 9). -/
  slot0 : ImageSlot
  /-- Image slot 1 (R422). Reset as slot 0, DESIGN CHOICE (log entry 9). -/
  slot1 : ImageSlot
  /-- Life-cycle state code (R424). Reset 2 DEPLOYED, DESIGN CHOICE (log entry 9). -/
  lc : Nat
  /-- Transitions made (R427). Reset 0, DESIGN CHOICE (log entry 9). -/
  transitions : Nat
  /-- Owner key hash, 48 bytes (R427). Reset: zeros, DESIGN CHOICE (log entry 9). -/
  ownerHash : Bytes
  /-- Intent record of a transition (R427). Reset none, DESIGN CHOICE (log entry 9). -/
  intent : Option (Nat × Bytes)
  /-- The fused seed has been destroyed (R427). Reset false, DESIGN CHOICE (log entry 9). -/
  seedGone : Bool
  /-- SHUTDOWN_CAUSE, 8 bits (R458, R462). Reset 0, DESIGN CHOICE (log entry 9). -/
  shutdownCause : Byte
  deriving DecidableEq, Repr

/-- MRAM of a new module: DESIGN CHOICE (log entry 9). -/
def Mram.reset : Mram where
  bootLog := []
  bootNo := 0
  failCount := []
  altMethod := []
  faultLog := []
  next := 0
  minVersion := 0
  slot0 := ⟨1, 0, 0x01000000, true⟩
  slot1 := ⟨1, 0, 0x01000000, true⟩
  lc := 2
  transitions := 0
  ownerHash := List.replicate 48 0
  intent := none
  seedGone := false
  shutdownCause := 0

/-- Power, thermal and pin state (R399 to R404, R449 to R464). -/
structure Power where
  /-- Input present (R450). Reset false. -/
  input : Bool
  /-- PWR_GOOD (R459). Reset false: the pin has a pull-down. -/
  good : Bool
  /-- Booted through step 11, or in safe mode: clocks run (R406). Reset false. -/
  on : Bool
  /-- The power-loss flush is in progress (R401). Reset false. -/
  flushing : Bool
  /-- The flush is that of a shutdown (R458). Reset false. -/
  shutdown : Bool
  /-- The module stays off until PWR_GOOD is asserted anew (R458). Reset false. -/
  latched : Bool
  /-- HOLDUP_MJ at the last measurement (R404). Reset 0, DESIGN CHOICE (log entry 9). -/
  holdupMj : Nat
  /-- HOLDUP is fallow (R404). Reset false. -/
  holdupFallow : Bool
  /-- The last sample (R454). Reset 0, DESIGN CHOICE (log entry 43). -/
  reading : PowerReading
  /-- The last temperatures (R456). Reset: none read, DESIGN CHOICE (log entry 43). -/
  temps : Temps
  /-- Module time of the last sample (R453). Reset 0, DESIGN CHOICE (the model's own, log entry 44). -/
  sampledAt : Nat
  /-- Governor stage in force (R454). Reset 0. -/
  stage : Nat
  /-- Time of the first sample above 750 W (R454). Reset none. -/
  overSince : Option Nat
  /-- Time since which samples stay at or below 700 W (R454). Reset none. -/
  underSince : Option Nat
  /-- Engine rate in per cent (R454). Reset 100. -/
  engineRate : Nat
  /-- Module time of the last step of the engine rate (R454). Reset 0, DESIGN CHOICE (the model's own, log entry 44). -/
  engineAt : Nat
  /-- The input powers sampled over the last 1 ms, in 0.1 W, oldest first (R454, R462). Reset: none. -/
  pins : List Nat
  /-- Furrows throttled, with the part of their clock that throttling holds, in per mille (R457). Reset: none. -/
  throttled : Tbl Nat
  /-- Stacks with doubled refresh (R457). Reset: none. -/
  hotStacks : List Nat
  /-- Optics above their limit (R457). Reset false. -/
  opticsHot : Bool
  /-- REF_LOCKED (R461). Reset false. -/
  refLocked : Bool
  /-- FREEZE# held low (R445). Reset false. -/
  freezeLow : Bool
  /-- Boot step 11 has ended (R406, R459). Reset false. -/
  served : Bool
  deriving DecidableEq, Repr

/-- Power state at reset: before the input appears. -/
def Power.reset : Power where
  input := false
  good := false
  on := false
  flushing := false
  shutdown := false
  latched := false
  holdupMj := 0
  holdupFallow := false
  reading := ⟨0, 0, 0, 0⟩
  temps := ⟨[], [], [], 0⟩
  sampledAt := 0
  stage := 0
  overSince := none
  underSince := none
  engineRate := 100
  engineAt := 0
  pins := []
  throttled := []
  hotStacks := []
  opticsHot := false
  refLocked := false
  freezeLow := false
  served := false

/-- Global stop (R445 to R447). -/
structure Stop where
  /-- The global stop is in force (R445). Reset false. -/
  stopped : Bool
  /-- FREEZE# holds it (R445). Reset false. -/
  byPin : Bool
  /-- Module time of the stop at the root (R446, R447). Reset 0. -/
  rootTime : Nat
  /-- Module time latched at the reference (R447). Reset 0. -/
  refTime : Nat
  /-- REF_COUNT latched per domain, in the order of R361 (R447). Reset: none. -/
  refCounts : List Nat
  /-- COUNT latched per domain at the stop (R447). Reset: none. -/
  counts : List Nat
  deriving DecidableEq, Repr

/-! ### The on-module fabric (R357 to R363) -/

/-- A unit with an endpoint on the fabric (R361, R362): channel 0 to 127 of the HBM stacks, furrow 0 to 39, Tilth tier 0 to 3. -/
inductive FabUnit where
  | portMac (ph : PhysId)
  | hbm (channel : Nat)
  | furrow (n : Nat)
  | tilth (tier : Nat)
  | transport (d : DieId)
  | cipher (d : DieId)
  | collective (d : DieId)
  | copy (d : DieId)
  | link (l : LinkId)
  | headland
  deriving DecidableEq, Repr

/-- The channels of R357. -/
inductive FabChan where
  | creq | crsp | dreq | drsp
  deriving DecidableEq, Repr

/-- An output of a router: one of its four neighbours, or the endpoint there. -/
inductive FabOut where
  | west | east | north | south | exit
  deriving DecidableEq, Repr

/-- A packet on the fabric (R357). -/
structure FabPacket where
  /-- Endpoint that sent it (R359). -/
  src : FabUnit
  /-- Endpoint it goes to (R359). -/
  dst : FabUnit
  /-- Channel (R357). -/
  chan : FabChan
  /-- Its bytes, header and contents (R357). -/
  bytes : Nat
  /-- Bytes of it that have crossed the router link it is on (R357). -/
  crossed : Nat
  deriving DecidableEq, Repr

/-- The queues between a unit and the fabric for one channel (R362, R363). -/
structure FabCross where
  /-- The unit (R362). -/
  unit : FabUnit
  /-- The channel (R357). -/
  chan : FabChan
  /-- Packets whose writer waits for room (R360, R363). -/
  wait : List FabPacket
  /-- The crossing queue into the fabric (R362). -/
  toFab : List FabPacket
  /-- The crossing queue out of the fabric (R362). -/
  fromFab : List FabPacket
  deriving DecidableEq, Repr

/-- A router's buffer before one of its outputs, for one channel (R357). -/
structure FabBuf where
  /-- Die of the router (R357). -/
  die : Nat
  /-- Column of the router, rising to the east. -/
  x : Nat
  /-- Row of the router. -/
  y : Nat
  /-- The output the packets wait for. -/
  out : FabOut
  /-- The channel (R357). -/
  chan : FabChan
  /-- The packets, oldest first. -/
  packets : List FabPacket
  deriving DecidableEq, Repr

/-- A flow with a packet in flight: its route stays fixed (R359). -/
structure FabFlow where
  /-- Source endpoint (R359). -/
  src : FabUnit
  /-- Destination endpoint (R359). -/
  dst : FabUnit
  /-- Channel (R359). -/
  chan : FabChan
  /-- Packets of it in the fabric. -/
  inFlight : Nat
  /-- The output chosen at each router it has passed: (die, column, row) and output. -/
  route : List ((Nat × Nat × Nat) × FabOut)
  deriving DecidableEq, Repr

/-- The fabric of both field dies and the die-to-die link between them. -/
structure Fabric where
  /-- Crossing queues that hold a packet (R362). Reset: none. -/
  crosses : List FabCross
  /-- Router buffers that hold a packet (R357). Reset: none. -/
  bufs : List FabBuf
  /-- Flows with a packet in flight (R359). Reset: none. -/
  flows : List FabFlow
  /-- Packets on the die-to-die link, by the die they leave, with the module time at which they have crossed (R360). Reset: none. -/
  between : List (Nat × FabPacket × Nat)
  /-- Control flits by die (R432). Reset 0. -/
  control : List Nat
  /-- Data flits by die (R432). Reset 0. -/
  data : List Nat
  /-- Peak bytes that a router link of each die carried in 1 ns since the last read (R432). Reset 0. -/
  peak : List Nat
  /-- Bytes that crossed the die-to-die link from each die (R432). Reset 0. -/
  d2d : List Nat
  deriving DecidableEq, Repr

/-- The fabric at reset: empty. -/
def Fabric.reset : Fabric := ⟨[], [], [], [], [0, 0], [0, 0], [0, 0], [0, 0]⟩

/-- What the module puts out on its links, fibres and pins (the model's own record of outputs, log entry 3). -/
inductive Emit where
  /-- A memory write TLP, with relaxed ordering or not, of the Translated address type or not (R71, R89, R91). -/
  | memWrite (l : LinkId) (f : FuncId) (addr : Nat) (data : Bytes) (ro : Bool) (translated : Bool)
  /-- A memory read TLP of the Translated address type, or Untranslated (R89, R91). -/
  | memRead (l : LinkId) (f : FuncId) (x : Nat) (addr len : Nat) (translated : Bool)
  | flushRead (l : LinkId) (f : FuncId) (id : Nat) (addr : Nat)
  | msix (f : FuncId) (vector : Nat) (addr : Word64) (data : Word32)
  /-- The data of a register, BAR2 or SMBus read; `ep` marks poisoned data (R345). -/
  | readData (f : FuncId) (data : Bytes) (ep : Bool)
  | translationRequest (l : LinkId) (f : FuncId) (x pasid page : Nat)
  | pageRequest (l : LinkId) (f : FuncId) (x pasid page : Nat)
  | invalidateCompletion (l : LinkId) (f : FuncId)
  | l1Request (l : LinkId)
  /-- A frame's, or a fragment's, first bit leaves. -/
  | frame (p : LPort) (fr : TxFrame) (badFcs : Bool)
  /-- A frame ended with an inverted frame check sequence (R28). -/
  | abort (p : LPort)
  | pause (p : LPort) (quanta : BitVec 16)
  | pfc (p : LPort) (cls : ClassId) (quanta : BitVec 16)
  | verify (p : LPort)
  | respond (p : LPort)
  | smbus (data : Bytes)
  | smbusNak
  | ppsOut (time : Nat)
  deriving DecidableEq, Repr

/-- The whole module. -/
structure State where
  /-- Commands waiting, first in, first out (the block's queue, log entry 1). Reset: empty. -/
  pending : List Instr
  /-- Module time in ns (R64). Reset 0. -/
  time : Nat
  /-- PTP time in ns (R250, R251). Reset 0. -/
  ptp : Nat
  /-- Fraction of PTP time in 2^−64 ns (R250). Reset 0. -/
  ptpFrac : Nat
  /-- PTP frequency offset in 2^−16 ppb (R250). Reset 0. -/
  ptpFreq : Int
  /-- PPS_IN stamp (R251, R460). Reset 0. -/
  ppsIn : Nat
  /-- When that edge was accepted (R460). Reset none. -/
  ppsInAt : Option Nat
  /-- Last PPS_OUT edge (R251, R459). Reset none. -/
  ppsOutAt : Option Nat
  /-- Functions by number; an absent one is `Func.reset` (R375). -/
  funcs : Tbl Func
  /-- Function holding the manager role (R373). Reset 0. -/
  manager : FuncId
  /-- FW_STATE (R35). Reset BOOTING. -/
  fw : FwState
  /-- RESTART_GEN, 16 bits (R35). Reset 0. -/
  restartGen : BitVec 16
  /-- Cause and start of the restart in progress, and image to run after it (R414). Reset none. -/
  restart : Option (Nat × Nat × Nat)
  /-- Image running (R428). Reset 0, DESIGN CHOICE (log entry 9). -/
  image : Nat
  /-- The boot steps hold the module in safe mode (R410, R411): a firmware restart does not leave it. Reset false. -/
  safeHeld : Bool
  /-- GO order of the next post (R41). Reset 0, DESIGN CHOICE (the model's own, log entry 44). -/
  goNext : Nat
  /-- A module reset starts at this module time (R413). Reset none. -/
  resetAt : Option Nat
  /-- DEGRADED (R396). Reset 0. -/
  degraded : Bool
  /-- FALLOW_STATE (R420). Reset 0. -/
  fallow : Bool
  /-- The life-cycle challenge in force (R427). Reset none. -/
  nonce : Option Bytes
  /-- MRAM: logs, images, life cycle (R407, R422 to R427). -/
  mram : Mram
  /-- PCIe links by number (R59). -/
  links : Tbl Link
  /-- Live regions by slot (R84). Reset: none. -/
  regions : Tbl Region
  /-- GEN by slot; an absent slot is 0 (R85). Reset: all 0, DESIGN CHOICE (log entry 10). -/
  gens : Tbl Nat
  /-- Region slots to assign (R85). Reset: lowest 1. -/
  regionSeries : Series
  /-- Path states of functions (R73). Reset: none. -/
  paths : List PathState
  /-- Connections by number (R136). Reset: none. -/
  conns : Tbl Conn
  /-- Connection numbers to assign (R136). Reset: lowest 1. -/
  connSeries : Series
  /-- Key handles (R201). Reset: none. -/
  keys : Tbl Key
  /-- Key handles to assign (R201, R467). Reset: lowest 1. -/
  keySeries : Series
  /-- Transfers outstanding (R86). Reset: none. -/
  xfers : Tbl Xfer
  /-- Flush reads outstanding (R71). Reset: none. -/
  flushes : Tbl Flush
  /-- Translation and page requests outstanding (R89, R90). Reset: none. -/
  xlates : Tbl XlateReq
  /-- Invalidations outstanding (R93). Reset: none. -/
  invals : Tbl Inval
  /-- Pages (function, PASID, page) whose request failed after a peer's frame there was refused: the peer's retry gets a remote access
  error (R90). Reset: none. -/
  pageFails : List (FuncId × Nat × Nat)
  /-- Number of the next transfer, flush, request or invalidation (the model's own, log entry 44). Reset 0. -/
  nextId : Nat
  /-- Ended transfers whose consequences the present step still has to draw: the model's own, empty between steps (log entry 44). Reset:
  empty. -/
  agenda : List (Purpose × XResult)
  /-- Accesses, completions and frames that arrived during a global stop, oldest first, each with the PTP time of its arrival (R250,
  R445). Reset: none. -/
  held : List (Nat × Nat × Instr)
  /-- PTP time of arrival, in ns and 2^-64 ns, of a frame that takes effect later than it arrived: the model's own, none between steps
  (R250, log entry 44). Reset: none. -/
  rxAt : Option (Nat × Nat)
  /-- Logical ports by number (R228). -/
  ports : Tbl PortSt
  /-- Physical ports by number (R228). -/
  phys : Tbl PhysSt
  /-- Native UDP port, 16 bits (R255). Reset 50,722. -/
  nativePort : BitVec 16
  /-- Policers by number (R218). Reset: none. -/
  policers : Tbl Policer
  /-- Policer numbers to assign (R467). Reset: lowest 0. -/
  policerSeries : Series
  /-- The on-module fabric (R357 to R363). -/
  fabric : Fabric
  /-- Relay state (R364). -/
  relay : Relay
  /-- Programs by number (R316). Reset: none. -/
  progs : Tbl Prog
  /-- Program numbers to assign (R467). Reset: lowest 1. -/
  progSeries : Series
  /-- HBM, Tilth and their protection (R335). -/
  mem : MemSt
  /-- The tine array (R290). -/
  tines : TineArray
  /-- Last ring served by each die's arbiter (R110). Reset 0. -/
  lastRing : Tbl Nat
  /-- Refills made by each die's arbiter (R110). Reset 0. -/
  refills : Tbl Nat
  /-- The fault queue (R438). Reset: empty. -/
  faults : List FaultRec
  /-- SEQ of the next fault (R438). Reset 0. -/
  faultSeq : Nat
  /-- Faults counted by class (R438). Reset 0. -/
  faultSummary : Tbl Nat
  /-- The synchronisation trace (R433). -/
  trace : Trace
  /-- Module-wide counters by group × 1,024 + index (R432). Reset 0. -/
  globals : Tbl Nat
  /-- Global stop (R445). -/
  stop : Stop
  /-- Power, temperatures and pins (R450). -/
  power : Power
  /-- Counters of the clock domains in 10^-6 cycles, in the order of R361 (R362, R447). Reset 0, DESIGN CHOICE (log entry 159). -/
  clocks : List Nat
  /-- Completion entries of runs that ended at step 7 with their program's unload: (function, completion ring, entry), oldest first (R117,
  R334). Reset: none. -/
  owed : List (FuncId × Nat × Cqe)
  /-- Module time that had passed before module time last began at 0: the model's own, for the 24 hours of R386 (log entry 120). Reset 0,
  DESIGN CHOICE (log entry 120). -/
  past : Nat
  /-- NAK_CLOSED sent per source: (address, connection, until) (R189). Reset: none. -/
  closed : List (Nat × Nat × Nat)
  /-- How many free values the machine has used: the model's own (log entry 2). Reset 0, DESIGN CHOICE (log entry 2). -/
  free : Nat
  /-- What the module has put out, oldest first: the model's own (log entry 3). Reset: nothing, DESIGN CHOICE (log entry 3). -/
  out : List Emit
  deriving DecidableEq, Repr

/-- Why a step faults. No meaning of this model faults: every row of the table has an effect in every state. -/
inductive Fault where
  /-- Raised by nothing: safe. -/
  | none
  deriving DecidableEq, Repr

/-- Why a step refuses. -/
inductive Refusal where
  /-- Raised by an arm of exec whose command has no meaning yet: safe. -/
  | notModelled (mnemonic : String)
  deriving DecidableEq, Repr

/-- The outcome of a meaning. -/
abbrev Out := Host.Outcome State Fault Refusal

/-- The machine right after reset: input not yet present, firmware BOOTING, physical function 0 of link 0 the manager. -/
def State.reset : State where
  pending := []
  time := 0
  ptp := 0
  ptpFrac := 0
  ptpFreq := 0
  ppsIn := 0
  ppsInAt := none
  ppsOutAt := none
  funcs := []
  manager := 0
  fw := .booting
  restartGen := 0
  restart := none
  image := 0
  safeHeld := false
  goNext := 0
  resetAt := none
  degraded := false
  fallow := false
  nonce := none
  mram := Mram.reset
  links := []
  regions := []
  gens := []
  regionSeries := Series.from 1
  paths := []
  conns := []
  connSeries := Series.from 1
  keys := []
  keySeries := Series.from 1
  xfers := []
  flushes := []
  xlates := []
  invals := []
  pageFails := []
  nextId := 0
  agenda := []
  held := []
  rxAt := none
  ports := []
  phys := []
  nativePort := 50722
  policers := []
  policerSeries := Series.from 0
  fabric := Fabric.reset
  relay := Relay.reset
  progs := []
  progSeries := Series.from 1
  mem := MemSt.reset
  tines := TineArray.reset
  lastRing := []
  refills := []
  faults := []
  faultSeq := 0
  faultSummary := []
  trace := Trace.reset
  globals := []
  stop := ⟨false, false, 0, 0, [], []⟩
  power := Power.reset
  clocks := []
  owed := []
  past := 0
  closed := []
  free := 0
  out := []

end Sys2Proof.Machine
end

