-- ==== Sys2Proof/Machine/Table.lean ====
section
/-! DEFINITION. Machine/Table.lean: the operations over finite maps by number, over sparse byte memories and over rising
lists of numbers. -/

namespace Sys2Proof.Machine

variable {α : Type}

/-- The value at key `k`. -/
def tget (t : Tbl α) (k : Nat) : Option α :=
  match t with
  | [] => none
  | (j, v) :: r => if j = k then some v else tget r k

/-- The map with `v` at key `k`; the keys keep rising. -/
def tset (t : Tbl α) (k : Nat) (v : α) : Tbl α :=
  match t with
  | [] => [(k, v)]
  | (j, w) :: r => if k < j then (k, v) :: (j, w) :: r else if k = j then (k, v) :: r else (j, w) :: tset r k v

/-- The map without key `k`. -/
def tdel (t : Tbl α) (k : Nat) : Tbl α :=
  match t with
  | [] => []
  | (j, w) :: r => if j = k then r else (j, w) :: tdel r k

/-- The map with the value at `k` changed, unchanged where `k` is absent. -/
def tmod (t : Tbl α) (k : Nat) (g : α → α) : Tbl α :=
  match tget t k with
  | some v => tset t k (g v)
  | none => t

/-- Whether key `k` is present. -/
def thas (t : Tbl α) (k : Nat) : Bool := (tget t k).isSome

/-- The value at `k`, or `d`. -/
def tgetD (t : Tbl α) (k : Nat) (d : α) : α := (tget t k).getD d

/-- The values, in order of key. -/
def tvals (t : Tbl α) : List α := t.map Prod.snd

/-- The keys, rising. -/
def tkeys (t : Tbl α) : List Nat := t.map Prod.fst

/-- Whether the keys rise strictly. -/
def tsorted (t : Tbl α) : Bool :=
  match t with
  | [] => true
  | (j, _) :: r => (match r with | [] => true | (k, _) :: _ => decide (j < k)) && tsorted r

/-! ### Rising lists of numbers -/

/-- Adds a number to a rising list. -/
def linsert (l : List Nat) (n : Nat) : List Nat :=
  match l with
  | [] => [n]
  | j :: r => if n < j then n :: j :: r else if n = j then j :: r else j :: linsert r n

/-- Takes a number out of a list. -/
def lerase (l : List Nat) (n : Nat) : List Nat := l.filter (fun j => j != n)

/-- The numbers from `a`, `n` of them. -/
def lrange (a n : Nat) : List Nat := (List.range n).map (fun i => a + i)

/-- Adds `n` numbers from `a` to a rising list. -/
def linsertRange (l : List Nat) (a n : Nat) : List Nat := (lrange a n).foldl linsert l

/-- Takes `n` numbers from `a` out of a list. -/
def leraseRange (l : List Nat) (a n : Nat) : List Nat := l.filter (fun j => !(decide (a ≤ j) && decide (j < a + n)))

/-! ### Sparse byte memories -/

/-- The byte at `a`; an unlisted address reads 0 (R417). -/
def mget (m : Mem) (a : Nat) : Byte := (tget m a).getD 0

/-- The memory with byte `b` at `a`, kept canonical: a zero is not listed. -/
def mset (m : Mem) (a : Nat) (b : Byte) : Mem := if b = 0 then tdel m a else tset m a b

/-- `n` bytes from `a`. -/
def mread (m : Mem) (a n : Nat) : Bytes := (List.range n).map (fun i => mget m (a + i))

/-- The memory with `bs` written from `a`. -/
def mwrite (m : Mem) (a : Nat) (bs : Bytes) : Mem :=
  match bs with
  | [] => m
  | b :: r => mwrite (mset m a b) (a + 1) r

/-- The memory with `n` bytes from `a` zeroed. -/
def mzero (m : Mem) (a n : Nat) : Mem := m.filter (fun c => !(decide (a ≤ c.1) && decide (c.1 < a + n)))

/-- The canonical form: addresses rise strictly and no listed byte is 0. -/
def Memory.wf (m : Mem) : Bool := tsorted m && m.all (fun c => c.2 != 0)

/-! ### Number series (R85, R136, R467) -/

/-- Takes the next number below `limit`: one never used, lowest first; when none is left, the oldest freed. -/
def Series.take (q : Series) (limit : Nat) : Option (Nat × Series) :=
  if q.next < limit then some (q.next, { q with next := q.next + 1 })
  else match q.freed with
    | [] => none
    | n :: r => some (n, { q with freed := r })

/-- Gives a number back. -/
def Series.give (q : Series) (n : Nat) : Series := { q with freed := q.freed ++ [n] }

end Sys2Proof.Machine
end

