-- ==== Sys2Proof/Machine/Bits.lean ====
section
/-! DEFINITION. Machine/Bits.lean: bit fields and byte orders (R7, R8). -/

namespace Sys2Proof.Machine

/-- Bits `hi` down to `lo` of `n` (R7). -/
def bits (n hi lo : Nat) : Nat := n / 2 ^ lo % 2 ^ (hi + 1 - lo)

/-- Bit `i` of `n`. -/
def bit (n i : Nat) : Bool := n / 2 ^ i % 2 == 1

/-- 1 for true. -/
def b2n (b : Bool) : Nat := if b then 1 else 0

/-- The number that bytes hold in little-endian order (R8). -/
def leNat (bs : Bytes) : Nat :=
  match bs with
  | [] => 0
  | b :: r => b.toNat + 256 * leNat r

/-- `w` bytes of `n`, little-endian (R8). -/
def leBytes (w n : Nat) : Bytes :=
  match w with
  | 0 => []
  | k + 1 => BitVec.ofNat 8 n :: leBytes k (n / 256)

/-- The number that bytes hold in big-endian order (R8). -/
def beNat (bs : Bytes) : Nat := leNat bs.reverse

/-- `w` bytes of `n`, big-endian (R8). -/
def beBytes (w n : Nat) : Bytes := (leBytes w n).reverse

/-- `w` bytes at `off` of `bs`, as a little-endian number; bytes beyond the end read 0. -/
def leAt (bs : Bytes) (off w : Nat) : Nat := leNat ((bs.drop off).take w)

/-- Zero bytes. -/
def zeros (n : Nat) : Bytes := List.replicate n 0

/-- `bs` cut or padded with zeros to `n` bytes. -/
def fit (n : Nat) (bs : Bytes) : Bytes := (bs ++ zeros (n - bs.length)).take n

/-- `bs` with `src` laid over it from `off`. -/
def overlay (bs : Bytes) (off : Nat) (src : Bytes) : Bytes :=
  bs.take off ++ src ++ bs.drop (off + src.length)

/-- The smallest multiple of `m` at or above `n`. -/
def roundUp (n m : Nat) : Nat := (n + m - 1) / m * m

/-- Quotient rounded up. -/
def ceilDiv (n m : Nat) : Nat := (n + m - 1) / m

/-- Distance from `b` up to `a` modulo 2^32 (R174). -/
def dist32 (a b : Nat) : Nat := (a + 2 ^ 32 - b % 2 ^ 32) % 2 ^ 32

/-- `a` plus `n` modulo 2^32. -/
def add32 (a n : Nat) : Nat := (a + n) % 2 ^ 32

/-- ASCII text as bytes. -/
def ascii (t : String) : Bytes := t.toList.map (fun c => BitVec.ofNat 8 c.toNat)

/-- The zero-padded 64-byte part of an event record: 48 bytes (R49). -/
def payload48 (bs : Bytes) : Bytes := fit 48 bs

/-- Whether an offset or address lies in one of the ranges. -/
def inRanges (l : List (Nat × Nat)) (a : Nat) : Bool := l.any (fun r => decide (r.1 ≤ a) && decide (a < r.1 + r.2))

/-- The ranges with [a, a + n) taken out. -/
def cutRanges (l : List (Nat × Nat)) (a n : Nat) : List (Nat × Nat) :=
  (l.map (fun r =>
    [(r.1, min (r.1 + r.2) a - r.1), (max r.1 (a + n), (r.1 + r.2) - max r.1 (a + n))])).flatten.filter
    (fun r => decide (0 < r.2))

end Sys2Proof.Machine
end

