-- ==== Sys2Proof/Machine/Crypto.lean ====
section
/-! DEFINITION. Machine/Crypto.lean: the published algorithms the manual names: AES-256 with GCM (R125, R199) and XTS
(R351), CRC-64/XZ (R281), Philox4x32-10 (R274, R308) and SHA-384 (R422, R428). -/

namespace Sys2Proof.Machine

/-! ### AES-256 (FIPS 197) -/

/-- Product by x in GF(2^8) modulo x^8 + x^4 + x^3 + x + 1. -/
def xtime (a : Nat) : Nat := if a ≥ 128 then (2 * a - 256) ^^^ 0x1B else 2 * a

/-- Product in GF(2^8). -/
def gmul (a b : Nat) : Nat :=
  ((List.range 8).foldl (fun p i => (if b.testBit i then p.1 ^^^ p.2 else p.1, xtime p.2)) (0, a)).1

/-- Inverse in GF(2^8), 0 for 0: the 254th power. -/
def ginv (a : Nat) : Nat :=
  ((List.range 7).foldl (fun p _ => let q := gmul p.2 p.2; (gmul p.1 q, q)) (1, a)).1

/-- The S-box value of a byte: inverse, then the affine map. -/
def sboxOf (a : Nat) : Nat :=
  let b := ginv a
  let rot := fun k => (b * 2 ^ k) % 256 ||| (b / 2 ^ (8 - k))
  b ^^^ rot 1 ^^^ rot 2 ^^^ rot 3 ^^^ rot 4 ^^^ 0x63

/-- The S-box. -/
def sboxTable : List Nat := (List.range 256).map sboxOf

/-- The S-box value of a byte, by table. -/
def sbox (a : Nat) : Nat := sboxTable.getD a 0

/-- The inverse S-box value of a byte. -/
def invSbox (a : Nat) : Nat := sboxTable.idxOf a

/-- One more word of the key schedule of a 32-byte key: words are four bytes, newest first. -/
def keyStep (ws : List (List Nat)) (i : Nat) : List (List Nat) :=
  let prev := ws.headD []
  let t :=
    if i % 8 = 0 then
      let r := (prev.rotateLeft 1).map sbox
      (r.headD 0 ^^^ (List.range (i / 8 - 1)).foldl (fun a _ => xtime a) 1) :: r.tail
    else if i % 8 = 4 then prev.map sbox
    else prev
  (List.zipWith (· ^^^ ·) (ws.getD 7 []) t) :: ws

/-- The 15 round keys of a 32-byte key, 16 bytes each. -/
def roundKeys (key : Bytes) : List (List Nat) :=
  let k := (fit 32 key).map BitVec.toNat
  let w0 := ((List.range 8).map (fun i => (k.drop (4 * i)).take 4)).reverse
  let ws := ((lrange 8 52).foldl keyStep w0).reverse.flatten
  (List.range 15).map (fun r => (ws.drop (16 * r)).take 16)

/-- ShiftRows, with `dir` 1 to encrypt and 3 to decrypt. -/
def shiftRows (dir : Nat) (st : List Nat) : List Nat :=
  (List.range 16).map (fun i => st.getD ((i + 4 * dir * (i % 4)) % 16) 0)

/-- MixColumns with the first row `m` of its circulant matrix. -/
def mixColumns (m : List Nat) (st : List Nat) : List Nat :=
  (List.range 16).map (fun i =>
    (List.range 4).foldl (fun acc j => acc ^^^ gmul (st.getD (i / 4 * 4 + j) 0) (m.getD ((j + 4 - i % 4) % 4) 0)) 0)

/-- XOR of two blocks. -/
def xorBlock (a b : List Nat) : List Nat := List.zipWith (· ^^^ ·) a b

/-- AES-256 encryption of one 16-byte block under round keys. -/
def aesEnc (rk : List (List Nat)) (blk : List Nat) : List Nat :=
  let s0 := xorBlock blk (rk.getD 0 [])
  let s13 := (lrange 1 13).foldl
    (fun st r => xorBlock (mixColumns [2, 3, 1, 1] (shiftRows 1 (st.map sbox))) (rk.getD r [])) s0
  xorBlock (shiftRows 1 (s13.map sbox)) (rk.getD 14 [])

/-- AES-256 decryption of one 16-byte block under round keys. -/
def aesDec (rk : List (List Nat)) (blk : List Nat) : List Nat :=
  let s0 := xorBlock blk (rk.getD 14 [])
  let s13 := (lrange 1 13).foldl
    (fun st r => mixColumns [14, 11, 13, 9] (xorBlock ((shiftRows 3 st).map invSbox) (rk.getD (14 - r) []))) s0
  xorBlock ((shiftRows 3 s13).map invSbox) (rk.getD 0 [])

/-- Bytes of numbers. -/
def toBytes (l : List Nat) : Bytes := l.map (fun n => BitVec.ofNat 8 n)

/-- Numbers of bytes. -/
def ofBytes (l : Bytes) : List Nat := l.map BitVec.toNat

/-- `bs` in blocks of 16 bytes, the last one perhaps short. -/
def blocks16 (bs : Bytes) : List Bytes := (List.range (ceilDiv bs.length 16)).map (fun i => (bs.drop (16 * i)).take 16)

/-! ### GCM (NIST SP 800-38D) -/

/-- Product in GF(2^128) in GCM's bit order; blocks as big-endian numbers. -/
def ghMul (x y : Nat) : Nat :=
  ((List.range 128).foldl (fun p i =>
    (if x.testBit (127 - i) then p.1 ^^^ p.2 else p.1,
     if p.2 % 2 = 1 then p.2 / 2 ^^^ (0xE1 * 2 ^ 120) else p.2 / 2)) (0, y)).1

/-- GHASH over bytes padded to whole blocks. -/
def ghash (h : Nat) (bs : Bytes) : Nat :=
  (blocks16 bs).foldl (fun acc b => ghMul (acc ^^^ beNat (fit 16 b)) h) 0

/-- `bs` padded with zeros to a multiple of 16 bytes. -/
def pad16 (bs : Bytes) : Bytes := bs ++ zeros (roundUp bs.length 16 - bs.length)

/-- Counter-mode stream of GCM over `bs` from counter `c0`. -/
def gctr (rk : List (List Nat)) (iv : Bytes) (c0 : Nat) (bs : Bytes) : Bytes :=
  ((blocks16 bs).zipIdx.map (fun p =>
    List.zipWith (· ^^^ ·) p.1 (toBytes (aesEnc rk (ofBytes (iv ++ beBytes 4 (c0 + p.2))))))).flatten

/-- The 16-byte tag over additional data and ciphertext. -/
def gcmTag (rk : List (List Nat)) (iv aad ct : Bytes) : Bytes :=
  let h := beNat (toBytes (aesEnc rk (List.replicate 16 0)))
  let g := ghash h (pad16 aad ++ pad16 ct ++ beBytes 8 (8 * aad.length) ++ beBytes 8 (8 * ct.length))
  gctr rk iv 1 (beBytes 16 g)

/-- AES-256-GCM encryption with a 12-byte nonce: ciphertext and tag (R125, R197). -/
def gcmEncrypt (key nonce aad pt : Bytes) : Bytes × Bytes :=
  let rk := roundKeys key
  let ct := gctr rk (fit 12 nonce) 2 pt
  (ct, gcmTag rk (fit 12 nonce) aad ct)

/-- AES-256-GCM decryption: plaintext, and whether the tag held (R127, R198). -/
def gcmDecrypt (key nonce aad ct tag : Bytes) : Bytes × Bool :=
  let rk := roundKeys key
  (gctr rk (fit 12 nonce) 2 ct, gcmTag rk (fit 12 nonce) aad ct == tag)

/-! ### XTS-AES-256 (IEEE 1619) -/

/-- Product of a tweak by α, as a little-endian number. -/
def xtsDouble (t : Nat) : Nat := if t ≥ 2 ^ 127 then (2 * t - 2 ^ 128) ^^^ 0x87 else 2 * t

/-- The tweak of AES block `j` of sector `n` under the second key (R351). -/
def xtsTweak (key2 : Bytes) (n j : Nat) : Nat :=
  (List.range j).foldl (fun t _ => xtsDouble t) (leNat (toBytes (aesEnc (roundKeys key2) (ofBytes (leBytes 16 n)))))

/-- Encryption (or decryption) of one 16-byte block of a sealed region at block number `b` of the region (R351). -/
def xtsBlock (enc : Bool) (k1 k2 : Bytes) (b : Nat) (blk : Bytes) : Bytes :=
  let t := leBytes 16 (xtsTweak k2 (b / 256) (b % 256))
  let x := ofBytes (List.zipWith (· ^^^ ·) (fit 16 blk) t)
  let rk := roundKeys k1
  List.zipWith (· ^^^ ·) (toBytes (if enc then aesEnc rk x else aesDec rk x)) t

/-! ### CRC-64/XZ (R281) -/

/-- One byte into the reflected register; the polynomial 0x42F0_E1EB_A9EA_3693 reflected. -/
def crc64Byte (c : Nat) (b : Byte) : Nat :=
  (List.range 8).foldl (fun x _ => if x % 2 = 1 then x / 2 ^^^ 0xC96C5795D7870F42 else x / 2) (c ^^^ b.toNat)

/-- CRC-64 with initial value and final XOR all ones (R281). -/
def crc64 (bs : Bytes) : Nat := (bs.foldl crc64Byte 0xFFFFFFFFFFFFFFFF) ^^^ 0xFFFFFFFFFFFFFFFF

/-! ### Philox4x32-10 (R274, R308) -/

/-- One round: key (k0, k1), counter (c0, c1, c2, c3). -/
def philoxRound (k0 k1 : Nat) (c : Nat × Nat × Nat × Nat) : Nat × Nat × Nat × Nat :=
  let p0 := 0xD2511F53 * c.1
  let p1 := 0xCD9E8D57 * c.2.2.1
  (p1 / 2 ^ 32 ^^^ c.2.1 ^^^ k0, p1 % 2 ^ 32, p0 / 2 ^ 32 ^^^ c.2.2.2 ^^^ k1, p0 % 2 ^ 32)

/-- Word 0 of Philox4x32-10 for a key and counter (R274). -/
def philox (k0 k1 c0 c1 c2 c3 : Nat) : Nat :=
  ((List.range 10).foldl (fun c i =>
    philoxRound ((k0 + i * 0x9E3779B9) % 2 ^ 32) ((k1 + i * 0xBB67AE85) % 2 ^ 32) c)
    (c0 % 2 ^ 32, c1 % 2 ^ 32, c2 % 2 ^ 32, c3 % 2 ^ 32)).1

/-! ### SHA-384 (FIPS 180-4) -/

/-- The first 80 primes. -/
def primes80 : List Nat :=
  (List.range 410).filter (fun n => decide (2 ≤ n) && (lrange 2 (n - 2)).all (fun d => n % d != 0))

/-- Largest r below 2^bits with r^k ≤ n. -/
def root (k n bits : Nat) : Nat :=
  (List.range bits).foldl (fun r i => let t := r + 2 ^ (bits - 1 - i); if t ^ k ≤ n then t else r) 0

/-- Round constants: 64 fractional bits of the cube roots of the first 80 primes. -/
def sha512K : List Nat := primes80.map (fun p => root 3 (p * 2 ^ 192) 68 % 2 ^ 64)

/-- Initial value of SHA-384: 64 fractional bits of the square roots of the 9th to 16th primes. -/
def sha384Init : List Nat := ((primes80.drop 8).take 8).map (fun p => root 2 (p * 2 ^ 128) 70 % 2 ^ 64)

/-- Rotation right of a 64-bit word. -/
def rotr64 (x n : Nat) : Nat := x / 2 ^ n ||| (x * 2 ^ (64 - n)) % 2 ^ 64

/-- The message schedule of one 128-byte block, 80 words, newest first while growing. -/
def shaSchedule (blk : Bytes) : List Nat :=
  let w0 := ((List.range 16).map (fun i => beNat ((blk.drop (8 * i)).take 8))).reverse
  ((List.range 64).foldl (fun w _ =>
    let a := w.getD 14 0
    let b := w.getD 1 0
    let s0 := rotr64 a 1 ^^^ rotr64 a 8 ^^^ a / 128
    let s1 := rotr64 b 19 ^^^ rotr64 b 61 ^^^ b / 64
    ((w.getD 15 0 + s0 + w.getD 6 0 + s1) % 2 ^ 64) :: w) w0).reverse

/-- One block of the compression function. -/
def shaBlock (h : List Nat) (blk : Bytes) : List Nat :=
  let st := (List.zip sha512K (shaSchedule blk)).foldl (fun v kw =>
    let e := v.getD 4 0
    let a := v.getD 0 0
    let ch := (e &&& v.getD 5 0) ^^^ ((2 ^ 64 - 1 - e) &&& v.getD 6 0)
    let t1 := v.getD 7 0 + (rotr64 e 14 ^^^ rotr64 e 18 ^^^ rotr64 e 41) + ch + kw.1 + kw.2
    let maj := (a &&& v.getD 1 0) ^^^ (a &&& v.getD 2 0) ^^^ (v.getD 1 0 &&& v.getD 2 0)
    let t2 := (rotr64 a 28 ^^^ rotr64 a 34 ^^^ rotr64 a 39) + maj
    [(t1 + t2) % 2 ^ 64, a, v.getD 1 0, v.getD 2 0, (v.getD 3 0 + t1) % 2 ^ 64, e, v.getD 5 0, v.getD 6 0]) h
  List.zipWith (fun a b => (a + b) % 2 ^ 64) h st

/-- SHA-384 of bytes (R428). -/
def sha384 (bs : Bytes) : Bytes :=
  let padded := bs ++ [0x80#8] ++ zeros (roundUp (bs.length + 17) 128 - (bs.length + 17)) ++ beBytes 16 (8 * bs.length)
  let h := (List.range (padded.length / 128)).foldl (fun h i => shaBlock h ((padded.drop (128 * i)).take 128)) sha384Init
  ((h.take 6).map (beBytes 8)).flatten

end Sys2Proof.Machine
end

