-- ==== Sys2Proof/WellFormed.lean ====
section
/-! DEFINITION. WellFormed.lean: which commands can arise: the ranges, sizes and alignments the manual gives their operands. A command's
meaning does not rest on them, but for the operations of a program's run, which the program itself gives (R291, R295). -/

namespace Sys2Proof

/-- Replaced bytes are those of a 64-byte block (R342). -/
def BlockObs.wf (o : BlockObs) : Bool :=
  match o with
  | .good => true
  | .corrected => true
  | .uncorrectable => true
  | .miscorrected w => w.length == 64
  | .unchanged w => w.length == 64

/-- A native frame: the TAG and IMM flags say what follows the header, and a data packet's acknowledgement body is absent (R168 to
R172). -/
def NFrame.wf (fr : NFrame) : Bool :=
  if decide (0x10 ≤ fr.type.toNat) && decide (fr.type.toNat ≤ 0x22) then fr.imm.isNone && fr.payload.isEmpty
  else (fr.flags.getLsbD 2 == fr.imm.isSome) && fr.ack.isNone && (fr.flags.getLsbD 7 || fr.tag.isEmpty)

/-- An Ethernet frame: its bytes are all of it but the 4 bytes of the frame check sequence (R235). -/
def EFrame.wf (fr : EFrame) : Bool := fr.bytes.length + 4 == fr.l2.length

/-- `n` bytes that lie in one local store of 32 KiB or one exchange buffer of 64 KiB (R291). -/
def Loc.holds (l : Loc) (n : Nat) : Bool := decide (0 < n) && decide (l.addr + n ≤ (if l.exchange then 65536 else 32768))

/-- A piece that the stream engine moves: it begins at a 64-byte block, of its slot and of its store, and its blocks lie in the store
(R291, R292). -/
def Piece.wf (p : Piece) : Bool :=
  p.off % 64 == 0 && p.loc.addr % 64 == 0 && decide (0 < p.len) && p.loc.holds ((p.len + 63) / 64 * 64)

/-- Width of a format in bits (R296, R299). -/
def Fmt.bits : Fmt → Nat
  | .fp32 => 32
  | .fp16 => 16
  | .bf16 => 16
  | .e4m3 => 8
  | .e5m2 => 8
  | .e2m3 => 6
  | .e3m2 => 6
  | .e2m1 => 4
  | .int8 => 8
  | .int4 => 4
  | .mxint8 => 8
  | .e8m0 => 8

/-- Bytes of `n` packed elements (R300). -/
def Fmt.packed (f : Fmt) (n : Nat) : Nat := (n * f.bits + 7) / 8

/-- Whether `n` packed elements fill whole bytes. -/
def Fmt.whole (f : Fmt) (n : Nat) : Bool := n * f.bits % 8 == 0

/-- The float formats (R296): those a grid value converts to. -/
def Fmt.isFloat (f : Fmt) : Bool := [Fmt.fp32, .fp16, .bf16, .e4m3, .e5m2, .e2m3, .e3m2, .e2m1].contains f

/-- The element formats of the MX formats (R298). -/
def Fmt.isMx (f : Fmt) : Bool := [Fmt.e4m3, .e5m2, .e2m3, .e3m2, .e2m1, .mxint8].contains f

/-- The wider formats that hold every finite value of a format, FP32 apart: R309 names conversions to a wider format beside those of R295,
which all have FP32 at one end. -/
def Fmt.wider (f : Fmt) : List Fmt :=
  match f with
  | .e4m3 => [.fp16, .bf16]
  | .e5m2 => [.fp16, .bf16]
  | .int8 => [.fp16, .bf16]
  | .e2m3 => [.e4m3, .fp16, .bf16]
  | .e3m2 => [.e4m3, .e5m2, .fp16, .bf16]
  | .e2m1 => [.e2m3, .e3m2, .e4m3, .e5m2, .fp16, .bf16]
  | .int4 => [.int8, .fp16, .bf16]
  | _ => []

/-- A pair of formats that a conversion takes: from FP32 to any format of R296 but grid, back, or to a wider one (R295, R309). An MXINT8
element is no format of R296: it converts by its block alone (R299, R310). -/
def convPair (src dst : Fmt) : Bool :=
  src != .mxint8 && dst != .mxint8 && (src == .fp32 || dst == .fp32 || src.wider.contains dst)

/-- The formats that pair in a dot of `n` products: those of one row of R295. -/
def dotPair (n : Nat) (a b : Fmt) : Bool :=
  match n with
  | 2 => (a == .bf16 || a == .fp16) && b == a
  | 4 => (a == .e4m3 || a == .e5m2) && (b == .e4m3 || b == .e5m2)
  | 8 => (a == .e2m3 || a == .e3m2 || a == .e2m1) && (b == .e2m3 || b == .e3m2 || b == .e2m1)
  | _ => false

/-- The bytes that an operation reads and writes in local stores and exchange buffers. -/
def TineOp.spans (o : TineOp) : List (Loc × Nat) :=
  match o with
  | .fma _ a b c d => [(a, 4), (b, 4), (c, 4), (d, 4)]
  | .dot _ fa fb n a b c d => [(a, fa.packed n), (b, fb.packed n), (c, 4), (d, 4)]
  | .idot f n a b c d => [(a, f.packed n), (b, f.packed n), (c, 4), (d, 4)]
  | .mxDot _ fa fb a sa b sb c d => [(a, fa.packed 32), (sa, 1), (b, fb.packed 32), (sb, 1), (c, 4), (d, 4)]
  | .convert _ _ src dst n _ _ a d => [(a, src.packed n), (d, dst.packed n)]
  | .mxToFp32 _ _ src n _ _ a sc d => [(a, src.packed n), (sc, 1), (d, 4 * n)]
  | .mxConvert _ dst _ _ a d sc => [(a, 128), (d, dst.packed 32), (sc, 1)]
  | .toGrid _ a d => [(a, 4), (d, 20)]
  | .gridAdd a b d => [(a, 20), (b, 20), (d, 20)]
  | .fromGrid _ _ dst n _ _ a d => [(a, 20 * n), (d, dst.packed n)]
  | .put d bytes => [(d, bytes.length)]
  | .puts l => l.map (fun w => (w.1, w.2.length))
  | .streamIn _ d len _ => [(d, len)]
  | .streamOut a _ len => [(a, len)]
  | .coreBarrier _ _ => []
  | .memCorrected l => [(l, 1)]
  | .memFailed none _ => []
  | .memFailed (some l) _ => [(l, 1)]

/-- An offset of a stream is that of a 64-byte block (R327). -/
def StreamEnd.wf (e : StreamEnd) : Bool :=
  match e with
  | .tilth off => off % 64 == 0
  | .hbm off => off % 64 == 0
  | .descriptor _ off => off % 64 == 0

/-- An arithmetic instruction carries no STOCHASTIC: it would have been refused at load (R306, R315). -/
def Rnd.arith (r : Rnd) : Bool := r != .stochastic

/-- An operation with the formats and counts that R295 gives it, every byte of whose operands lies in its store. -/
def TineOp.wf (o : TineOp) : Bool :=
  o.spans.all (fun q => q.1.holds q.2) &&
  (match o with
   | .fma rnd _ _ _ _ => rnd.arith
   | .dot rnd fa fb n _ _ _ _ => rnd.arith && dotPair n fa fb
   | .idot f n _ _ _ _ => f == .int8 && n == 4 || f == .int4 && n == 8
   | .mxDot rnd fa fb _ _ _ _ _ _ => rnd.arith && (dotPair 4 fa fb || dotPair 8 fa fb || fa == .mxint8 && fb == .mxint8)
   | .convert _ _ src dst n _ _ _ _ => convPair src dst && decide (n ≤ 16) && dst.whole n
   | .mxToFp32 _ _ src n _ _ _ _ _ => src.isMx && decide (n ≤ 32)
   | .mxConvert _ dst _ _ _ _ _ => dst.isMx
   | .fromGrid _ _ dst n _ _ _ _ => dst.isFloat && decide (n ≤ 4) && dst.whole n
   | .streamIn src d len _ => src.wf && d.addr % 64 == 0 && len % 64 == 0
   | .streamOut a dst len => dst.wf && a.addr % 64 == 0 && len % 64 == 0
   | _ => true)

/-- Boot steps are numbered 1 to 11, units to 255 (R406, R407). -/
def BootReport.wf (b : BootReport) : Bool :=
  b.fails.all (fun x => decide (1 ≤ x.step) && decide (x.step ≤ 11) && decide (x.unit ≤ 255)) &&
  (match b.underWay with
  | some (step, unit) => decide (1 ≤ step) && decide (step ≤ 11) && decide (unit ≤ 255)
  | none => true)

/-- A translation covers 4 KiB or more (R89). -/
def AtsAnswer.wf (a : AtsAnswer) : Bool :=
  match a with
  | .translated _ n _ => decide (12 ≤ n) && decide (n ≤ 63)
  | .noAccess => true

/-- Size of a BAR (R62). -/
def barSize (b : Bar) : Nat :=
  match b with
  | .bar0 => 0x1000000
  | .bar4 => 0x10000

/-- An access that R9 or R34 refuses: not 4 aligned bytes (the command mailbox also takes writes of 8), or a write of the event
mailbox. -/
def oddAccess (bar : Bar) (write : Bool) (off size : Nat) : Bool :=
  let inCmd := bar == .bar0 && decide (0x1000 ≤ off) && decide (off < 0x2000)
  let inEvt := bar == .bar0 && decide (0x2000 ≤ off) && decide (off < 0x3000)
  if inEvt && write then true
  else if inCmd && write && size == 8 then off % 8 != 0
  else size != 4 || off % 4 != 0

/-- A doorbell written whole, which is a row of its own (R10). -/
def doorbellWrite (bar : Bar) (write : Bool) (off size : Nat) : Bool :=
  bar == .bar0 && write && size == 8 && off % 8 == 0 && decide (0x100000 ≤ off) && decide (off < 0x380000)

/-- A command whose operands are in their ranges. -/
def Instr.wf (i : Instr) : Bool :=
  match i with
  | .nop _ => true
  | .moduleInfo _ => true
  | .undefinedOpcode _ => true
  | .funcQuery _ => true
  | .funcCreate _ => true
  | .funcDestroy _ => true
  | .funcShareSet _ => true
  | .funcAttach _ => true
  | .managerTransfer _ => true
  | .funcPolicySet _ => true
  | .regionCreate _ => true
  | .regionDestroy _ => true
  | .regionQuery _ => true
  | .regionRemap _ => true
  | .mirrorInvalidate _ => true
  | .hotConfig _ => true
  | .hotRead _ => true
  | .ringCreate _ => true
  | .ringDestroy _ => true
  | .ringQuery _ => true
  | .ringModify _ => true
  | .ringRestart _ => true
  | .cqCreate _ => true
  | .cqDestroy _ => true
  | .cqQuery _ => true
  | .connCreate _ => true
  | .connConnect _ => true
  | .connDestroy _ => true
  | .connQuery _ => true
  | .connReset _ => true
  | .trigAlloc _ => true
  | .trigFree _ => true
  | .trigSet _ => true
  | .trigQuery _ => true
  | .trigAdd _ => true
  | .keyCreate _ => true
  | .keyDestroy _ => true
  | .connSetKeys _ => true
  | .connRotateKeys _ => true
  | .xportSet _ => true
  | .xportQuery _ => true
  | .ccSet _ => true
  | .ccQuery _ => true
  | .shaperAlloc _ => true
  | .shaperSet _ => true
  | .shaperBind _ => true
  | .shaperFree _ => true
  | .schedFuncSet _ => true
  | .schedClassSet _ => true
  | .policerSet _ => true
  | .policerQuery _ => true
  | .policerFree _ => true
  | .gateSet _ => true
  | .gateQuery _ => true
  | .portQuery _ => true
  | .portSet _ => true
  | .portBreakout _ => true
  | .portReset _ => true
  | .portStats _ => true
  | .portGlobalSet _ => true
  | .portMgmtSet _ => true
  | .portFilterSet _ => true
  | .portQueueBind _ => true
  | .ptpAdjust _ => true
  | .ptpRead _ => true
  | .portTsBind _ => true
  | .relaySet _ => true
  | .relayTableWrite _ => true
  | .relayEpochSwitch _ => true
  | .relayQuery _ => true
  | .commCreate _ => true
  | .commDestroy _ => true
  | .commQuery _ => true
  | .collRingCreate _ => true
  | .collSlotsQuery _ => true
  | .drillLoad _ _ _ => true
  | .drillUnload _ => true
  | .drillQuery _ => true
  | .drillControl _ => true
  | .furrowQuery _ => true
  | .memLayoutQuery _ => true
  | .memLayoutSet _ => true
  | .shareScrub _ => true
  | .scrubSet _ => true
  | .scrubQuery _ => true
  | .granuleGrant _ => true
  | .granuleRevoke _ => true
  | .granuleQuery _ => true
  | .spareQuery _ => true
  | .repair _ => true
  | .holdupTest _ _ => true
  | .moduleReset _ => true
  | .fwRestart _ => true
  | .tineReset _ => true
  | .moduleFallow _ => true
  | .moduleWipe _ => true
  | .imageQuery _ => true
  | .imageProgram _ _ => true
  | .imageSelect _ => true
  | .bootLogRead _ => true
  | .bootLogClear _ => true
  | .lcQuery _ => true
  | .lcChallenge _ => true
  | .lcTransition _ _ => true
  | .factoryTest _ => true
  | .cntGlobalRead _ => true
  | .traceConfig _ => true
  | .traceControl _ => true
  | .traceQuery _ => true
  | .traceRead _ => true
  | .faultRead _ => true
  | .hangGraph _ => true
  | .gleanArm _ _ => true
  | .gleanQuery _ => true
  | .gleanCancel _ => true
  | .globalStop _ => true
  | .globalResume _ => true
  | .stopRead _ => true
  | .longCommandDone _ => true
  | .progressRecord _ _ _ _ _ => true
  | .commandTimeout _ => true
  | .mbxGo _ _ => true
  | .mbxEvtConsWrite _ _ => true
  | .mbxEvtLostRead _ => true
  | .regWrite _ bar off size _ => !oddAccess bar true off size && decide (off + size ≤ barSize bar)
  | .badRegAccess _ bar w off size => oddAccess bar w off size && !doorbellWrite bar w off size && decide (0 < size) && decide (off < barSize bar)
  | .idTimeLoRead _ => true
  | .winSet _ _ _ => true
  | .bar2Read _ off len obs => decide (0 < len) && decide (off + len ≤ 0x4000000) && obs.all BlockObs.wf
  | .bar2Write _ off data obs => !data.isEmpty && decide (off + data.length ≤ 0x4000000) && obs.all BlockObs.wf
  | .evcClaimRead _ => true
  | .evcEoiWrite _ _ => true
  | .evcThresholdWrite _ _ => true
  | .evcRaiseSignal _ value => !value.getLsbD 31
  | .evcRaiseWithdraw _ value => value.getLsbD 31
  | .evcCtrlWrite _ _ => true
  | .evcRouteWrite _ source _ => decide (source < 4096)
  | .evcSourceSignal _ source => source.blt 4 || (decide (16 ≤ source) && decide (source ≤ 4094))
  | .evcSourceWithdraw _ source => source.blt 4 || (decide (16 ≤ source) && decide (source ≤ 4094))
  | .msixVectorUnmask _ vector => decide (vector < 2048)
  | .msixFunctionUnmask _ => true
  | .msixEnableSet _ => true
  | .cntSnap _ _ => true
  | .cntSnapDone _ => true
  | .dblWork _ ring _ _ => decide (ring < 262144)
  | .dblCq _ cq _ _ obs => decide (cq < 65536) && obs.all BlockObs.wf
  | .dblCqArm _ cq value _ => decide (cq < 65536) && value.getLsbD 31
  | .copy _ ring => decide (ring < 262144)
  | .write _ ring => decide (ring < 262144)
  | .read _ ring => decide (ring < 262144)
  | .send _ ring => decide (ring < 262144)
  | .recv _ ring => decide (ring < 262144)
  | .fetchAdd _ ring => decide (ring < 262144)
  | .cmpSwap _ ring => decide (ring < 262144)
  | .swap _ ring => decide (ring < 262144)
  | .rawSend _ ring => decide (ring < 262144)
  | .allreduce _ ring => decide (ring < 262144)
  | .reduce _ ring => decide (ring < 262144)
  | .broadcast _ ring => decide (ring < 262144)
  | .reduceScatter _ ring => decide (ring < 262144)
  | .allgather _ ring => decide (ring < 262144)
  | .entryReadDone _ ring got _ => decide (ring < 262144) && got.bytes.length == 64 && got.obs.wf
  | .entryReadFault _ ring _ => decide (ring < 262144)
  | .triggeredStart _ ring => decide (ring < 262144)
  | .dmaReadCompletion _ _ => true
  | .packetSend conn => decide (conn < 16777216)
  | .egressFrameStart _ => true
  | .shaperRefill => true
  | .gateIntervalEnd _ => true
  | .gateListSwitch _ => true
  | .rxFrameDiscard _ fr => fr.wf
  | .rxWrite _ fr => fr.type == 0x01 && fr.wf
  | .rxWriteFlag _ fr => fr.type == 0x02 && fr.wf
  | .rxSend _ fr => fr.type == 0x03 && fr.wf
  | .rxReadReq _ fr => fr.type == 0x04 && fr.wf
  | .rxReadResp _ fr => fr.type == 0x05 && fr.wf
  | .rxAtomicReq _ fr => fr.type == 0x06 && fr.wf
  | .rxAtomicResp _ fr => fr.type == 0x07 && fr.wf
  | .rxAck _ fr => fr.type == 0x10 && fr.wf
  | .rxNakRnr _ fr => fr.type == 0x11 && fr.wf
  | .rxNakAccess _ fr => fr.type == 0x12 && fr.wf
  | .rxNakSeq _ fr => fr.type == 0x13 && fr.wf
  | .rxNakClosed _ fr => fr.type == 0x14 && fr.wf
  | .rxProbe _ fr => fr.type == 0x20 && fr.wf
  | .rxProbeReply _ fr => fr.type == 0x21 && fr.wf
  | .rxUnreach _ fr => fr.type == 0x22 && fr.wf
  | .relayFrame _ fr => fr.type != 0x22 && fr.wf
  | .rxRocePacket _ fr => fr.op != .cnp
  | .rxCnp _ fr => fr.op == .cnp
  | .rpTimerExpiry conn => decide (conn < 16777216)
  | .rxCollUp _ fr => fr.type == 0x40 && fr.wf
  | .rxCollDown _ fr => fr.type == 0x41 && fr.wf
  | .rxCollReport _ fr => fr.type == 0x42 && fr.wf
  | .rxCollSeal _ fr => fr.type == 0x43 && fr.wf
  | .rxCollRepair _ fr => fr.type == 0x44 && fr.wf
  | .rxCollGrant _ fr => fr.type == 0x45 && fr.wf
  | .rxPause _ _ => true
  | .rxPfc _ _ quanta => quanta.length == 8
  | .pauseQuantaExpiry _ _ => true
  | .pfcXoffRefresh _ _ => true
  | .rxPreemptVerify _ _ => true
  | .preemptVerifyTimeout _ => true
  | .rxRawFrame _ fr => fr.wf
  | .rxDrillFrame _ fr => fr.wf
  | .drillFrameVerdict _ _ => true
  | .contextFetchDone conn obs => decide (conn < 16777216) && obs.wf
  | .memWriteResponse _ obs => obs.all BlockObs.wf
  | .flushComplete _ => true
  | .flushFailed _ => true
  | .probeFlushTimer => true
  | .ackDelayExpiry conn => decide (conn < 16777216)
  | .rtoExpiry conn => decide (conn < 16777216)
  | .probeIntervalExpiry conn => decide (conn < 16777216)
  | .rnrRetryExpiry conn => decide (conn < 16777216)
  | .flowIdleExpiry _ node conn path => decide (node < 1048576) && decide (conn < 16777216) && decide (path < 64)
  | .unreachHoldExpiry _ index _ => decide (index < 4096)
  | .drainMaxExpiry conn path => decide (conn < 16777216) && decide (path < 64)
  | .atsTranslationDone _ ans => ans.wf
  | .pageRequestResponse _ _ => true
  | .pageRequestTimeout _ => true
  | .invalidateRequest _ _ _ base len => decide (4096 ≤ len) && base.toNat % 4096 == 0
  | .invalidateReadTimeout _ => true
  | .atsDisable _ => true
  | .priReenable _ => true
  | .linkDown _ => true
  | .linkUp _ rate width => [5, 6, 7].contains rate && [4, 8, 16].contains width
  | .replayDone _ => true
  | .retrainWindowExpiry _ => true
  | .linkHotReset _ => true
  | .functionLevelReset _ => true
  | .configResetDone _ => true
  | .attachMsExpiry _ => true
  | .teardownDone _ => true
  | .vfEnable _ numVfs => decide (1 ≤ numVfs) && decide (numVfs ≤ 63)
  | .vfDisable _ numVfs => decide (numVfs < 63)
  | .d3hotEntry _ => true
  | .d0Return _ => true
  | .l1IdleEntry _ => true
  | .l0pNarrow _ => true
  | .laneSerExceeded _ _ => true
  | .laneSignalLoss _ _ => true
  | .laneSwapDone _ => true
  | .portLinkDown _ => true
  | .portLinkUp _ _ _ => true
  | .runStart _ feed => feed.all Piece.wf
  | .runScheduleEnd _ => true
  | .runEnd _ ops outs _ _ => ops.all TineOp.wf && outs.all Piece.wf
  | .gleanStepReached _ _ _ => true
  | .rampGranted _ => true
  | .warmHoldExpiry _ => true
  | .tineFault _ _ _ => true
  | .tineThresholdDraw _ _ _ => true
  | .patrolScrub _ obs => obs.wf
  | .rehashDone _ => true
  | .hotIntervalEnd _ => true
  | .faultSummaryPost _ => true
  | .fwWatchdogExpiry => true
  | .fwFault => true
  | .fwRestartDone => true
  | .stopRefLatch => true
  | .freezeAssert => true
  | .freezeRelease => true
  | .powerOn boots => boots.all BootReport.wf
  | .moduleResetStart boots => boots.all BootReport.wf
  | .mrstAssert boots => boots.all BootReport.wf
  | .powerLoss => true
  | .powerLossFlushDone => true
  | .holdupMeasure _ => true
  | .powerSample _ => true
  | .thermalSample t => t.furrows.length == 40 && t.hbm.length == 4
  | .overcurrent _ _ => true
  | .ppsInEdge => true
  | .ppsOutSecond => true
  | .refLock => true
  | .refLost => true
  | .smbusId => true
  | .smbusStatus => true
  | .smbusBoot => true
  | .smbusVin => true
  | .smbusIin => true
  | .smbusPin => true
  | .smbusTemp => true
  | .smbusHoldup => true
  | .smbusShutdownCause => true
  | .smbusWrite _ _ => true
  | .msixFunctionMaskSet _ => true
  | .msixEnableClear _ => true
  | .atsEnableSet _ => true
  | .memReadResponse _ obs => obs.all BlockObs.wf
  | .contextWriteBackDone conn => decide (conn < 16777216)
  | .txFrameEnd _ => true
  | .unloadRunTimeout _ => true
  | .inputInsertion _ => true

end Sys2Proof
end

