-- ==== Sys2Proof/Machine/Arith.lean ====
section
/-! DEFINITION. Machine/Arith.lean: the number formats and the arithmetic of the tine array and of the collective engine
(R271 to R277, R296 to R311). A finite value is m × 2^e with integers m and e. -/

namespace Sys2Proof.Machine

/-! ### Flags (R311) -/

/-- INVALID. -/
def fInvalid : Nat := 1
/-- OVERFLOW. -/
def fOverflow : Nat := 2
/-- UNDERFLOW. -/
def fUnderflow : Nat := 4
/-- INEXACT. -/
def fInexact : Nat := 8
/-- NAN_IN. -/
def fNanIn : Nat := 16
/-- CLIPPED. -/
def fClipped : Nat := 32
/-- MEM_CORRECTED. -/
def fMemCorrected : Nat := 64

/-! ### Formats (R296 to R299) -/

/-- Exponent bits. -/
def fmtExp : Fmt → Nat
  | .fp32 => 8
  | .fp16 => 5
  | .bf16 => 8
  | .e4m3 => 4
  | .e5m2 => 5
  | .e2m3 => 2
  | .e3m2 => 3
  | .e2m1 => 2
  | .int8 => 0
  | .int4 => 0
  | .mxint8 => 0
  | .e8m0 => 8

/-- Mantissa bits of a float, magnitude bits of an integer. -/
def fmtMan : Fmt → Nat
  | .fp32 => 23
  | .fp16 => 10
  | .bf16 => 7
  | .e4m3 => 3
  | .e5m2 => 2
  | .e2m3 => 3
  | .e3m2 => 2
  | .e2m1 => 1
  | .int8 => 7
  | .int4 => 3
  | .mxint8 => 7
  | .e8m0 => 0

/-- Width in bits. -/
def fmtBits (f : Fmt) : Nat := f.bits

/-- Exponent bias: 2^(exp bits − 1) − 1, but for E4M3 and the others of R296. -/
def fmtBias : Fmt → Int
  | .fp32 => 127
  | .fp16 => 15
  | .bf16 => 127
  | .e4m3 => 7
  | .e5m2 => 15
  | .e2m3 => 1
  | .e3m2 => 3
  | .e2m1 => 1
  | .int8 => 0
  | .int4 => 0
  | .mxint8 => 0
  | .e8m0 => 127

/-- Whether the format is an integer one. -/
def fmtInt (f : Fmt) : Bool := fmtExp f == 0

/-- Whether the format has infinities. -/
def fmtInf : Fmt → Bool
  | .fp32 => true
  | .fp16 => true
  | .bf16 => true
  | .e5m2 => true
  | _ => false

/-- The NaN the module writes, if the format has one (R296). -/
def fmtNan : Fmt → Option Nat
  | .fp32 => some 0x7FC00000
  | .fp16 => some 0x7E00
  | .bf16 => some 0x7FC0
  | .e4m3 => some 0x7F
  | .e5m2 => some 0x7E
  | .e8m0 => some 0xFF
  | _ => none

/-- Magnitude code of the largest finite value of a float. -/
def fmtMaxCode (f : Fmt) : Nat :=
  if fmtInf f then (2 ^ fmtExp f - 1) * 2 ^ fmtMan f - 1
  else if (fmtNan f).isSome then 2 ^ (fmtExp f + fmtMan f) - 2 else 2 ^ (fmtExp f + fmtMan f) - 1

/-- A value as read. -/
inductive FVal where
  | nan
  | inf (neg : Bool)
  /-- m × 2^e; `neg` is the sign, which tells −0. -/
  | fin (neg : Bool) (m : Nat) (e : Int)
  deriving DecidableEq, Repr

/-- Signed mantissa. -/
def sgn (neg : Bool) (m : Nat) : Int := if neg then -(m : Int) else m

/-- Reads an encoding (R296 to R299). -/
def decodeF (f : Fmt) (n : Nat) : FVal :=
  let w := fmtBits f
  let neg := bit n (w - 1)
  if f = .e8m0 then (if n = 0xFF then .nan else .fin false 1 ((n : Int) - 127))
  else if fmtInt f then
    let v := if neg then 2 ^ (w - 1) - n % 2 ^ (w - 1) else n % 2 ^ (w - 1)
    .fin neg v (if f = .mxint8 then -6 else 0)
  else
    let mag := n % 2 ^ (w - 1)
    let man := fmtMan f
    let ex := mag / 2 ^ man
    let fr := mag % 2 ^ man
    if mag > fmtMaxCode f then (if fmtInf f ∧ fr = 0 then .inf neg else .nan)
    else if ex = 0 then .fin neg fr (1 - fmtBias f - man)
    else .fin neg (2 ^ man + fr) (ex - fmtBias f - man)

/-! ### Rounding (R273, R306, R307) -/

/-- A rounding: to nearest even, toward zero, or stochastic with a 32-bit u. -/
inductive Mode where
  | rne
  | rtz
  | sr (u : Nat)
  deriving DecidableEq, Repr

/-- m × 2^e in units of 2^q: quotient, remainder and divisor. -/
def scaleTo (m : Nat) (e q : Int) : Nat × Nat × Nat :=
  if e ≥ q then (m * 2 ^ (e - q).toNat, 0, 1)
  else
    let d := 2 ^ (q - e).toNat
    (m / d, m % d, d)

/-- Rounds a quotient by its remainder. -/
def roundQ (mode : Mode) (n r d : Nat) : Nat :=
  match mode with
  | .rtz => n
  | .rne => if 2 * r > d ∨ (2 * r = d ∧ n % 2 = 1) then n + 1 else n
  | .sr u => if u < r * 2 ^ 32 / d then n + 1 else n

/-- floor(log2(m × 2^e)) of a positive m. -/
def flog2 (m : Nat) (e : Int) : Int := (Nat.log2 m : Int) + e

/-- What rounding a magnitude into a float gives. -/
structure Rounded where
  code : Nat
  inexact : Bool
  tiny : Bool
  ovf : Bool
  deriving DecidableEq, Repr

/-- Rounds the magnitude m × 2^e into a float's magnitude code; beyond the largest finite value it overflows (R305, R307,
R309). -/
def roundMag (f : Fmt) (mode : Mode) (m : Nat) (e : Int) : Rounded :=
  if m = 0 then ⟨0, false, false, false⟩
  else
    let man := fmtMan f
    let low : Int := 1 - fmtBias f - man
    let q := max (flog2 m e - man) low
    let s := scaleTo m e q
    let n := roundQ mode s.1 s.2.1 s.2.2
    let exact := ((q - low).toNat) * 2 ^ man
    let top := exact + s.1
    let ovf := decide (top > fmtMaxCode f) || (top == fmtMaxCode f && s.2.1 != 0)
    let code := exact + n
    ⟨code, s.2.1 != 0, decide (flog2 m e < 1 - fmtBias f), ovf⟩

/-- The sign bit of a format. -/
def signBit (f : Fmt) (neg : Bool) : Nat := if neg then 2 ^ (fmtBits f - 1) else 0

/-- Infinity of a format that has one. -/
def infCode (f : Fmt) : Nat := fmtMaxCode f + 1

/-! ### FP32 results (R302, R303, R305) -/

/-- An exact sum rounded into FP32; `negZero`: an exact zero is −0. -/
def toFp32 (mode : Mode) (negZero : Bool) (m e : Int) : Nat × Nat :=
  if m = 0 then (signBit .fp32 negZero, 0)
  else
    let neg := decide (m < 0)
    let r := roundMag .fp32 mode m.natAbs e
    if r.ovf then
      (signBit .fp32 neg + (if mode = .rtz then fmtMaxCode .fp32 else infCode .fp32), fOverflow + fInexact)
    else (signBit .fp32 neg + r.code, (if r.inexact then fInexact else 0) + (if r.inexact && r.tiny then fUnderflow else 0))

/-- Sum of two dyadic numbers. -/
def dyAdd (a b : Int × Int) : Int × Int :=
  let e := min a.2 b.2
  (a.1 * 2 ^ (a.2 - e).toNat + b.1 * 2 ^ (b.2 - e).toNat, e)

/-- One product of a dot: NaN, infinity or a dyadic number with its sign. -/
def fmul (a b : FVal) : FVal × Bool :=
  match a, b with
  | .nan, _ => (.nan, false)
  | _, .nan => (.nan, false)
  | .inf n, .inf k => (.inf (n != k), false)
  | .inf n, .fin k m _ => if m = 0 then (.nan, true) else (.inf (n != k), false)
  | .fin n m _, .inf k => if m = 0 then (.nan, true) else (.inf (n != k), false)
  | .fin n m e, .fin k j g => (.fin (n != k) (m * j) (e + g), false)

/-- The exact sum of terms scaled by 2^sc, plus c, rounded once into FP32, with its flags (R302, R303, R305). -/
def dotSum (mode : Mode) (pairs : List (FVal × FVal)) (sc : Int) (c : FVal) : Nat × Nat :=
  let nanIn := pairs.any (fun p => p.1 == .nan || p.2 == .nan) || c == .nan
  if nanIn then (0x7FC00000, fNanIn)
  else
    let prods := pairs.map (fun p => fmul p.1 p.2)
    let terms := prods.map Prod.fst ++ [c]
    let pos := terms.contains (.inf false)
    let neg := terms.contains (.inf true)
    if prods.any (fun p => p.2) || (pos && neg) then (0x7FC00000, fInvalid)
    else if pos then (infCode .fp32, 0)
    else if neg then (signBit .fp32 true + infCode .fp32, 0)
    else
      let dy := fun (v : FVal) (k : Int) => match v with
        | .fin n m e => (sgn n m, e + k)
        | _ => ((0 : Int), (0 : Int))
      let sum := ((prods.map (fun p => dy p.1 sc)).foldl dyAdd (dy c 0))
      let allNeg := terms.all (fun t => match t with
        | .fin n m _ => n && m == 0
        | _ => false)
      toFp32 mode allNeg sum.1 sum.2

/-- A value in a format to nearest even as IEEE 754 has it: a magnitude that rounds beyond the largest finite one becomes an infinity, or
±448 in E4M3, and exceeds the format (R276). -/
def ieeeNear (f : Fmt) (v : FVal) : Nat × Bool :=
  let top := if fmtInf f then infCode f else fmtMaxCode f
  match v with
  | .nan => ((fmtNan f).getD 0, false)
  | .inf neg => (signBit f neg + top, !fmtInf f)
  | .fin neg m e =>
    let r := roundMag f .rne m e
    if r.code > fmtMaxCode f then (signBit f neg + top, true) else (signBit f neg + r.code, false)

/-- FP32 addition to nearest even under the rules of IEEE 754 (R276). -/
def addFp32 (a b : Nat) : Nat :=
  match decodeF .fp32 a, decodeF .fp32 b with
  | .fin n m e, .fin k j g =>
    let x := dyAdd (sgn n m, e) (sgn k j, g)
    if x.1 = 0 then signBit .fp32 (n && k) else (ieeeNear .fp32 (.fin (decide (x.1 < 0)) x.1.natAbs x.2)).1
  | x, y => (dotSum .rne [(x, .fin false 1 0)] 0 y).1

/-- An integer dot with saturation to INT32; a saturation changes the value (R304, R311). -/
def idotSum (pairs : List (Int × Int)) (c : Int) : Int × Nat :=
  let v := (pairs.map (fun p => p.1 * p.2)).sum + c
  if v > 2147483647 then (2147483647, fOverflow + fInexact)
  else if v < -2147483648 then (-2147483648, fOverflow + fInexact) else (v, 0)

/-! ### Conversions (R309, R310) -/

/-- Conversion of a value into a format by RND, with SAT on or off (R309). -/
def convertTo (f : Fmt) (mode : Mode) (sat : Bool) (v : FVal) : Nat × Nat :=
  if fmtInt f then
    let lim : Nat := if f = .mxint8 then 127 else 2 ^ fmtMan f - 1
    let limNeg : Nat := if f = .mxint8 then 127 else 2 ^ fmtMan f
    let w := 2 ^ fmtBits f
    let put := fun (neg : Bool) (n : Nat) => if neg then (w - n) % w else n
    match v with
    | .nan => (0, fNanIn + fInvalid)
    | .inf neg => (put neg (if neg then limNeg else lim), fOverflow)
    | .fin neg m e =>
      let s := scaleTo m e (if f = .mxint8 then -6 else 0)
      let n := roundQ mode s.1 s.2.1 s.2.2
      let top := if neg then limNeg else lim
      if s.1 > top ∨ (s.1 = top ∧ s.2.1 ≠ 0) then (put neg top, fOverflow + fInexact)
      else (put neg n, if s.2.1 != 0 then fInexact else 0)
  else
    match v with
    | .nan => match fmtNan f with
      | some c => (c, fNanIn)
      | none => (0, fNanIn + fInvalid)
    | .inf neg =>
      if !fmtInf f ∧ (fmtNan f).isNone then (signBit f neg + fmtMaxCode f, fOverflow)
      else if sat then (signBit f neg + fmtMaxCode f, fOverflow)
      else if fmtInf f then (signBit f neg + infCode f, 0)
      else ((fmtNan f).getD 0, fInvalid)
    | .fin neg m e =>
      let r := roundMag f mode m e
      if r.ovf then
        let sg := signBit f neg
        if !fmtInf f ∧ (fmtNan f).isNone then (sg + fmtMaxCode f, fOverflow + fInexact)
        else if sat then (sg + fmtMaxCode f, fOverflow + fInexact)
        else if fmtInf f then (sg + (if mode = .rtz then fmtMaxCode f else infCode f), fOverflow + fInexact)
        else ((fmtNan f).getD 0, fOverflow)
      else
        let zero := r.code == 0 && (match mode with | .sr _ => true | _ => false)
        ((if zero then 0 else signBit f neg) + r.code,
         (if r.inexact then fInexact else 0) + (if r.inexact && r.tiny then fUnderflow else 0))

/-- FP32 into E8M0 (R295, R309): 2^(X − 127) for X up to 254, NaN to 0xFF. A zero, a negative value, an infinity, a value outside 2^−127
to 2^127 and a tie have no result that the manual states: their code, and their flags but NAN_IN, are free, `free` standing for both:
DESIGN CHOICE (log entry 158). -/
def toE8m0 (mode : Mode) (free : Nat) (v : FVal) : Nat × Nat :=
  let open_ := (free % 256, free / 256 % 16)
  match v with
  | .nan => (0xFF, fNanIn)
  | .inf _ => open_
  | .fin neg m e =>
    let k := flog2 m e
    if neg ∨ m = 0 ∨ k < -127 ∨ k > 127 then open_
    else
      let s := scaleTo m e k
      if e ≥ k ∨ s.2.1 = 0 then ((k + 127).toNat, 0)
      else if k = 127 then open_
      else
        let up := match mode with
          | .rtz => false
          | .rne => decide (2 * s.2.1 > s.2.2)
          | .sr u => decide (u < s.2.1 * 2 ^ 32 / s.2.2)
        if mode = .rne ∧ 2 * s.2.1 = s.2.2 then ((k + 127).toNat + free % 2, fInexact)
        else ((k + 127).toNat + b2n up, fInexact)

/-- emax of an MX element format (R310). -/
def mxEmax : Fmt → Int
  | .e4m3 => 8
  | .e5m2 => 15
  | .e2m3 => 2
  | .e3m2 => 4
  | .e2m1 => 2
  | _ => 0

/-- Conversion of a block of values into an MX format: element codes, scale, flags (R310); `mode` by element. A tiny element
does not set UNDERFLOW, as in R310's worked example (log entry 11). -/
def mxConvertBlock (f : Fmt) (mode : Nat → Mode) (xs : List FVal) : List Nat × Nat × Nat :=
  if xs.contains .nan then (xs.map (fun _ => 0), 0xFF, fNanIn)
  else
    let lg := xs.filterMap (fun x => match x with
      | .fin _ m e => if m = 0 then none else some (flog2 m e)
      | _ => none)
    let raw : Int := match lg with
      | [] => -127
      | a :: r => r.foldl max a - mxEmax f
    let xe := max (-127) (min 127 raw)
    let one := fun (p : FVal × Nat) =>
      match p.1 with
      | .fin n m e =>
        let c := convertTo f (mode p.2) true (.fin n m (e - xe))
        let fl := if bit c.2 2 then c.2 - fUnderflow else c.2
        (c.1, if bit fl 1 && decide (raw ≤ 127) then fInexact else fl)
      | .inf n => if f = .e5m2 then (signBit f n + infCode f, 0) else convertTo f .rne true (.inf n)
      | .nan => (0, fNanIn)
    let all := xs.zipIdx.map one
    (all.map Prod.fst, (xe + 127).toNat, all.foldl (fun a p => a ||| p.2) 0)

/-! ### Grid values (R271 to R273) -/

/-- The integer summand of a value under scale S, whether it clipped, whether it was NaN, and whether it was truncated
(R271). -/
def gridOf (sc : Int) (v : FVal) : Int × Bool × Bool × Bool :=
  match v with
  | .nan => (0, false, true, false)
  | .inf n => (sgn n (2 ^ 139 - 1), true, false, false)
  | .fin n m e =>
    let s := scaleTo m e (sc - 120)
    if s.1 ≥ 2 ^ 139 then (sgn n (2 ^ 139 - 1), true, false, false)
    else (sgn n s.1, false, false, s.2.1 != 0)

/-- r = A × 2^(S − 120) rounded once into a format, and whether OVERFLOW is set (R273).  A
result of ±448 in E4M3 to nearest even sets it too. -/
def gridRound (f : Fmt) (mode : Mode) (sc : Int) (a : Int) : Nat × Bool :=
  if a = 0 then (0, false)
  else
    let neg := decide (a < 0)
    let r := roundMag f mode a.natAbs (sc - 120)
    if r.ovf then (signBit f neg + (if fmtInf f then infCode f else fmtMaxCode f), true)
    else
      let zero := r.code == 0
      ((if zero && (match mode with | .sr _ => true | _ => false) then 0 else signBit f neg) + r.code,
        f == .e4m3 && r.code == fmtMaxCode f && mode == .rne)

/-! ### MAX and MIN (R277) -/

/-- Whether `a` ranks at or above `b`, +0 above −0; neither NaN. -/
def rankGe (a b : FVal) : Bool :=
  match a, b with
  | .inf n, .inf k => !n || k
  | .inf n, _ => !n
  | _, .inf k => k
  | .fin n m e, .fin k j g =>
    let x := dyAdd (sgn n m, e) (-(sgn k j), g)
    if x.1 = 0 then !n || k else decide (x.1 > 0)
  | _, _ => true

/-- MAX or MIN of two encodings in a format (R277). -/
def extremum (f : Fmt) (isMax : Bool) (a b : Nat) : Nat :=
  match decodeF f a, decodeF f b with
  | .nan, _ => (fmtNan f).getD 0
  | _, .nan => (fmtNan f).getD 0
  | x, y => if rankGe x y == isMax then a else b

end Sys2Proof.Machine
end

