-- ==== Sys2Proof/Config.lean ====
section
/-! DEFINITION. Config.lean: what the manual leaves to the implementation, as constants no proof can see the value of.
Each `Nat` argument is State's counter of free values used, so that every use is fresh (log entry 2). -/

namespace Sys2Proof

/-- A byte of memory whose contents the manual leaves undefined (R19, R38, R121, R132), by use and address. -/
opaque Config.freeByte : Nat → Nat → BitVec 8

/-- A value the manual leaves undefined, by use. -/
opaque Config.freeWord : Nat → BitVec 64

/-- The pseudorandom draw of R205, as a 32-bit fraction of 1, by use. -/
opaque Config.ceDraw : Nat → BitVec 32

/-- ELAPSED_US of a quick command: at most 100 (R38, R46), by use. -/
opaque Config.quickUs : Nat → Fin 101

/-- Output of the hardware random source (R351, R427), by use and byte. -/
opaque Config.random : Nat → Nat → BitVec 8

/-- SERIAL of MODULE_INFO, 16 bytes (R56). -/
opaque Config.serial : Fin 16 → BitVec 8

/-- The module's base MAC address (R255). -/
opaque Config.baseMac : BitVec 48

/-- The address the module writes as IP source on a logical port (R168): the manual gives no way to set it. -/
opaque Config.ownAddr : Nat → BitVec 128

/-- The IP address that stands for a node under NODE addressing (R168, R169). -/
opaque Config.nodeAddr : Nat → BitVec 128

/-- The Ethernet destination address of the next hop to an IP address from a logical port (R168). -/
opaque Config.nextMac : Nat → BitVec 128 → BitVec 48

/-- Which of the candidate ports a path of a connection with PORT 0xFF uses (R145), by connection and path. -/
opaque Config.anyPort : Nat → Nat → Nat

/-- The hash that breaks ties between next hops, by node, connection and path (R367). -/
opaque Config.flowHash : Nat → Nat → Nat → Nat

/-- The HBM row that a module-local address lies in (R337, R386). -/
opaque Config.rowOf : Nat → Nat

/-- The bank (stack, channel and bank as one number) a row of HBM lies in (R337, R386). -/
opaque Config.bankOf : Nat → Nat

/-- Banks of all HBM stacks together (R386): the manual gives no number. -/
opaque Config.hbmBanks : Nat

/-- The fixed hash of a 256-byte granule of HBM, which its stack's channels in service share out (R337). -/
opaque Config.channelOf : Nat → Nat

/-- Fixed transmit and receive latencies of a logical port in ps (R250, R255). -/
opaque Config.txLatencyPs : Nat → BitVec 32

/-- As `txLatencyPs`, for receive. -/
opaque Config.rxLatencyPs : Nat → BitVec 32

/-- Where the router of an endpoint stands in its die's mesh, column and row: the manual gives the mesh no shape (R357). -/
opaque Config.fabricPlace : Nat → Nat × Nat

/-- Packets that a router buffer of one channel holds, less one (R357): the manual gives no number. -/
opaque Config.routerDepth : Nat

/-- Pliath Devices' PCI-SIG vendor identifier (R61): the manual does not give its value. -/
opaque Config.vendorId : BitVec 16

/-- The field die on whose fabric Headland's endpoint stands (R362). -/
opaque Config.headlandDie : Fin 2

/-- Clock frequency in kHz of clock domain `d` of R361 (R447). -/
opaque Config.domainKhz : Nat → BitVec 32

/-- Where a completion ring's windrow begins in the windrow store, in entries, by function and ring number (R115, R338). -/
opaque Config.windrowBase : Nat → Nat → Nat

/-- The first member and the number of members hosted at a position of a ring, by COMM_TAG and position (R280): COMM_CREATE tells a node
its own alone (R259). -/
opaque Config.ringHosted : Nat → Nat → Nat × Nat

/-- Which of its die's reduction slots holds a unit of an operation, by function, GSEQ and unit (R268). -/
opaque Config.slotPlace : Nat → Nat → Nat → Nat

/-- Results of conversions that the manual does not state (R296, R309), by use: 12 bits for each element. -/
opaque Config.freeResult : Nat → BitVec 192

end Sys2Proof
end

