-- ==== Sys2Proof/Machine/Fabric.lean ====
section
/-! DEFINITION. Machine/Fabric.lean: the on-module fabric (R357 to R363): crossing queues, routers, the die-to-die link, and what
they do in 1 ns. The effect of a packet on the rest of the machine takes place where the packet is sent; the fabric holds its
passage (log entry 47). -/

namespace Sys2Proof.Machine

/-! ### Packets (R357) -/

/-- Whether a channel is of the control class (R357). -/
def FabChan.control (c : FabChan) : Bool :=
  match c with
  | .creq => true
  | .crsp => true
  | .dreq => false
  | .drsp => false

/-- Most contents of a packet of a channel, beside its 16-byte header (R357). -/
def FabChan.most (c : FabChan) : Nat := if c.control then 240 else 1024

/-- Flits of a packet, of 64 bytes each (R357). -/
def FabPacket.flits (p : FabPacket) : Nat := ceilDiv p.bytes 64

/-- The packets that `n` bytes of contents take, at most `fuel`. -/
def packetsOf (src dst : FabUnit) (chan : FabChan) (fuel n : Nat) : List FabPacket :=
  match fuel with
  | 0 => []
  | k + 1 =>
    let m := min n chan.most
    ⟨src, dst, chan, 16 + m, 0⟩ :: (if n ≤ chan.most then [] else packetsOf src dst chan k (n - m))

/-! ### Endpoints (R361, R362) -/

/-- Die of an HBM stack (R26). -/
def dieOfStack (n : Nat) : Nat := n / 2 % 2

/-- Die of an endpoint (R26). -/
def FabUnit.die (u : FabUnit) : Nat :=
  match u with
  | .portMac ph => ph.val / 2
  | .hbm c => dieOfStack (c / 32)
  | .furrow n => n / 20 % 2
  | .tilth t => t / 2 % 2
  | .transport d => d.val
  | .cipher d => d.val
  | .collective d => d.val
  | .copy d => d.val
  | .link l => l.val / 2
  | .headland => Config.headlandDie.val

/-- A number of its own for each endpoint; 1,000 and 1,001 are the die-to-die ends. -/
def FabUnit.code (u : FabUnit) : Nat :=
  match u with
  | .portMac ph => ph.val
  | .link l => 10 + l.val
  | .transport d => 20 + d.val
  | .cipher d => 30 + d.val
  | .collective d => 40 + d.val
  | .copy d => 50 + d.val
  | .headland => 60
  | .tilth t => 70 + t
  | .furrow n => 100 + n
  | .hbm c => 200 + c

/-- Entries of an endpoint's crossing queue and the bytes of each (R362). -/
def FabUnit.crossing (u : FabUnit) : Nat × Nat :=
  match u with
  | .portMac _ => (256, 64)
  | .hbm _ => (64, 64)
  | .furrow _ => (128, 64)
  | .tilth _ => (128, 64)
  | .transport _ => (128, 64)
  | .cipher _ => (128, 64)
  | .collective _ => (128, 64)
  | .copy _ => (128, 64)
  | .link _ => (512, 64)
  | .headland => (64, 32)

/-- Entries that packets take in an endpoint's crossing queue. -/
def FabUnit.entries (u : FabUnit) (l : List FabPacket) : Nat := (l.map (fun p => ceilDiv p.bytes u.crossing.2)).sum

/-- A packet on channel `c` may wait for space that channel `h` holds: never for a lower class, and no response for a request (R358). -/
def FabChan.waitsFor (c h : FabChan) : Bool :=
  match c, h with
  | _, .crsp => true
  | .crsp, _ => false
  | .creq, .creq => true
  | .creq, _ => false
  | .drsp, .creq => false
  | .drsp, .drsp => true
  | .drsp, .dreq => false
  | .dreq, _ => true

/-- The crossing queues of a unit's channel; empty where none is held. -/
def Fabric.cross (b : Fabric) (u : FabUnit) (c : FabChan) : FabCross :=
  (b.crosses.find? (fun q => q.unit == u && q.chan == c)).getD ⟨u, c, [], [], []⟩

/-- The fabric with one unit's queues replaced; empty ones are not held. -/
def Fabric.setCross (b : Fabric) (q : FabCross) : Fabric :=
  let rest := b.crosses.filter (fun r => !(r.unit == q.unit && r.chan == q.chan))
  { b with crosses := if q.wait.isEmpty && q.toFab.isEmpty && q.fromFab.isEmpty then rest else rest ++ [q] }

/-- A unit's crossing queue, one for all its channels each way, has room for a packet; a full one stops its writer (R362, R363). The space
of a channel that the packet's own may not wait for does not count against it (DEDUCED; R358, log entry 47). `side`: the queue into or out
of the fabric. -/
def Fabric.room (b : Fabric) (u : FabUnit) (side : FabCross → List FabPacket) (p : FabPacket) : Bool :=
  let held := (b.crosses.filter (fun q => q.unit == u && p.chan.waitsFor q.chan)).map (fun q => u.entries (side q))
  decide (held.sum + u.entries [p] ≤ u.crossing.1)

/-- Moves a channel's waiting packets into the unit's crossing queue, in order, while it has room (R363). -/
def Fabric.admitN (n : Nat) (b : Fabric) (u : FabUnit) (c : FabChan) : Fabric :=
  match n with
  | 0 => b
  | k + 1 =>
    let q := b.cross u c
    match q.wait with
    | [] => b
    | p :: rest =>
      if b.room u FabCross.toFab p then (b.setCross { q with wait := rest, toFab := q.toFab ++ [p] }).admitN k u c else b

/-- A unit sends packets: they wait behind those already waiting, and enter the crossing queue while it has room (R360, R363). -/
def Fabric.send (b : Fabric) (l : List FabPacket) : Fabric :=
  l.foldl (fun (st : Fabric) p =>
    let q := st.cross p.src p.chan
    (st.setCross { q with wait := q.wait ++ [p] }).admitN (q.wait.length + 1) p.src p.chan) b

/-! ### Routers (R357 to R359) -/

/-- A router's buffer; empty where none is held. -/
def Fabric.buf (b : Fabric) (die x y : Nat) (out : FabOut) (c : FabChan) : FabBuf :=
  (b.bufs.find? (fun q => q.die == die && q.x == x && q.y == y && q.out == out && q.chan == c)).getD ⟨die, x, y, out, c, []⟩

/-- The fabric with one buffer replaced; an empty one is not held. -/
def Fabric.setBuf (b : Fabric) (q : FabBuf) : Fabric :=
  let rest := b.bufs.filter (fun r => !(r.die == q.die && r.x == q.x && r.y == q.y && r.out == q.out && r.chan == q.chan))
  { b with bufs := if q.packets.isEmpty then rest else rest ++ [q] }

/-- A router buffer has room (R360). -/
def FabBuf.open? (q : FabBuf) : Bool := decide (q.packets.length ≤ Config.routerDepth)

/-- Where a packet leaves the mesh of die `die`: at its destination, or at the die-to-die link. -/
def FabPacket.goal (p : FabPacket) (die : Nat) : Nat × Nat :=
  if p.dst.die = die then Config.fabricPlace p.dst.code else Config.fabricPlace (1000 + die)

/-- The outputs of a shortest path that the west-first rule permits: west before anything else (R358). -/
def permitted (x y gx gy : Nat) : List FabOut :=
  if gx < x then [.west]
  else
    let l := (if x < gx then [FabOut.east] else []) ++ (if gy < y then [FabOut.north] else []) ++ (if y < gy then [FabOut.south] else [])
    if l.isEmpty then [.exit] else l

/-- The permitted output with the shallowest queue (R358). -/
def Fabric.choose (b : Fabric) (p : FabPacket) (die x y : Nat) : FabOut :=
  let g := p.goal die
  ((permitted x y g.1 g.2).foldl (fun (best : Option FabOut) o => match best with
    | none => some o
    | some w => if (b.buf die x y o p.chan).packets.length < (b.buf die x y w p.chan).packets.length then some o else best) none).getD .exit

/-- The flow of a packet, if one is in flight. -/
def Fabric.flow (b : Fabric) (p : FabPacket) : Option FabFlow :=
  b.flows.find? (fun w => w.src == p.src && w.dst == p.dst && w.chan == p.chan)

/-- The fabric with a packet's flow changed; one with nothing in flight is forgotten. -/
def Fabric.setFlow (b : Fabric) (w : FabFlow) : Fabric :=
  let rest := b.flows.filter (fun v => !(v.src == w.src && v.dst == w.dst && v.chan == w.chan))
  { b with flows := if w.inFlight = 0 then rest else rest ++ [w] }

/-- The output a packet takes at a router: the one its flow took there while any packet of it is in flight, else a new choice (R359). -/
def Fabric.route (b : Fabric) (p : FabPacket) (die x y : Nat) : FabOut × Fabric :=
  match b.flow p with
  | none => (b.choose p die x y, b)
  | some w => match w.route.find? (fun r => r.1 == (die, x, y)) with
    | some r => (r.2, b)
    | none =>
      let o := b.choose p die x y
      (o, b.setFlow { w with route := w.route ++ [((die, x, y), o)] })

/-- A packet arrives at a router: into the buffer of its output if that has room; none where it has not (R360). -/
def Fabric.arrive (b : Fabric) (p : FabPacket) (die x y : Nat) : Option Fabric :=
  let d := b.route p die x y
  let q := b.buf die x y d.1 p.chan
  if q.open? then some (d.2.setBuf { q with packets := q.packets ++ [{ p with crossed := 0 }] }) else none

/-- Counts a packet's flits on a die (R432). -/
def Fabric.countFlits (b : Fabric) (die : Nat) (p : FabPacket) : Fabric :=
  let add := fun (l : List Nat) => l.set die (satAdd max64 (l.getD die 0) p.flits)
  if p.chan.control then { b with control := add b.control } else { b with data := add b.data }

/-! ### One nanosecond -/

/-- Bytes a router link carries in 1 ns: 64 per cycle at 2.0 GHz (R357). -/
def linkBytes : Nat := 128

/-- Entries of 64 bytes of a die-to-die crossing queue, per channel and direction (R362). -/
def dieDepth : Nat := 1024

/-- A packet that has reached its router output goes on: to the next router, to its unit, or to the die-to-die link; none while what it
enters is full (R360). -/
def Fabric.leave (b : Fabric) (now : Nat) (q : FabBuf) (p : FabPacket) : Option Fabric :=
  match q.out with
  | .west => b.arrive p q.die (q.x - 1) q.y
  | .east => b.arrive p q.die (q.x + 1) q.y
  | .north => b.arrive p q.die q.x (q.y - 1)
  | .south => b.arrive p q.die q.x (q.y + 1)
  | .exit =>
    if p.dst.die = q.die then
      let c := b.cross p.dst p.chan
      if b.room p.dst FabCross.fromFab p then
        let b1 := b.setCross { c with fromFab := c.fromFab ++ [{ p with crossed := 0 }] }
        some (match b1.flow p with
          | some w => b1.setFlow { w with inFlight := w.inFlight - 1 }
          | none => b1)
      else none
    else
      let mine := (b.between.filter (fun e => e.1 == q.die && e.2.1.chan == p.chan)).map (fun e => ceilDiv e.2.1.bytes 64)
      if mine.sum + ceilDiv p.bytes 64 ≤ dieDepth then
        some { b with
          between := b.between ++ [(q.die, { p with crossed := 0 }, now + 20)]
          d2d := b.d2d.set q.die (satAdd max64 (b.d2d.getD q.die 0) p.bytes) }
      else none

/-- Serves one buffer for 1 ns: 128 bytes of its oldest packet cross the link, and a packet that has crossed goes on. `used`: the links
that carried something in this nanosecond already. -/
def Fabric.serveBuf (now : Nat) (a : Fabric × List (Nat × Nat × Nat × FabOut)) (q : FabBuf) : Fabric × List (Nat × Nat × Nat × FabOut) :=
  let key := (q.die, q.x, q.y, q.out)
  match (a.1.buf q.die q.x q.y q.out q.chan).packets with
  | [] => a
  | p :: rest =>
    if a.2.contains key then a
    else
      let done := p.crossed + linkBytes
      let here := a.1.setBuf { q with packets := rest }
      let b1 := if done < p.bytes then some (a.1.setBuf { q with packets := { p with crossed := done } :: rest })
        else here.leave now q p
      match b1 with
      | none => a
      | some b2 =>
        let n := min linkBytes (p.bytes - p.crossed)
        ({ b2 with peak := b2.peak.set q.die (max n (b2.peak.getD q.die 0)) }, key :: a.2)

/-- Every router link serves control ahead of data, and responses ahead of requests (R358). -/
def Fabric.serve (now : Nat) (b : Fabric) : Fabric :=
  let order := [FabChan.crsp, .creq, .drsp, .dreq].flatMap (fun c => b.bufs.filter (fun q => q.chan == c))
  (order.foldl (Fabric.serveBuf now) (b, [])).1

/-- Packets that have crossed the die-to-die link enter the other die's mesh, in order, while there is room (R360). -/
def Fabric.crossDies (now : Nat) (b : Fabric) : Fabric :=
  (b.between.foldl (fun (a : Fabric × List (Nat × FabChan)) e =>
    let die := 1 - e.1
    let at_ := Config.fabricPlace (1000 + die)
    if e.2.2 > now || a.2.contains (e.1, e.2.1.chan) then (a.1, (e.1, e.2.1.chan) :: a.2)
    else match a.1.arrive e.2.1 die at_.1 at_.2 with
      | none => (a.1, (e.1, e.2.1.chan) :: a.2)
      | some b1 => ({ (b1.countFlits die e.2.1) with between := b1.between.erase e }, a.2)) (b, [])).1

/-- A unit takes what has arrived for it, its oldest packet of the channel enters the router at its endpoint, and those that wait take the
room there is. -/
def Fabric.serveCross (b : Fabric) (c : FabCross) : Fabric :=
  let q := b.cross c.unit c.chan
  let b0 := (b.setCross { q with fromFab := [] }).admitN q.wait.length c.unit c.chan
  match q.toFab with
  | [] => b0
  | p :: rest =>
    let die := p.src.die
    let at_ := Config.fabricPlace p.src.code
    let b1 := match b0.flow p with
      | some w => b0.setFlow { w with inFlight := w.inFlight + 1 }
      | none => b0.setFlow ⟨p.src, p.dst, p.chan, 1, []⟩
    match b1.arrive p die at_.1 at_.2 with
    | none => b0
    | some b2 => ((b2.countFlits die p).setCross { q with toFab := rest, fromFab := [] }).admitN q.wait.length c.unit c.chan

/-- What the fabric does in 1 ns. -/
def Fabric.tick (now : Nat) (b : Fabric) : Fabric :=
  let b1 := Fabric.crossDies now (Fabric.serve now b)
  b1.crosses.foldl Fabric.serveCross b1

/-! ### Sending (R357) -/

/-- Packets of a unit's channel wait for room in its crossing queue: the unit itself waits, and begins nothing further there (R360,
R363). -/
def State.fabFull (s : State) (src : FabUnit) (chan : FabChan) : Bool := !(s.fabric.cross src chan).wait.isEmpty

/-- A unit sends `n` bytes to another over the fabric, in as many packets as they take. -/
def State.fabSend (s : State) (src dst : FabUnit) (chan : FabChan) (n : Nat) : State :=
  { s with fabric := s.fabric.send (packetsOf src dst chan (n / chan.most + 1) n) }

/-- The channel of its stack that an HBM address lies in: its 256-byte granule by the hash, over the channels in service (R337, R392). -/
def MemSt.channelAt (m : MemSt) (a : Nat) : Nat :=
  let l := (List.range 32).filter (fun k => !(tgetD m.channelsOut (a / 2 ^ 36 % 4) []).contains k)
  l.getD (Config.channelOf (a / 256) % max 1 l.length) 0

/-- The endpoint of a module-local address: its HBM channel or its Tilth tier (R335, R337, R361). -/
def State.unitOfAddr (s : State) (a : Nat) : FabUnit :=
  if 0x4000000000 ≤ a then
    let f := (a - 0x4000000000) / 0x4000000 % 40
    .tilth (f / 20 * 2 + f % 20 / 10)
  else .hbm (a / 2 ^ 36 % 4 * 32 + s.mem.channelAt a)

/-- The engine a transfer of a function serves, on the function's home die (R26, R361). -/
def Purpose.engine (p : Purpose) (d : DieId) : FabUnit :=
  match p with
  | .copySrc _ _ _ => .copy d
  | .copyTag _ _ _ => .copy d
  | .copyDst _ _ _ => .copy d
  | .copyTagOut _ _ _ => .copy d
  | .copyAgain _ _ _ => .copy d
  | .collIn _ _ _ _ => .collective d
  | .collOut _ _ _ _ => .collective d
  | .collSlot _ _ _ => .collective d
  | .firmware _ => .headland
  | .ringEntry _ _ _ => .copy d
  | _ => .transport d

end Sys2Proof.Machine
end

