-- ==== Sys2Proof/Machine/Ops.lean ====
section
/-! DEFINITION. Machine/Ops.lean: the named operations over the machine: objects by number, always-on counters, free
values, outputs, the event controller with its MSI-X messages, the event mailbox, and the fault queue. -/

namespace Sys2Proof.Machine

/-! ### Functions, links and other objects -/

/-- Function `f`; one never touched is as at reset (R375). -/
def State.func (s : State) (f : FuncId) : Func := tgetD s.funcs f.val (Func.reset f)

/-- The machine with function `f` replaced. -/
def State.setFunc (s : State) (f : FuncId) (v : Func) : State := { s with funcs := tset s.funcs f.val v }

/-- The machine with function `f` changed. -/
def State.modFunc (s : State) (f : FuncId) (g : Func → Func) : State := s.setFunc f (g (s.func f))

/-- Link of a function: number / 64 (R61). -/
def linkOf (f : FuncId) : LinkId := ⟨f.val / 64, by omega⟩

/-- Die of a link: number / 2 (R26). -/
def dieOfLink (l : LinkId) : DieId := ⟨l.val / 2, by omega⟩

/-- Home die of a function: the die of its link (R110, R137). -/
def dieOf (f : FuncId) : DieId := dieOfLink (linkOf f)

/-- Die of a furrow (R26). -/
def dieOfFurrow (n : Nat) : Nat := n / 20

/-- Physical port of a logical port (R228). -/
def physOf (p : LPort) : PhysId := ⟨p.val / 8, by omega⟩

/-- Die of a physical port (R26). -/
def dieOfPort (p : LPort) : DieId := ⟨p.val / 16, by omega⟩

/-- Whether a function is a virtual function (R61). -/
def isVf (f : FuncId) : Bool := f.val % 64 != 0

/-- The physical function of a link. -/
def pfOf (l : LinkId) : FuncId := ⟨l.val * 64, by omega⟩

/-- All functions, rising. -/
def allFuncs : List FuncId := List.finRange 256

/-- The functions of a link, rising. -/
def funcsOfLink (l : LinkId) : List FuncId := allFuncs.filter (fun f => linkOf f == l)

/-- Link `l`; one never touched is as at reset. -/
def State.link (s : State) (l : LinkId) : Link := tgetD s.links l.val Link.reset

/-- The machine with link `l` changed. -/
def State.modLink (s : State) (l : LinkId) (g : Link → Link) : State :=
  { s with links := tset s.links l.val (g (s.link l)) }

/-- Logical port `p` at its defaults (R205, R213, R214, R235, R239, R240, R242 to R247, R255). -/
def PortSt.fresh (p : Nat) : PortSt where
  up := false
  lanes := 8
  peer7440 := false
  reversed := false
  rxHeld := []
  flow := 0
  maxFrame := 9216
  mac := Config.baseMac + BitVec.ofNat 48 p
  pfcClasses := 0
  express := 0
  preempt := false
  addFrag := 0
  preemptActive := false
  verifySent := 0
  strip := false
  tagEn := false
  tpid := 0x88A8
  tci := 0
  xoff := 131072
  xon := 65536
  pfcQuanta := 0xFFFF
  mgmt := []
  filters := []
  rawqs := []
  defaultQ := none
  stats := List.replicate 24 0
  classes := []
  dscpMap := (List.range 64).map (fun d => d / 8)
  members := []
  oper := none
  pend := none
  switchAt := 0
  removing := false
  gateIdx := 0
  gateAt := 0
  gateOversize := 0
  paused := false
  sending := none
  sendingAt := 0
  pendClasses := []
  suspended := none
  lastClass := 0
  own := []

/-- Logical port `p`; one never touched is at its defaults. -/
def State.port (s : State) (p : LPort) : PortSt := tgetD s.ports p.val (PortSt.fresh p.val)

/-- The machine with logical port `p` changed. -/
def State.modPort (s : State) (p : LPort) (g : PortSt → PortSt) : State :=
  { s with ports := tset s.ports p.val (g (s.port p)) }

/-- Physical port `ph`; one never touched is as at reset. -/
def State.physPort (s : State) (ph : PhysId) : PhysSt := tgetD s.phys ph.val PhysSt.reset

/-- The machine with physical port `ph` changed. -/
def State.modPhys (s : State) (ph : PhysId) (g : PhysSt → PhysSt) : State :=
  { s with phys := tset s.phys ph.val (g (s.physPort ph)) }

/-- Class `c` of a logical port (R213). -/
def PortSt.cls (p : PortSt) (c : Nat) : ClassCfg := tgetD p.classes c ClassCfg.reset

/-- The port with class `c` changed. -/
def PortSt.modCls (p : PortSt) (c : Nat) (g : ClassCfg → ClassCfg) : PortSt :=
  { p with classes := tset p.classes c (g (p.cls c)) }

/-- Work ring `r` of function `f`. -/
def State.ring (s : State) (f : FuncId) (r : Nat) : Option Ring := tget (s.func f).rings r

/-- The machine with an existing work ring changed. -/
def State.modRing (s : State) (f : FuncId) (r : Nat) (g : Ring → Ring) : State :=
  s.modFunc f (fun v => { v with rings := tmod v.rings r g })

/-- Completion ring `c` of function `f`. -/
def State.cq (s : State) (f : FuncId) (c : Nat) : Option Cq := tget (s.func f).cqs c

/-- The machine with an existing completion ring changed. -/
def State.modCq (s : State) (f : FuncId) (c : Nat) (g : Cq → Cq) : State :=
  s.modFunc f (fun v => { v with cqs := tmod v.cqs c g })

/-- The machine with an existing connection changed. -/
def State.modConn (s : State) (n : Nat) (g : Conn → Conn) : State := { s with conns := tmod s.conns n g }

/-- Connection `n`. -/
def State.conn (s : State) (n : Nat) : Option Conn := tget s.conns n

/-- The machine with an existing program changed. -/
def State.modProg (s : State) (n : Nat) (g : Prog → Prog) : State := { s with progs := tmod s.progs n g }

/-- Program `n`. -/
def State.prog (s : State) (n : Nat) : Option Prog := tget s.progs n

/-- The machine with the sending half of a connection changed. -/
def State.modTx (s : State) (n : Nat) (g : Tx → Tx) : State := s.modConn n (fun c => { c with tx := g c.tx })

/-- The machine with the receiving half of a connection changed. -/
def State.modRx (s : State) (n : Nat) (g : Rx → Rx) : State := s.modConn n (fun c => { c with rx := g c.rx })

/-- The machine with a connection's statistics changed. -/
def State.modConnStats (s : State) (n : Nat) (g : ConnStats → ConnStats) : State :=
  s.modConn n (fun c => { c with stats := g c.stats })

/-- Share of resource `code` of function `f`: 0, or 1 for VECTORS, where none is set (R376, R381). -/
def State.share (s : State) (f : FuncId) (code : Nat) : Nat :=
  tgetD (s.func f).shares code (if code = 14 then 1 else 0)

/-- VECTORS of a function (R381). -/
def State.vectors (s : State) (f : FuncId) : Nat := s.share f 14

/-- The data path is out of service: safe mode, or the RETURNED and DECOMMISSIONED states (R410, R424). -/
def State.dataPathOff (s : State) : Bool := s.safeHeld || s.mram.lc == 3 || s.mram.lc == 4

/-- A function is fenced in FENCED, CLEANING and DESTROYING (R375). -/
def FuncState.isFenced (st : FuncState) : Bool :=
  match st with
  | .fenced => true
  | .cleaning => true
  | .destroying => true
  | .disabled => false
  | .unprovisioned => false
  | .active => false

/-- ID_STATUS FENCED of function `f` (R64, R375). -/
def State.fenced (s : State) (f : FuncId) : Bool := (s.func f).state.isFenced

/-- Runs `g` for each item in turn. -/
def forEach {α : Type} (l : List α) (s : State) (g : State → α → State) : State := l.foldl g s

/-! ### Always-on counters (R430) -/

/-- Adds `n` to module-wide counter `i` of a group (R432). -/
def State.countGlobal (s : State) (group i n : Nat) : State :=
  let k := group * 1024 + i
  { s with globals := tset s.globals k (satAdd max64 (tgetD s.globals k 0) n) }

/-- Place among the four counters of group 5 (R432). -/
def groupIndex (i : Nat) : Option Nat :=
  if i = 13 then some 0 else if i = 15 then some 1 else if i = 16 then some 2 else if i = 22 then some 3 else none

/-- Raises a peak among the module-wide counters (R432). -/
def State.peakGlobal (s : State) (group i v : Nat) : State :=
  let k := group * 1024 + i
  { s with globals := tset s.globals k (max v (tgetD s.globals k 0)) }

/-- Adds `n` to counter `i` of function `f`, and to its place in group 5 of the module-wide counters (R429, R430,
R432). -/
def State.count (s : State) (f : FuncId) (i n : Nat) : State :=
  let s1 := s.modFunc f (fun v =>
    { v with cnt := { v.cnt with live := v.cnt.live.set i (satAdd max64 (v.cnt.live.getD i 0) n) } })
  match groupIndex i with
  | some j => s1.countGlobal 5 (4 * f.val + j) n
  | none => s1

/-- ERR_REG_ACCESS (R430). -/
def cntRegAccess : Nat := 0
/-- ERR_DOORBELL. -/
def cntDoorbell : Nat := 1
/-- ERR_PROTOCOL. -/
def cntProtocol : Nat := 2
/-- WIN_FAULT. -/
def cntWinFault : Nat := 3
/-- REGION_FAULT. -/
def cntRegionFault : Nat := 4
/-- TRANSLATION_FAULT. -/
def cntTranslationFault : Nat := 5
/-- MISS_DROP. -/
def cntMissDrop : Nat := 6
/-- CQ_SPILLING. -/
def cntCqSpilling : Nat := 7
/-- CQ_BACKPRESSURE. -/
def cntCqBackpressure : Nat := 8
/-- DIRECT_BYTES; DIRECT_TLPS is the next. -/
def cntDirectBytes : Nat := 9
/-- VIA_ROOT_BYTES; VIA_ROOT_TLPS is the next. -/
def cntViaRootBytes : Nat := 11
/-- WR_COMPLETED. -/
def cntWrCompleted : Nat := 13
/-- WR_FAILED. -/
def cntWrFailed : Nat := 14
/-- NET_TX_BYTES. -/
def cntNetTx : Nat := 15
/-- NET_RX_BYTES. -/
def cntNetRx : Nat := 16
/-- RETRANSMISSIONS. -/
def cntRetransmissions : Nat := 17
/-- RNR_RECEIVED. -/
def cntRnrReceived : Nat := 18
/-- AUTH_FAILURES. -/
def cntAuthFailures : Nat := 19
/-- COPY_BYTES. -/
def cntCopyBytes : Nat := 20
/-- RUNS. -/
def cntRuns : Nat := 21
/-- TINE_CYCLES. -/
def cntTineCycles : Nat := 22
/-- MEMORY_ERROR. -/
def cntMemoryError : Nat := 23
/-- EVENTS. -/
def cntEvents : Nat := 24
/-- MAILBOX_COMMANDS. -/
def cntMailbox : Nat := 25

/-- Adds `n` to counter `i` of logical port `p` (R254). -/
def State.countPort (s : State) (p : LPort) (i n : Nat) : State :=
  s.modPort p (fun q => { q with stats := q.stats.set i (satAdd max64 (q.stats.getD i 0) n) })

/-! ### Outputs and free values -/

/-- The link that an output travels on, if it is a TLP. -/
def Emit.tlp : Emit → Option LinkId
  | .memWrite l _ _ _ _ _ => some l
  | .memRead l _ _ _ _ _ => some l
  | .flushRead l _ _ _ => some l
  | .msix f _ _ _ => some (linkOf f)
  | .readData f _ _ => some (linkOf f)
  | .translationRequest l _ _ _ _ => some l
  | .pageRequest l _ _ _ _ => some l
  | .invalidateCompletion l _ => some l
  | .l1Request _ => none
  | .frame _ _ _ => none
  | .abort _ => none
  | .pause _ _ => none
  | .pfc _ _ _ => none
  | .verify _ => none
  | .respond _ => none
  | .smbus _ => none
  | .smbusNak => none
  | .ppsOut _ => none

/-- The links with one out of L1 and at full transmit width (R421). -/
def wakeLink (t : Tbl Link) (l : LinkId) : Tbl Link :=
  match tget t l.val with
  | some k => if k.l1 || k.l0p then tset t l.val { k with l1 := false, l0p := false } else t
  | none => t

/-- The machine having put `e` out; a TLP takes its link out of L1 and widens it again (R421). -/
def State.emit (s : State) (e : Emit) : State :=
  { s with
    out := s.out ++ [e]
    links := match e.tlp with
      | some l => wakeLink s.links l
      | none => s.links }

/-- Takes the next free value: its number, and the machine having used it (log entry 2). -/
def State.fresh (s : State) : Nat × State := (s.free, { s with free := s.free + 1 })

/-- Takes the next number for a transfer, flush, translation request or invalidation. -/
def State.newId (s : State) : Nat × State := (s.nextId, { s with nextId := s.nextId + 1 })

/-! ### The event controller (R74 to R79) -/

/-- PRIO of a source: bits 27:24 of its route entry (R75). -/
def Evc.prio (e : Evc) (src : Nat) : Nat := bits (tgetD e.route src 0).toNat 27 24

/-- EN of a source: bit 31 (R75). -/
def Evc.en (e : Evc) (src : Nat) : Bool := bit (tgetD e.route src 0).toNat 31

/-- VECTOR of a source: bits 10:0 (R75). -/
def Evc.vector (e : Evc) (src : Nat) : Nat := bits (tgetD e.route src 0).toNat 10 0

/-- EVC_RUNNING: the highest priority among active sources, 0 if none is active (R75). -/
def Evc.running (e : Evc) : Nat := e.active.foldl (fun m src => max m (e.prio src)) 0

/-- A source is eligible: pending, EN, PRIO above THRESHOLD and above RUNNING (R76). -/
def Evc.eligible (e : Evc) (src : Nat) : Bool :=
  e.pending.contains src && e.en src && decide (e.prio src > e.threshold.toNat) && decide (e.prio src > e.running)

/-- The eligible sources, rising. -/
def Evc.eligibles (e : Evc) : List Nat := e.pending.filter e.eligible

/-- The vectors whose group has an eligible source, rising (R79). -/
def Evc.groups (e : Evc) : List Nat := (e.eligibles.map e.vector).foldl linsert []

/-- The source a claim returns: highest PRIO, then lowest number (R77). -/
def Evc.best (e : Evc) : Option Nat :=
  e.eligibles.foldl (fun b src => match b with
    | none => some src
    | some c => if e.prio src > e.prio c || (e.prio src == e.prio c && decide (src < c)) then some src else some c) none

/-- MSI-X entry `v` of a function (R82). -/
def Msix.entry (m : Msix) (v : Nat) : MsixEntry := tgetD m.table v MsixEntry.reset

/-- Sends the message of vector `v` of function `f`: masked, it sets the pending bit instead; beyond the table, nothing
happens; in D3hot no message is sent, and one sent while the link is down is lost (R79, R81, R419). -/
def State.sendVector (s : State) (f : FuncId) (v : Nat) : State :=
  let fn := s.func f
  if v ≥ s.vectors f ∨ fn.cfg.d3hot then s
  else if fn.msix.fmask ∨ (fn.msix.entry v).masked then
    s.modFunc f (fun w => { w with msix := { w.msix with pba := linsert w.msix.pba v } })
  else if !(s.link (linkOf f)).up then s
  else s.emit (.msix f v (fn.msix.entry v).addr (fn.msix.entry v).data)

/-- Replaces the event controller of `f`; every group that changed from no eligible source to some sends its vector's
message, if MSG_EN and MSI-X Enable are set (R79). -/
def State.setEvc (s : State) (f : FuncId) (e : Evc) : State :=
  let old := (s.func f).evc.groups
  let s1 := s.modFunc f (fun w => { w with evc := e })
  if e.msgEn && (s.func f).msix.enable then
    forEach (e.groups.filter (fun v => !old.contains v)) s1 (fun st v => st.sendVector f v)
  else s1

/-- One message for every group with an eligible source, as when messages become possible (R79). -/
def State.sendAllGroups (s : State) (f : FuncId) : State :=
  if (s.func f).evc.msgEn && (s.func f).msix.enable then
    forEach (s.func f).evc.groups s (fun st v => st.sendVector f v)
  else s

/-- Sources 0 to 3 and 16 to 4,094 can be signalled (R74). -/
def validSource (src : Nat) : Bool := decide (src ≤ 3) || (decide (16 ≤ src) && decide (src ≤ 4094))

/-- Signals source `src` of function `f`: pending is set (R76), the signal is counted (R430). A fenced function's
events are not delivered (R82). The event message crosses the fabric from the function's home die to Headland (R357, log entry 47). -/
def State.signal (s : State) (f : FuncId) (src : Nat) : State :=
  if !validSource src || s.fenced f then s
  else
    let e := (s.func f).evc
    ((s.fabSend (.transport (dieOf f)) .headland .crsp 8).count f cntEvents 1).setEvc f { e with pending := linsert e.pending src }

/-- Withdraws source `src`: pending is cleared, active unchanged (R76). -/
def State.withdraw (s : State) (f : FuncId) (src : Nat) : State :=
  let e := (s.func f).evc
  s.setEvc f { e with pending := lerase e.pending src }

/-- Signals a bound source; 0 means none is bound. -/
def State.signalBound (s : State) (f : FuncId) (src : Nat) : State := if src = 0 then s else s.signal f src

/-! ### The event mailbox (R48 to R52) -/

/-- The ring of records is full: indices equal, WRAP bits differ (R48). -/
def Mbx.full (m : Mbx) : Bool := m.evtProd - m.evtCons == 64#7

/-- Records in the ring (R48). -/
def Mbx.occupied (m : Mbx) : Nat := (m.evtProd - m.evtCons).toNat

/-- Writes a record into the slot at MBX_EVT_PROD and advances it (R48). -/
def Mbx.push (m : Mbx) (r : EvtRec) : Mbx :=
  { m with evtSlots := tset m.evtSlots (m.evtProd.toNat % 64) r, evtProd := m.evtProd + 1 }

/-- Adds a record: to the ring while it is not full and the backlog is empty; else to the backlog of 192, where a newer
PROGRESS record replaces an older one of the same token; else it is discarded and counted (R52). -/
def Mbx.add (m : Mbx) (r : EvtRec) : Mbx :=
  let m1 := { m with seq := add32 m.seq 1 }
  if !m.full && m.backlog.isEmpty then m1.push r
  else
    let older := fun (q : EvtRec) => r.kind == 0x0001 && q.kind == 0x0001 && q.token == r.token
    if m.backlog.any older then
      { m1 with backlog := m.backlog.filter (fun q => !older q) ++ [r] }
    else if m.backlog.length < 192 then { m1 with backlog := m.backlog ++ [r] }
    else { m1 with lost := satAdd max32 m.lost 1,
                   marker := (m.marker.1 + 1, if m.marker.1 = 0 then r.seq else m.marker.2) }

/-- Moves backlog records into the ring in order while there is room (R52). -/
def Mbx.refillN (n : Nat) (m : Mbx) : Mbx :=
  match n with
  | 0 => m
  | k + 1 =>
    match m.backlog with
    | [] => m
    | r :: rest => if m.full then m else Mbx.refillN k ({ m with backlog := rest }.push r)

/-- Posts an event record to function `f` and signals source 1 when it is written into the ring with EVT_EN set
(R35, R49, R52). -/
def State.post (s : State) (f : FuncId) (kind token : BitVec 16) (body : Bytes) : State :=
  let m := (s.func f).mbx
  let r : EvtRec := ⟨kind, token, m.seq, s.time, payload48 body⟩
  let m1 := m.add r
  let s1 := s.modFunc f (fun w => { w with mbx := m1 })
  if m1.evtProd ≠ m.evtProd ∧ m.evtEn then s1.signal f 1 else s1

/-- Refills the ring from the backlog, and after its last record writes the LOST_MARKER if records were discarded
(R52). -/
def State.refillEvents (s : State) (f : FuncId) : State :=
  let m := (s.func f).mbx
  let m1 := Mbx.refillN 64 m
  let m2 := if m1.backlog.isEmpty && decide (m1.marker.1 > 0) then
      { m1.add ⟨0x0002, 0, m1.seq, s.time, payload48 (leBytes 8 m1.marker.1 ++ leBytes 4 m1.marker.2)⟩ with marker := (0, 0) }
    else m1
  let s1 := s.modFunc f (fun w => { w with mbx := m2 })
  if m2.evtProd ≠ m.evtProd ∧ m.evtEn then s1.signal f 1 else s1

/-- The functions that have mailboxes: those not DISABLED (R375). -/
def State.liveFuncs (s : State) : List FuncId := allFuncs.filter (fun f => (s.func f).state != .disabled)

/-- Posts a FALLOW record to the manager and to the functions that hold the unit (R394, R395). -/
def State.postFallow (s : State) (kind action unit addr sparesLeft before after : Nat) (holders : List FuncId) : State :=
  let body := leBytes 1 kind ++ leBytes 1 action ++ zeros 2 ++ leBytes 4 unit ++ leBytes 8 addr ++
    leBytes 4 sparesLeft ++ zeros 4 ++ leBytes 8 before ++ leBytes 8 after
  forEach (s.manager :: holders.filter (fun f => f != s.manager)) s (fun st f => st.post f 0x0004 0 body)

/-! ### Trace and faults (R433 to R440) -/

/-- The per-die number at `d` of a list. -/
def nth2 (l : List Nat) (d : Nat) : Nat := l.getD d 0

/-- Slots of a die's half of the trace area: TRACE_MIB × 16,384 (R436). -/
def State.traceSlots (s : State) : Nat := s.mem.layout.traceMib * 16384

/-- Tokens of a die's bucket refilled up to now: 120 records per µs, at most 4,096 (R435, R437). -/
def Trace.refill (t : Trace) (now : Nat) : Trace :=
  let add := (now - t.tokensAt) * 12 / 100
  { t with tokens := t.tokens.map (fun n => min 4096 (n + add)), tokensAt := if add = 0 then t.tokensAt else now }

/-- The records of die `d`. -/
def Trace.recs (t : Trace) (d : Nat) : Tbl TraceRec := if d = 0 then t.recs0 else t.recs1

/-- The trace with the records of die `d` replaced. -/
def Trace.setRecs (t : Trace) (d : Nat) (r : Tbl TraceRec) : Trace :=
  if d = 0 then { t with recs0 := r } else { t with recs1 := r }

/-- Writes one record into die `d`'s next slot and moves the states of R436 on. -/
def Trace.write (t : Trace) (slots d : Nat) (r : TraceRec) : Trace :=
  let n := nth2 t.nextSlot d
  let nxt := if n + 1 ≥ slots then 1 else n + 1
  let t1 := { t.setRecs d (tset (t.recs d) n r) with
    written := t.written.set d (nth2 t.written d + 1), nextSlot := t.nextSlot.set d nxt }
  match t.state with
  | .active => if !t.wrap && decide (n + 1 ≥ slots) then { t1 with state := .stopped } else t1
  | .triggered =>
    let left := nth2 t.post d - 1
    let t2 := { t1 with post := t.post.set d left }
    if nth2 t2.post 0 = 0 ∧ nth2 t2.post 1 = 0 then { t2 with state := .stopped } else t2
  | .idle => t1
  | .stopped => t1

/-- Records a trace trigger: slot 0, and the move of R436; later triggers are counted (R437). -/
def Trace.trigger (t : Trace) (slots : Nat) (r : TraceRec) : Trace :=
  if t.state = .idle then t
  else match t.slot0 with
    | some _ => { t with ignored := satAdd max32 t.ignored 1 }
    | none =>
      let t1 := { t with slot0 := some r }
      match t.state with
      | .active =>
        if t.wrap then
          let post := (slots - 1) * (100 - t.prePercent) / 100
          if post = 0 then { t1 with state := .stopped } else { t1 with state := .triggered, post := [post, post] }
        else { t1 with state := .stopped }
      | .idle => t1
      | .triggered => t1
      | .stopped => t1

/-- The STARTED record without an outcome, if the boot log ends with one (R409). -/
def Mram.openRecord (m : Mram) : Option BootRec :=
  match m.bootLog.getLast? with
  | some r => if r.result = 0 then some r else none
  | none => none

/-- A furrow's clock set, in per mille of 1.25 GHz (R294). -/
def TineArray.setClock (t : TineArray) (f c : Nat) : TineArray := { t with clock := if c ≥ 1000 then tdel t.clock f else tset t.clock f c }

/-- GROUP and INDEX of a clock domain: the rows of R361 in order (R447). -/
def domainGroup (d : Nat) : Nat × Nat :=
  if d < 128 then (0, d) else if d < 168 then (1, d - 128) else if d < 208 then (2, d - 168) else if d < 220 then (3, d - 208)
  else if d < 224 then (4, d - 220) else if d < 228 then (5, d - 224) else if d < 232 then (6, d - 228) else (7, d - 232)

/-- Domains that stop: HBM channels, furrows, engines and Tilth tiers (R445). -/
def domainStops (d : Nat) : Bool := [0, 2, 3, 4].contains (domainGroup d).1

/-- FREQ_KHZ of a domain: HBM channels 1.6 GHz, a furrow its clock, the two fabrics 2.0 GHz; the manual gives no other clock. DESIGN
CHOICE: the domains of R361's fourth row come kind by kind, die by die, so the fabrics are its INDEX 8 and 9 (R294, R357, R447; log entry
59). -/
def State.freqKhz (s : State) (d : Nat) : Nat :=
  match domainGroup d with
  | (0, _) => 1600000
  | (2, k) => 1250 * tgetD s.tines.clock k 1000
  | (3, 8) => 2000000
  | (3, 9) => 2000000
  | _ => (Config.domainKhz d).toNat

/-- The free-running counter of a domain, 64 bits (R362, R447). -/
def State.domainCount (s : State) (d : Nat) : Nat := s.clocks.getD d 0 / 1000000 % 2 ^ 64

/-- The counters 1 ns later, each at its domain's frequency; a domain that a global stop froze has latched its own, which runs on (R362,
R445): DEDUCED, R447's formula holds at every later latch then (log entry 159). -/
def State.countClocks (s : State) : State := { s with clocks := (List.range 236).map (fun d => s.clocks.getD d 0 + s.freqKhz d) }

/-- Latches every domain's counter and marks the module stopped (R445). -/
def State.startStop (s : State) (byPin : Bool) : State :=
  if s.stop.stopped then s
  else { s with stop := { s.stop with stopped := true, byPin := byPin, rootTime := s.time,
                                      counts := (List.range 236).map s.domainCount } }

/-- A trigger of the trace, with the global stop of STOP_ON_TRIGGER (R437, R445). -/
def State.traceTrigger (s : State) (kind object source : Nat) : State :=
  let first := s.trace.state != .idle && s.trace.slot0.isNone
  let s1 := { s with trace := s.trace.trigger s.traceSlots ⟨s.time, 0x0F, 0, 0xFFFF, kind, object, source, 0⟩ }
  if first && s.trace.stopOnTrigger then s1.startStop false else s1

/-- A global stop starts; it is a trigger of the trace (R437, R445). -/
def State.globalStop (s : State) (byPin : Bool) : State :=
  if s.stop.stopped then s else (s.startStop byPin).traceTrigger 0 0 3

/-- Die `d` writes records: the trace is ACTIVE, or TRIGGERED with some of the die's POST records left (R436). -/
def Trace.takes (t : Trace) (d : Nat) : Bool :=
  match t.state with
  | .active => true
  | .triggered => decide (nth2 t.post d > 0)
  | .idle => false
  | .stopped => false

/-- Counts a record of die `d` as dropped (R435, R436). -/
def Trace.drop (t : Trace) (d : Nat) : Trace := { t with dropped := t.dropped.set d (nth2 t.dropped d + 1) }

/-- Writes a record of die `d` where the trace takes one, or drops it. -/
def Trace.put (t : Trace) (slots d : Nat) (r : TraceRec) : Trace := if t.takes d then t.write slots d r else t.drop d

/-- A record of die `d` and, before it, the DROP_MARKER of those dropped since the last one kept. Each takes a token, so that the bucket
holds the writes: DEDUCED, R437 lets the TRIGGER record alone pass it (R435, log entry 163). -/
def Trace.add (t : Trace) (slots d : Nat) (r : TraceRec) : Trace :=
  let mark := nth2 t.toMark d
  let need := if mark = 0 then 1 else 2
  if !t.takes d then t.drop d
  else if nth2 t.tokens d < need then { t.drop d with toMark := t.toMark.set d (mark + 1) }
  else
    let t1 := { t with tokens := t.tokens.set d (nth2 t.tokens d - need), toMark := t.toMark.set d 0 }
    (if mark = 0 then t1 else t1.put slots d ⟨r.time, 0x0E, d, r.func, 0, 0, mark, 0⟩).put slots d r

/-- Generates a trace record of die `d` (R433 to R437): filtered by KIND_MASK and FUNC, held by the token bucket, and
checked against the trigger condition. It crosses the fabric to a stack of its die (R357). A DROP_MARKER has the FUNC of the record it
precedes: DESIGN CHOICE, the manual does not say whose it is (log entry 163). -/
def State.traceRecord (s : State) (d : DieId) (f : FuncId) (kind object other value waitNs : Nat) : State :=
  let t := s.trace.refill s.time
  if t.state = .idle ∨ !bit t.kindMask.toNat kind ∨ (t.func ≠ 0xFFFF ∧ t.func ≠ f.val) then s
  else
    let s := s.fabSend (.transport d) (.hbm (64 * d.val)) .creq 48
    let r : TraceRec := ⟨s.time, kind, d.val, f.val, object, other, value, min waitNs max32⟩
    let s1 := { s with trace := t.add s.traceSlots d.val r }
    if kind = t.trigKind ∧ (t.trigObject = 0xFFFFFFFF ∨ t.trigObject = object) then s1.traceTrigger kind object 0
    else s1

/-- Records a fault: queued while fewer than 4,095 records are, else a marker counts it; kept in the MRAM log of 1,024;
its class's summary counter advances; it is counted for the FAULT_SUMMARY of its function; it may trigger the trace
(R437 to R440). `f` none stands for no function. -/
def State.fault (s : State) (cls code : Nat) (f : Option FuncId) (object detail address : Nat) : State :=
  let fn := match f with | some g => g.val | none => 0xFFFF
  let r : FaultRec := ⟨s.time, s.faultSeq, cls, code, fn, object, detail, address⟩
  let q :=
    if s.faults.length < 4095 then s.faults ++ [r]
    else match s.faults.getLast? with
      | some l =>
        if l.cls = 0xFF then s.faults.dropLast ++ [{ l with detail := satAdd max32 l.detail 1 }]
        else s.faults ++ [⟨s.time, s.faultSeq, 0xFF, 0, 0xFFFF, 0, 1, 0⟩]
      | none => s.faults ++ [r]
  let s1 := { s with
    faults := q
    faultSeq := add32 s.faultSeq 1
    faultSummary := tset s.faultSummary cls (satAdd max64 (tgetD s.faultSummary cls 0) 1)
    mram := { s.mram with faultLog := (s.mram.faultLog ++ [r]).drop (s.mram.faultLog.length + 1 - 1024) } }
  let s2 := match f with
    | none => s1
    | some g => s1.modFunc g (fun w => { w with
        faultCounts := tset w.faultCounts cls (satAdd max32 (tgetD w.faultCounts cls 0) 1)
        faultFirst := match w.faultFirst with | none => some s.faultSeq | some n => some n })
  if s.trace.trigFaultClass = cls ∧ cls ≠ 0 then s2.traceTrigger cls object 2 else s2

end Sys2Proof.Machine
end

