-- ==== Sys2Proof/Machine/Targets.lean ====
section
/-! DEFINITION. Machine/Targets.lean: the fields of ring entries (R102, R119, R120, R149, R262 to R264), and the bytes of module memory that
a pending operation will write, which are undefined until it completes (R19, R121, R132, R158). -/

namespace Sys2Proof.Machine

/-! ### Regions (R84 to R86) -/

/-- INDEX of a region key: bits 19:0 (R85). -/
def keyIndex (k : Word32) : Nat := bits k.toNat 19 0

/-- GEN of a region key: bits 31:20 (R85). -/
def keyGen (k : Word32) : Nat := bits k.toNat 31 20

/-- The live region a key names: INDEX names it and GEN matches (R86 check 1). -/
def State.region (s : State) (k : Word32) : Option Region :=
  match tget s.regions (keyIndex k) with
  | some r => if r.gen = keyGen k then some r else none
  | none => none

/-- Whether two ranges meet. -/
def overlap (a n b m : Nat) : Bool := decide (0 < n) && decide (0 < m) && decide (a < b + m) && decide (b < a + n)

/-- Where the bytes of a MODULE region lie: runs (address, length), in order. -/
def Region.runs (r : Region) : List (Nat × Nat) := if r.extents.isEmpty then [(r.base, r.length)] else r.extents

/-- The run of a list that holds byte `off`: its address and the bytes left of it. -/
def findRun : List (Nat × Nat) → Nat → Option (Nat × Nat)
  | [], _ => none
  | (a, n) :: rest, off => if off < n then some (a + off, n - off) else findRun rest (off - n)

/-- Module-local address of byte `off` of a MODULE region, and how many bytes follow it in one run. -/
def Region.place (r : Region) (off : Nat) : Nat × Nat := (findRun r.runs off).getD (r.base + off, r.length - off)

/-! ### Entries of rings (R102, R149, R150) -/

/-- OPCODE of a first entry (R102). -/
def entOp (e : Bytes) : Nat := leAt e 0 1

/-- LENGTH. -/
def netLen (e : Bytes) : Nat := leAt e 32 4
/-- LOCAL_KEY. -/
def netKey (e : Bytes) : Word32 := BitVec.ofNat 32 (leAt e 20 4)
/-- LOCAL_OFFSET. -/
def netOff (e : Bytes) : Nat := leAt e 24 8
/-- REMOTE_KEY. -/
def netRKey (e : Bytes) : Nat := leAt e 36 4
/-- REMOTE_OFFSET. -/
def netROff (e : Bytes) : Nat := leAt e 40 8

/-- The extension of a kind, if the request has one. -/
def Job.ext (j : Job) (kind : Nat) : Option Bytes := j.exts.find? (fun x => entOp x == kind)

/-- A request that has a status: it waits for its turn to complete, or is completing (R106). -/
def Job.done (j : Job) : Bool := j.phase == .finished || j.phase == .retiring

/-! ### A COPY (R119, R120) -/

/-- LENGTH of a COPY. -/
def copyLen (e : Bytes) : Nat := leAt e 40 8

/-- The runs of a side of a COPY: (offset, bytes) of each line (R120). -/
def copyRuns (off lineLen stride lines : Nat) : List (Nat × Nat) := (List.range lines).map (fun i => (off + i * stride, lineLen))

/-- The lines of the source (`at_` 4) or destination (`at_` 16): LINE_LEN, STRIDE, LINES (R120). -/
def copySide (j : Job) (at_ : Nat) : Nat × Nat × Nat :=
  match j.ext 1 with
  | none => (copyLen j.ent, 0, 1)
  | some x => (leAt x at_ 4, leAt x (at_ + 4) 4, leAt x (at_ + 8) 4)

/-- The source runs. -/
def copySrcRuns (j : Job) : List (Nat × Nat) := let p := copySide j 4; copyRuns (leAt j.ent 24 8) p.1 p.2.1 p.2.2

/-- The destination runs. -/
def copyDstRuns (j : Job) : List (Nat × Nat) := let p := copySide j 16; copyRuns (leAt j.ent 32 8) p.1 p.2.1 p.2.2

/-- The span of a side from its offset (R120). -/
def copySpan (p : Nat × Nat × Nat) : Nat := (p.2.2 - 1) * p.2.1 + p.1

/-! ### Fields of a collective (R262 to R264) -/

/-- Bytes of an element of DTYPE `d` (R264). -/
def dtSize (d : Nat) : Nat := if d = 0 then 4 else if d ≤ 2 then 2 else 1

/-- OPCODE (R262). -/
def CollOp.opcode (o : CollOp) : Nat := entOp o.ent
/-- COUNT. -/
def CollOp.count (o : CollOp) : Nat := leAt o.args 12 8
/-- DTYPE_IN. -/
def CollOp.dtIn (o : CollOp) : Nat := leAt o.args 20 1
/-- DTYPE_OUT. -/
def CollOp.dtOut (o : CollOp) : Nat := leAt o.args 21 1
/-- ROOT. -/
def CollOp.rootMember (o : CollOp) : Nat := leAt o.args 28 4

/-- The elements of member `m`'s slice: (first, count) (R262). -/
def CollOp.slice (o : CollOp) (c : Comm) (m : Nat) : Nat × Nat :=
  let q := o.count / max 1 c.members
  (m * q, q)

/-- Output bytes of a member when the operation succeeds (R266). -/
def CollOp.outBytes (o : CollOp) (c : Comm) (e : CollEntry) : Nat :=
  if leAt e.ent 36 4 = 0 then 0
  else if o.opcode = 0x81 then (if e.member = o.rootMember then o.count * dtSize o.dtOut else 0)
  else if o.opcode = 0x83 then (o.slice c e.member).2 * dtSize o.dtOut
  else o.count * dtSize o.dtOut

/-- A communicator of a function. -/
def State.comm (s : State) (f : FuncId) (n : Nat) : Option Comm := tget (s.func f).comms n

/-! ### What a pending operation will write (R19) -/

/-- The parts of `len` bytes from byte `off` of a list of runs. -/
def cutRuns : List (Nat × Nat) → Nat → Nat → List (Nat × Nat)
  | [], _, _ => []
  | (a, n) :: rest, off, len =>
    if off < n then (a + off, min len (n - off)) :: (if len ≤ n - off then [] else cutRuns rest 0 (len - (n - off)))
    else cutRuns rest (off - n) len

/-- Where bytes of a region lie in module memory: in a MODULE region, or in the extents of a HOST region remapped into it (R84, R98). -/
def State.localRuns (s : State) (k : Word32) (off len : Nat) : List (Nat × Nat) :=
  match s.region k with
  | none => []
  | some r =>
    if len = 0 then []
    else if r.kind = .module then cutRuns r.runs off len
    else r.remap.filterMap (fun (e : Nat × Nat) =>
      let a := max off (e.1 * 0x200000)
      let b := min (off + len) ((e.1 + 1) * 0x200000)
      if a < b then some (e.2 + (a - e.1 * 0x200000), b - a) else none)

/-- The runs of a list that meet none of another: an operation's own source stays readable to it (R121). -/
def apartFrom (src l : List (Nat × Nat)) : List (Nat × Nat) := l.filter (fun q => !src.any (fun w => overlap q.1 q.2 w.1 w.2))

/-- The bytes of module memory that a started request of a ring will write: the destination and tag of a COPY, the local side of a READ or
atomic, the buffer of a RECV (R19, R119, R125, R151). -/
def State.jobTargets (s : State) (kind : RingKind) (j : Job) : List (Nat × Nat) :=
  match kind with
  | .copy =>
    let src := (copySrcRuns j).flatMap (fun q => s.localRuns (BitVec.ofNat 32 (leAt j.ent 16 4)) q.1 q.2)
    let dst := (copyDstRuns j).flatMap (fun q => s.localRuns (BitVec.ofNat 32 (leAt j.ent 20 4)) q.1 q.2)
    (if j.phase = .writing ∨ j.done then dst else apartFrom src dst) ++
    (match j.ext 2 with
      | some x => if leAt x 4 1 = 1 then s.localRuns (BitVec.ofNat 32 (leAt x 24 4)) (leAt x 32 8) 16 else []
      | none => [])
  | .send => if entOp j.ent = 0x10 ∨ entOp j.ent = 0x12 then [] else s.localRuns (netKey j.ent) (netOff j.ent) (netLen j.ent)
  | .coll => []

/-- The same of a local member's launched entry (R266); an output that meets the member's input counts once it is being placed. -/
def State.entryTargets (s : State) (o : CollOp) (c : Comm) (e : CollEntry) : List (Nat × Nat) :=
  if e.finished then []
  else apartFrom (s.localRuns (BitVec.ofNat 32 (leAt e.ent 32 4)) (leAt e.ent 40 8) (o.count * dtSize o.dtIn))
    (s.localRuns (BitVec.ofNat 32 (leAt e.ent 36 4)) (leAt e.args 4 8) (o.outBytes c e))

/-- The bytes of packets a connection has taken whose message has not reached its completion point (R158, R176). -/
def State.rxTargets (s : State) (c : Conn) : List (Nat × Nat) :=
  (c.rx.spans.filter (fun w => w.key != 0)).flatMap (fun w => s.localRuns w.key w.off w.len) ++
  (if c.rx.passed.key = 0 then [] else s.localRuns c.rx.passed.key c.rx.passed.base c.rx.passed.got)

/-- The REGION outputs of a program's run in progress, and the tensor a glean of that run will copy (R19, R323, R443); an output that
meets the run's own input counts once it is being written. -/
def State.runTargets (s : State) (p : Prog) : List (Nat × Nat) :=
  match p.current with
  | none => []
  | some r =>
    let runs := fun (out : Bool) => (p.bindings.filter (fun b => b.output == out && b.kind == 0)).flatMap (fun b =>
      s.localRuns (BitVec.ofNat 32 b.a) b.b b.bytes)
    let early := r.phase == .ramping || r.phase == .feeding || r.phase == .computing || r.phase == .gleaning
    (if early then apartFrom (runs false) (runs true) else runs true) ++
    (if p.glean.state = 1 ∧ p.glean.run = r.num then s.localRuns p.glean.key p.glean.offset p.glean.bytes else [])

/-- Every byte of module memory that a pending operation will write or is writing. -/
def State.openRuns (s : State) : List (Nat × Nat) :=
  s.funcs.flatMap (fun (q : Nat × Func) =>
    q.2.rings.flatMap (fun (g : Nat × Ring) => g.2.jobs.flatMap (s.jobTargets g.2.kind)) ++
    q.2.ops.flatMap (fun o => match tget q.2.comms o.comm with
      | some c => o.entries.flatMap (s.entryTargets o c)
      | none => [])) ++
  s.conns.flatMap (fun (q : Nat × Conn) => if q.2.state = .ready then s.rxTargets q.2 else []) ++
  s.progs.flatMap (fun (q : Nat × Prog) => s.runTargets q.2)

end Sys2Proof.Machine
end

