-- ==== Sys2Proof/Machine/Memory.lean ====
section
/-! DEFINITION. Machine/Memory.lean: module memory: the address map (R335 to R340), the pool and shares (R348, R376),
the symbol code with poison (R342 to R345, R470), row repair, retirement and map-out (R386 to R393), and sealed bytes
(R351, R352). -/

namespace Sys2Proof.Machine

/-! ### The address map (R335 to R340) -/

/-- Where Tilth begins (R335). -/
def tilthBase : Nat := 0x4000000000

/-- Populated bytes of a furrow slice (R335, R336). -/
def sliceBytes : Nat := 53687040

/-- Address span of a furrow slice (R335). -/
def sliceSpan : Nat := 0x4000000

/-- Bytes of an HBM granule (R348). -/
def hbmGranule : Nat := 0x200000

/-- Bytes of a Tilth granule (R348). -/
def tilthGranule : Nat := 0x10000

/-- Whether an address lies in Tilth rather than HBM. -/
def inTilth (a : Nat) : Bool := decide (tilthBase ≤ a)

/-- Furrow of a Tilth address. -/
def sliceOf (a : Nat) : Nat := (a - tilthBase) / sliceSpan

/-- Stack of an HBM address (R335). -/
def stackOf (a : Nat) : Nat := a / 2 ^ 36

/-- The first unpopulated address at or above `a` (R335). -/
def holeFrom (a : Nat) : Nat :=
  if a < tilthBase + sliceBytes then tilthBase + sliceBytes
  else if sliceOf a < 40 ∧ (a - tilthBase) % sliceSpan < sliceBytes then tilthBase + sliceOf a * sliceSpan + sliceBytes
  else a

/-- Whether a byte is populated (R335). -/
def populated (a : Nat) : Bool := decide (a < holeFrom a)

/-- Whether every byte of a range is populated. -/
def rangePopulated (a n : Nat) : Bool := populated a && decide (a + n ≤ holeFrom a)

/-- MiB of each stack that its four reserved areas take (R338, R339). -/
def Layout.hbmReservedMib (l : Layout) : Nat := (4096 + 1024 + l.windrowMib + l.traceMib) / 4

/-- Where a stack's pool ends: its lowest reserved byte (R339). -/
def Layout.hbmPoolEnd (l : Layout) (stack : Nat) : Nat := (stack + 1) * 2 ^ 36 - l.hbmReservedMib * 2 ^ 20

/-- Bytes of context cache in a furrow's slice (R340). -/
def cacheBytes (f : Nat) : Nat := if f % 20 < 8 then 0x200000 else 0

/-- Reduction slots in a furrow's slice: half per die, highest furrow first, at most 800 (R340). -/
def Layout.slotsIn (l : Layout) (f : Nat) : Nat :=
  let before := 800 * (19 - f % 20)
  min 800 (l.slots / 2 - before)

/-- Reserved bytes of a furrow's slice (R338, R340). -/
def Layout.tilthReserved (l : Layout) (f : Nat) : Nat :=
  cacheBytes f + l.slotsIn f * 65536 + l.inlineMib.getD f 0 * 0x100000

/-- Bytes of a slice's pool: from offset 0 to the lowest reserved byte, rounded down to 64 KiB (R340). -/
def Layout.tilthPool (l : Layout) (f : Nat) : Nat := (sliceBytes - l.tilthReserved f) / tilthGranule * tilthGranule

/-- Whether the byte lies in reserved memory (R338 to R340). -/
def Layout.reservedByte (l : Layout) (a : Nat) : Bool :=
  if inTilth a then
    populated a && decide (sliceBytes - l.tilthReserved (sliceOf a) ≤ (a - tilthBase) % sliceSpan)
  else decide (l.hbmPoolEnd (stackOf a) ≤ a)

/-- Whether a granule lies wholly in the pool of R348, before any loss. -/
def Layout.poolGranule (l : Layout) (a : Nat) : Bool :=
  if inTilth a then populated a && decide ((a - tilthBase) % sliceSpan + tilthGranule ≤ l.tilthPool (sliceOf a))
  else decide (a + hbmGranule ≤ l.hbmPoolEnd (stackOf a))

/-- Granule numbers touched by a range: address / granule. -/
def granulesOf (g a n : Nat) : List Nat := if n = 0 then [] else lrange (a / g) ((a + n - 1) / g - a / g + 1)

/-- Whether a populated range touches reserved memory: a granule at a time. -/
def Layout.touchesReserved (l : Layout) (a n : Nat) : Bool :=
  if inTilth a then decide (0 < n) && l.reservedByte (a + n - 1)
  else decide (0 < n) && (lrange (stackOf a) (stackOf (a + n - 1) - stackOf a + 1)).any (fun st =>
    decide (l.hbmPoolEnd st < a + n) && decide (a < (st + 1) * 2 ^ 36))

/-- Granule numbers a populated range touches: HBM granules, Tilth granules. -/
def rangeGranules (a n : Nat) : List Nat × List Nat :=
  if inTilth a then ([], granulesOf tilthGranule a n)
  else if a + n ≤ tilthBase then (granulesOf hbmGranule a n, [])
  else (granulesOf hbmGranule a (tilthBase - a), granulesOf tilthGranule tilthBase (a + n - tilthBase))

/-! ### Shares of memory (R67, R376) -/

/-- Every byte of the range is populated and in a share of the function. -/
def State.inShares (s : State) (f : FuncId) (a n : Nat) : Bool :=
  rangePopulated a n &&
  (let g := rangeGranules a n
   let fn := s.func f
   g.1.all (fun k => fn.hbm.contains k) && g.2.all (fun k => fn.tilth.contains k))

/-- The function that holds the granule of an address. -/
def State.holderOf (s : State) (a : Nat) : Option FuncId :=
  allFuncs.find? (fun f => if inTilth a then (s.func f).tilth.contains (a / tilthGranule)
    else (s.func f).hbm.contains (a / hbmGranule))

/-- Whether a MODULE region meets a range. -/
def Region.meets (r : Region) (a n : Nat) : Bool := r.runs.any (fun e => overlap e.1 e.2 a n)

/-- A live MODULE region meets the range. -/
def State.moduleRegionAt (s : State) (a n : Nat) : Bool :=
  s.regions.any (fun r => r.2.kind == .module && r.2.meets a n)

/-- A loaded program's storage meets the range (R378). -/
def State.storageAt (s : State) (a n : Nat) : Bool :=
  s.progs.any (fun p => p.2.storage.any (fun r => overlap r.1 r.2 a n))

/-- A granule is in use: a live MODULE region or a program's storage meets it (R378). -/
def State.granuleInUse (s : State) (a n : Nat) : Bool := s.moduleRegionAt a n || s.storageAt a n

/-- Lost or fallow: a granule of a channel mapped out, or retired (R391, R392). -/
def MemSt.granuleGone (m : MemSt) (a : Nat) : Bool :=
  if inTilth a then m.retired.contains (a / tilthGranule) || m.fallow.contains (a / tilthGranule)
  else m.hbmLost.contains (a / hbmGranule) || m.hbmFallow.contains (a / hbmGranule)

/-- A granule is free: in the pool, not lost, held by no function (R378, R391). -/
def State.granuleFree (s : State) (a : Nat) : Bool :=
  s.mem.layout.poolGranule a && !s.mem.granuleGone a && (s.holderOf a).isNone

/-- Every block in a fallow granule reads as uncorrectable, and writes to it are discarded (R391). -/
def MemSt.fallowAt (m : MemSt) (a : Nat) : Bool :=
  if inTilth a then m.fallow.contains (a / tilthGranule) else m.hbmFallow.contains (a / hbmGranule)

/-- Reduction slots of a furrow's slice that a Tilth granule touches: they lie right below any context cache (R340). -/
def Layout.slotsAt (l : Layout) (g : Nat) : List Nat :=
  let a := g * tilthGranule
  let f := sliceOf a
  let base := sliceBytes - cacheBytes f - l.slotsIn f * 65536
  ((List.range (l.slotsIn f)).filter (fun i => overlap (base + i * 65536) 65536 ((a - tilthBase) % sliceSpan) tilthGranule)).map
    (fun i => f * 1024 + i)

/-- Reduction slots that a fallow granule has taken out of use (R391). -/
def MemSt.slotsLost (m : MemSt) : Nat := ((m.fallow.flatMap m.layout.slotsAt).foldl linsert []).length

/-- The address of a reduction slot in use of a die, counted round from 0; where none is left, its die's first Tilth byte (R340, R391). -/
def MemSt.slotAddr (m : MemSt) (die n : Nat) : Nat :=
  let lost := m.fallow.flatMap m.layout.slotsAt
  let l := (lrange (20 * die) 20).flatMap (fun f =>
    ((List.range (m.layout.slotsIn f)).filter (fun i => !lost.contains (f * 1024 + i))).map (fun i =>
      tilthBase + f * sliceSpan + sliceBytes - cacheBytes f - m.layout.slotsIn f * 65536 + i * 65536))
  l.getD (n % max 1 l.length) (tilthBase + 20 * die * sliceSpan)

/-- Bytes of a furrow's context cache that a Tilth granule holds: those between the cache's start and the slice's end (R335, R340). -/
def cacheIn (g : Nat) : Nat :=
  let a := g * tilthGranule
  let o := (a - tilthBase) % sliceSpan
  min (o + tilthGranule) sliceBytes - max o (sliceBytes - cacheBytes (sliceOf a))

/-- Contexts that the cache has room for: 131,072 of 256 bytes, less those in fallow granules (R138, R338, R391). -/
def MemSt.cacheRoom (m : MemSt) : Nat := 131072 - ((m.fallow.map cacheIn).sum + 255) / 256

/-- The functions that hold the unit at an address (R395): by a granule or a program's storage. -/
def State.holdersAt (s : State) (a : Nat) : List FuncId :=
  allFuncs.filter (fun f =>
    (if inTilth a then (s.func f).tilth.contains (a / tilthGranule) else (s.func f).hbm.contains (a / hbmGranule)) ||
    s.progs.any (fun p => p.2.func == f && p.2.storage.any (fun r => overlap r.1 r.2 a 1)))

/-- POOL_HBM_MIB (R339, R356, R392): the stacks' pools less 2,048 MiB for each channel mapped out. -/
def State.poolHbmMib (s : State) : Nat :=
  4 * (65536 - s.mem.layout.hbmReservedMib) -
    2048 * ((List.range 4).map (fun st => (tgetD s.mem.channelsOut st []).length)).sum

/-- POOL_TILTH_KIB (R340, R356): the slices' pools less the retired granules. -/
def State.poolTilthKib (s : State) : Nat :=
  ((List.range 40).map (fun f => s.mem.layout.tilthPool f / 1024)).sum - 64 * s.mem.retired.length

/-- HBM_GIB (R56, R392). -/
def State.hbmGib (s : State) : Nat :=
  256 - 2 * ((List.range 4).map (fun st => (tgetD s.mem.channelsOut st []).length)).sum

/-! ### Rows, retirement and map-out (R386 to R393) -/

/-- Statistics unit of an address: stack, or 4 + die (R343, R356). -/
def memUnit (a : Nat) : Nat := if inTilth a then 4 + dieOfFurrow (sliceOf a) else stackOf a

/-- Tilth repair rows left in a furrow's slice, of 12 (R386). -/
def MemSt.tilthRowsLeft (m : MemSt) (f : Nat) : Nat := 12 - (tgetD m.tilthRows f []).length

/-- HBM spare rows left in a bank, of 4 (R386). -/
def MemSt.hbmRowsLeft (m : MemSt) (b : Nat) : Nat := 4 - (tgetD m.hbmRows b []).length

/-- The time by which the 24 hours of R386 are measured: module time, going on over the resets at which it begins at 0 again. -/
def State.uptime (s : State) : Nat := s.past + s.time

/-- Times within the last 24 hours (R386). -/
def lastDay (now : Nat) (l : List Nat) : List Nat := l.filter (fun t => decide (now < t + 86400000000000))

/-- Retires the 64 KiB granule of a Tilth address: free, it leaves the pool; held or reserved, it becomes fallow
(R391). -/
def State.retireGranule (s : State) (a : Nat) : State :=
  let g := a / tilthGranule
  if s.mem.granuleGone a then s
  else
  let free := s.granuleFree (g * tilthGranule)
  let holders := s.holdersAt a
  let m := if free then { s.mem with retired := linsert s.mem.retired g }
    else { s.mem with fallow := linsert s.mem.fallow g }
  { s with mem := m, degraded := true }.postFallow 7 3 0 (g * tilthGranule) (s.mem.tilthRowsLeft (sliceOf a))
    65536 0 holders

/-- Maps a channel of a stack out, if it is in service and fewer than eight are out: 2 GiB leave the pool, held granules there become
fallow, and the rehash begins (R392, R393). -/
def State.mapOut (s : State) (stack channel : Nat) : State :=
  let out := tgetD s.mem.channelsOut stack []
  if out.contains channel || decide (out.length ≥ 8) then s
  else
  let top := s.mem.layout.hbmPoolEnd stack - out.length * 0x80000000
  let lostRange := lrange ((top - 0x80000000) / hbmGranule) 1024
  let isHeld := fun k => (s.holderOf (k * hbmGranule)).isSome
  let holders := allFuncs.filter (fun f => (s.func f).hbm.any (fun k => lostRange.contains k))
  let m := { s.mem with
    channelsOut := tset s.mem.channelsOut stack (out ++ [channel])
    hbmLost := (lostRange.filter (fun k => !isHeld k)).foldl linsert s.mem.hbmLost
    hbmFallow := (lostRange.filter isHeld).foldl linsert s.mem.hbmFallow
    rehashing := linsert s.mem.rehashing stack }
  { s with mem := m, degraded := true }.postFallow 9 3 (stack * 256 + channel) (top - 0x80000000) 0 (2 ^ 31) 0 holders

/-- Repairs the Tilth row of an address: a spare row is drawn, or the row's granule is retired (R391). -/
def State.repairTilthRow (s : State) (a : Nat) : State :=
  let f := sliceOf a
  let row := a / 4096
  let m := { s.mem with rowErrors := tdel s.mem.rowErrors row }
  if s.mem.tilthRowsLeft f = 0 then { s with mem := m }.retireGranule a
  else
    { s with mem := { m with tilthRows := tset m.tilthRows f (tgetD m.tilthRows f [] ++ [row]) } }.postFallow 6 1 0
      (row * 4096) (s.mem.tilthRowsLeft f - 1) 4096 4096 (s.holdersAt a)

/-- Repairs the HBM row of an address: a spare row is drawn; with none left the channel is mapped out, or, past eight
channels of the stack, the row is reported fallow (R392, R393). -/
def State.repairHbmRow (s : State) (a : Nat) : State :=
  let row := Config.rowOf (a / 64)
  let bank := Config.bankOf row
  let m := { s.mem with hbmRowErrors := tdel s.mem.hbmRowErrors row }
  if s.mem.hbmRowsLeft bank = 0 then
    if (tgetD s.mem.channelsOut (stackOf a) []).length < 8 then
      { s with mem := m }.mapOut (stackOf a) (s.mem.channelAt a)
    else { s with mem := m, degraded := true }.postFallow 8 3 0 (a / 64 * 64) 0 4096 0 (s.holdersAt a)
  else
    { s with mem := { m with hbmRows := tset m.hbmRows bank (tgetD m.hbmRows bank [] ++ [row]) } }.postFallow 8 1 0
      (a / 64 * 64) (s.mem.hbmRowsLeft bank - 1) 4096 4096 (s.holdersAt a)

/-- Repairs the row of an address. -/
def State.repairRow (s : State) (a : Nat) : State := if inTilth a then s.repairTilthRow a else s.repairHbmRow a

/-- Counts a corrected block; the eighth in a row within 24 hours has the row repaired (R343, R386). -/
def State.noteCorrected (s : State) (b : Nat) : State :=
  let a := b * 64
  let u := memUnit a
  let s1 := { s with mem := { s.mem with corrected := tset s.mem.corrected u (satAdd max64 (tgetD s.mem.corrected u 0) 1) } }
  let s2 := if inTilth a then s1 else s1.countGlobal 1 (4 * u + 2) 1
  let old := if inTilth a then tgetD s.mem.rowErrors (a / 4096) [] else tgetD s.mem.hbmRowErrors (Config.rowOf b) []
  let times := lastDay s.uptime old ++ [s.uptime]
  let m := s2.mem
  let s3 := if inTilth a then { s2 with mem := { m with rowErrors := tset m.rowErrors (a / 4096) times } }
    else { s2 with mem := { m with hbmRowErrors := tset m.hbmRowErrors (Config.rowOf b) times } }
  if times.length ≥ 8 then s3.repairRow a else s3

/-- Poisons a block found uncorrectable, with its fault record and the repair of its row (R344, R386). -/
def State.notePoison (s : State) (b : Nat) : State :=
  let a := b * 64
  let u := memUnit a
  let m := s.mem
  let s1 := { s with mem := { m with
    poison := linsert m.poison b
    uncorrectable := tset m.uncorrectable u (satAdd max64 (tgetD m.uncorrectable u 0) 1) } }
  (s1.fault 1 1 (s.holderOf a) 0 0 a).repairRow a

/-! ### Reads and writes at the controller (R342 to R345, R350, R470) -/

/-- Whether a write places the bytes of an operation, which are undefined until it has done so (R19); entries and
write-backs the module posts are not. -/
def Purpose.places : Purpose → Bool
  | .writeBack _ _ => false
  | .writtenBack _ _ => false
  | .cqEntry _ _ _ _ => false
  | .cqPosted _ _ _ _ => false
  | .tsEntry _ _ _ _ => false
  | .tsPosted _ _ _ _ => false
  | _ => true

/-- The ranges of module memory that pending operations will write, and outstanding writes with them (R19, R158). -/
def State.pendingWrites (s : State) : List (Nat × Nat) :=
  s.openRuns ++ ((tvals s.xfers).filter (fun x => x.write && x.purpose.places)).flatMap (fun x =>
    (x.pieces.filter (fun p => !p.host && !p.done)).map (fun p => (p.addr, p.len)))

/-- The byte an access finds at an address: free where the manual leaves it undefined (R19, R121, R132). -/
def State.memByte (s : State) (use : Nat) (und : List (Nat × Nat)) (a : Nat) : Byte :=
  if inRanges und a then Config.freeByte use a else mget s.mem.bytes a

/-- What a read of one block does: corrections and miscorrections are counted and written back, an uncorrectable block
is poisoned. Gives whether the block is uncorrectable, and the 64 bytes returned in place of the stored ones where three
or more symbols were bad (R342 to R344). -/
def State.decodeBlock (s : State) (b : Nat) (o : BlockObs) : State × Bool × Option Bytes :=
  if s.mem.poison.contains b || s.mem.fallowAt (b * 64) then (s, true, none)
  else match o with
    | .good => (s, false, none)
    | .corrected => (s.noteCorrected b, false, none)
    | .uncorrectable => (s.notePoison b, true, none)
    | .miscorrected w =>
      (({ s with mem := { s.mem with bytes := mwrite s.mem.bytes (b * 64) (fit 64 w) } }).noteCorrected b, false, none)
    | .unchanged w => (s, false, some (fit 64 w))

/-- Reads each block of a list with its observation; a block not named is good. -/
def State.decodeBlocks (s : State) (bs : List Nat) (obs : List BlockObs) : State × Bool × List (Nat × Bytes) :=
  match bs with
  | [] => (s, false, [])
  | b :: r =>
    let d := s.decodeBlock b (obs.headD .good)
    let e := d.1.decodeBlocks r obs.tail
    (e.1, d.2.1 || e.2.1, (match d.2.2 with | some w => [(b, w)] | none => []) ++ e.2.2)

/-- Blocks that the module has written whole lose their poison (R344). -/
def State.unpoison (s : State) (a n : Nat) : State :=
  { s with mem := { s.mem with poison := s.mem.poison.filter (fun b => !(decide (a ≤ b * 64) && decide (b * 64 < a + n))) } }

/-- Counts bytes read (`dir` 0) or written (1) of a stack or of a die's Tilth (R432, groups 1 and 2). -/
def State.countMem (s : State) (a n dir : Nat) : State :=
  if inTilth a then s.countGlobal 2 (2 * dieOfFurrow (sliceOf a) + dir) n else s.countGlobal 1 (4 * stackOf a + dir) n

/-- The blocks of a range. -/
def blocksOf (a n : Nat) : List Nat := granulesOf 64 a n

/-- Reads `n` bytes at `a`: the bytes, whether an uncorrectable block was met, and the observations not used up. -/
def State.memRead (s : State) (a n : Nat) (obs : List BlockObs) : State × Bytes × Bool × List BlockObs :=
  let bs := blocksOf a n
  let d := s.decodeBlocks bs obs
  let und := s.mem.undef ++ s.pendingWrites
  let use := s.free
  let bytes := (lrange a n).map (fun x => match d.2.2.find? (fun w => w.1 == x / 64) with
    | some w => w.2.getD (x % 64) 0
    | none => d.1.memByte use und x)
  ({ d.1 with free := d.1.free + 1 }.countMem a n 0, bytes, d.2.1, obs.drop bs.length)

/-- Takes [a, a + n) out of the undefined ranges. -/
def MemSt.define (m : MemSt) (a n : Nat) : MemSt := { m with undef := cutRanges m.undef a n }

/-- Marks bytes undefined (R19). -/
def State.undefine (s : State) (a n : Nat) : State :=
  if n = 0 then s else { s with mem := { s.mem with undef := s.mem.undef ++ [(a, n)] } }

/-- The same of several ranges: the bytes of an operation that ends without completing (R19, R132, R146). -/
def State.undefineRuns (s : State) (l : List (Nat × Nat)) : State :=
  { s with mem := { s.mem with undef := s.mem.undef ++ l.filter (fun q => decide (0 < q.2)) } }

/-- Start events of a program that are there (R322, R328). -/
def State.startsDue (s : State) (p : Prog) : Nat :=
  if p.startKind = 0 then p.pending
  else if p.startKind = 1 then (match tget (s.func p.func).trigs p.startCounter with
    | none => 0
    | some t => if t.value < p.threshold then 0 else (t.value - p.threshold) / max 1 p.step + 1)
  else p.frames.countP (fun q => q.1 == p.startInput)

/-- Something wrote over a program's inputs or weights: the run in progress has undefined results, and for an input so have the runs whose
start events are there (R325, R327). -/
def Prog.overwritten (p : Prog) (due : Nat) (input weights : Bool) : Prog :=
  { p with
    spoil := if input then max p.spoil due else p.spoil
    current := p.current.map (fun r => { r with spoilt := r.spoilt || input || weights }) }

/-- A write of module memory as the programs see it: one that changes a byte of a REGION input, or any into weights (R325, R327). -/
def State.overwrite (s : State) (a : Nat) (data : Bytes) : State :=
  let n := data.length
  let changes := fun (q : Nat × Nat) => overlap q.1 q.2 a n &&
    (data.zipIdx a).any (fun w => decide (q.1 ≤ w.2) && decide (w.2 < q.1 + q.2) && mget s.mem.bytes w.2 != w.1)
  { s with progs := s.progs.map (fun q =>
      let p := q.2
      let input := (p.bindings.filter (fun b => !b.output && b.kind == 0)).any (fun b =>
        (s.localRuns (BitVec.ofNat 32 b.a) b.b b.bytes).any changes)
      let weights := p.weightsKey != (0 : Word32) && (match s.region p.weightsKey with
        | some r => r.runs.any (fun e => overlap e.1 e.2 a n)
        | none => false)
      (q.1, if input || weights then p.overwritten (s.startsDue p) input weights else p)) }

/-- What a program's own run wrote is no such write: a region output may be read by the next run (R325). -/
def State.ownWrite (s t : State) (n : Nat) : State :=
  match s.prog n with
  | none => t
  | some p => t.modProg n (fun q => { q with
      spoil := p.spoil
      current := q.current.map (fun r => { r with spoilt := (p.current.map (fun w => w.spoilt)).getD r.spoilt }) })

/-- Writes bytes at `a`, of which [lo, lo + k) are what was to be written: a block of it written whole is replaced and loses its poison; a
partial write is merged after the block is decoded, and leaves a poisoned block poisoned; a fallow granule discards the write (R344, R391,
R470). Gives the observations not used up. -/
def State.memWriteIn (s0 : State) (a : Nat) (data : Bytes) (obs : List BlockObs) (lo k : Nat) : State × List BlockObs :=
  let s := s0.overwrite a data
  let n := data.length
  let bs := blocksOf a n
  let part := bs.filter (fun b => !(decide (lo ≤ b * 64) && decide (b * 64 + 64 ≤ lo + k)))
  let whole := bs.filter (fun b => decide (lo ≤ b * 64) && decide (b * 64 + 64 ≤ lo + k))
  let seen := (bs.zip (obs ++ List.replicate (bs.length - obs.length) .good)).filter (fun p => part.contains p.1)
  let s1 := (s.decodeBlocks (seen.map Prod.fst) (seen.map Prod.snd))
  let merged := s1.2.2.foldl (fun m (w : Nat × Bytes) => mwrite m (w.1 * 64) w.2) s1.1.mem.bytes
  let live := (data.zipIdx a).filter (fun (p : Byte × Nat) => !s.mem.fallowAt p.2)
  let m := { s1.1.mem with
    bytes := live.foldl (fun m (p : Byte × Nat) => mset m p.2 p.1) merged
    poison := s1.1.mem.poison.filter (fun b => !(whole.contains b && !s.mem.fallowAt (b * 64))) }
  ({ s1.1 with mem := m.define a n }.countMem a n 1, obs.drop bs.length)

/-- Writes bytes at `a` (R344, R391, R470). -/
def State.memWrite (s : State) (a : Nat) (data : Bytes) (obs : List BlockObs) : State × List BlockObs := s.memWriteIn a data obs a data.length

/-- Writes bytes over runs of module memory. -/
def State.writeRuns (s : State) : List (Nat × Nat) → Bytes → State
  | [], _ => s
  | (a, n) :: t, b => State.writeRuns (s.memWrite a (b.take n) []).1 t (b.drop n)

/-- Reads runs of module memory: the bytes in order, and whether an uncorrectable block was met. -/
def State.readRuns (s : State) : List (Nat × Nat) → List BlockObs → State × Bytes × Bool
  | [], _ => (s, [], false)
  | (a, n) :: t, obs =>
    let d := s.memRead a n obs
    let e := d.1.readRuns t d.2.2.2
    (e.1, d.2.1 ++ e.2.1, d.2.2.1 || e.2.2)

/-- An access that reads blocks and writes them in one: blocks whose bad symbols the decoder did not see are merged as it read them (R27,
R342, R470). -/
def State.recode (s : State) (a n : Nat) (obs : List BlockObs) : State :=
  let one := fun (m : Mem) (w : Nat × BlockObs) => match w.2 with
    | .unchanged b => if s.mem.poison.contains w.1 || s.mem.fallowAt (w.1 * 64) then m else mwrite m (w.1 * 64) (fit 64 b)
    | _ => m
  { s with mem := { s.mem with bytes := ((blocksOf a n).zip obs).foldl one s.mem.bytes } }

/-- Writes zeros with a good code over a range (R348, R417): poison there is cleared. -/
def State.scrub (s : State) (a n : Nat) : State :=
  let m := s.mem
  { s with mem := { m.define a n with
      bytes := mzero m.bytes a n
      poison := m.poison.filter (fun b => !(decide (a ≤ b * 64) && decide (b * 64 + 64 ≤ a + n))) } }

/-- Scrubs granules given by number. -/
def State.scrubGranules (s : State) (size : Nat) (l : List Nat) : State :=
  forEach l s (fun st k => st.scrub (k * size) size)

/-! ### Sealed bytes (R351, R352) -/

/-- Whether the range meets a sealed region (R352). -/
def State.sealedAt (s : State) (a n : Nat) : Bool :=
  s.regions.any (fun r => r.2.sealKeys.isSome && overlap r.2.base r.2.length a n)

/-- Decrypts `ct`, whole 16-byte blocks starting at region offset `off` (a multiple of 16). -/
def xtsOpen (k : Bytes × Bytes) (off : Nat) (ct : Bytes) : Bytes :=
  ((blocks16 ct).zipIdx (off / 16)).flatMap (fun (p : Bytes × Nat) => xtsBlock false k.1 k.2 p.2 p.1)

/-- Encrypts whole 16-byte blocks starting at region offset `off`. -/
def xtsSeal (k : Bytes × Bytes) (off : Nat) (pt : Bytes) : Bytes :=
  ((blocks16 pt).zipIdx (off / 16)).flatMap (fun (p : Bytes × Nat) => xtsBlock true k.1 k.2 p.2 p.1)

/-- Reads through a region: a sealed region's bytes are decrypted by 16-byte AES blocks (R352). -/
def State.regionRead (s : State) (r : Region) (off a n : Nat) (obs : List BlockObs) :
    State × Bytes × Bool × List BlockObs :=
  match r.sealKeys with
  | none => s.memRead a n obs
  | some k =>
    let lo := off % 16
    let d := s.memRead (a - lo) (roundUp (lo + n) 16) obs
    (d.1, ((xtsOpen k (off - lo) d.2.1).drop lo).take n, d.2.2.1, d.2.2.2)

/-- The bytes a partial write is merged with: what decoding its blocks gives (R343, R344, R470). -/
def State.decoded (s : State) (a n : Nat) (obs : List BlockObs) : Bytes :=
  (lrange a n).map (fun x =>
    if s.mem.poison.contains (x / 64) || s.mem.fallowAt x then mget s.mem.bytes x
    else match obs.getD (x / 64 - a / 64) .good with
      | .miscorrected w => w.getD (x % 64) 0
      | .unchanged w => w.getD (x % 64) 0
      | .good => mget s.mem.bytes x
      | .corrected => mget s.mem.bytes x
      | .uncorrectable => mget s.mem.bytes x)

/-- Writes through a region: a sealed region's partial AES blocks are read, decrypted, merged and encrypted again, as one access, and a
64-byte block that the written bytes do not fill is a partial write however its AES blocks lie; a byte beside the written ones that was
undefined stays so (R19, R352, R354, R470). -/
def State.regionWrite (s : State) (r : Region) (off a : Nat) (data : Bytes) (obs : List BlockObs) :
    State × List BlockObs :=
  match r.sealKeys with
  | none => s.memWrite a data obs
  | some k =>
    let lo := off % 16
    let n := roundUp (lo + data.length) 16
    let old := xtsOpen k (off - lo) (s.decoded (a - lo) n obs)
    let d := s.memWriteIn (a - lo) (xtsSeal k (off - lo) (overlay old lo data)) obs a data.length
    ({ d.1 with mem := { d.1.mem with undef := cutRanges s.mem.undef a data.length } }, d.2)

end Sys2Proof.Machine
end

