-- ==== Sys2Proof/Machine/Mail.lean ====
section
/-! DEFINITION. Machine/Mail.lean: how firmware takes, checks and answers a mailbox command (R37 to R47, R53, R54, R57,
R465, R466). Each command's own fields, checks and effect stand in its family's file, as a `Plan`. -/

namespace Sys2Proof.Machine

/-! ### Result codes (R45) -/

/-- OK. -/
def rcOk : Nat := 0x00
/-- BUSY. -/
def rcBusy : Nat := 0x01
/-- BAD_OPCODE. -/
def rcBadOpcode : Nat := 0x02
/-- BAD_ARG. -/
def rcBadArg : Nat := 0x03
/-- NO_RESOURCE. -/
def rcNoResource : Nat := 0x04
/-- DENIED. -/
def rcDenied : Nat := 0x05
/-- BAD_STATE. -/
def rcBadState : Nat := 0x06
/-- TIMEOUT. -/
def rcTimeout : Nat := 0x07
/-- DOES_NOT_FIT. -/
def rcDoesNotFit : Nat := 0x08
/-- DEGRADED_OK. -/
def rcDegradedOk : Nat := 0x09
/-- FENCED. -/
def rcFenced : Nat := 0x0A

/-- A response: RESULT, DETAIL and payload (R38). -/
structure Reply where
  code : Nat
  detail : Nat
  payload : Bytes
  deriving DecidableEq, Repr

/-- The response OK with a payload. -/
def Reply.ok (payload : Bytes) : Reply := ⟨rcOk, 0, payload⟩

/-- A refusal without payload. -/
def Reply.refuse (code detail : Nat) : Reply := ⟨code, detail, []⟩

/-- One check of R45: its order, whether it fails, and the answer when it does. `deps` are the offsets, in the command,
of payload fields the check reads; it is made only when those pass their own order-6 checks (R465). -/
structure Check where
  order : Nat
  bad : Bool
  code : Nat
  detail : Nat
  deps : List Nat
  body : Bytes
  deriving DecidableEq, Repr

/-- A command as firmware copied it: the issuer, the function whose objects it names (R466), and its bytes (R37). -/
structure Cmd where
  f : FuncId
  obj : FuncId
  byte : Nat → Byte

/-- `n` bytes of the payload from `off`. -/
def Cmd.bytes (c : Cmd) (off n : Nat) : Bytes := (List.range n).map (fun i => c.byte (32 + off + i))

/-- A little-endian payload field of `w` bytes at `off` (R8). -/
def Cmd.field (c : Cmd) (w off : Nat) : Nat := leNat (c.bytes off w)

/-- A 1-byte payload field. -/
def Cmd.u8 (c : Cmd) (off : Nat) : Nat := c.field 1 off
/-- A 2-byte payload field. -/
def Cmd.u16 (c : Cmd) (off : Nat) : Nat := c.field 2 off
/-- A 4-byte payload field. -/
def Cmd.u32 (c : Cmd) (off : Nat) : Nat := c.field 4 off
/-- An 8-byte payload field. -/
def Cmd.u64 (c : Cmd) (off : Nat) : Nat := c.field 8 off

/-- A header field of `w` bytes at `off` (R37). -/
def Cmd.hdr (c : Cmd) (w off : Nat) : Nat := leNat ((List.range w).map (fun i => c.byte (off + i)))

/-- OPCODE (R37). -/
def Cmd.opcode (c : Cmd) : Nat := c.hdr 2 0
/-- LENGTH (R37). -/
def Cmd.length (c : Cmd) : Nat := c.hdr 4 4
/-- TIMEOUT_MS (R37). -/
def Cmd.timeoutMs (c : Cmd) : Nat := c.hdr 4 8
/-- CHECK_ONLY (R37). -/
def Cmd.checkOnly (c : Cmd) : Bool := bit (c.hdr 4 12) 0
/-- ON_BEHALF EN (R37). -/
def Cmd.behalf (c : Cmd) : Bool := bit (c.hdr 2 18) 15

/-- An order-6 check of the payload field at payload offset `off`: BAD_ARG with DETAIL off + 32 (R38). -/
def argCheck (off : Nat) (bad : Bool) : Check := ⟨6, bad, rcBadArg, off + 32, [], []⟩

/-- An order-6 check of field `off` that also reads the fields at `deps` (payload offsets). -/
def argCheckOn (off : Nat) (deps : List Nat) (bad : Bool) : Check :=
  ⟨6, bad, rcBadArg, off + 32, deps.map (fun d => d + 32), []⟩

/-- A check of another order that reads the payload fields at `deps`. -/
def checkOn (order code : Nat) (deps : List Nat) (bad : Bool) : Check :=
  ⟨order, bad, code, 0, deps.map (fun d => d + 32), []⟩

/-- A check that reads no payload field. -/
def plainCheck (order code : Nat) (bad : Bool) : Check := ⟨order, bad, code, 0, [], []⟩

/-- A BUSY check with DETAIL 2: another command holds the object (R43). -/
def busyOn (deps : List Nat) (bad : Bool) : Check := ⟨9, bad, rcBusy, 2, deps.map (fun d => d + 32), []⟩

/-- The payload range [off, off + n) is one reserved field: a nonzero byte in it makes it a bad field, named by its own offset (R12,
R38). -/
def reserved (c : Cmd) (off n : Nat) : List Check := [argCheck off ((List.range n).any (fun i => c.byte (32 + off + i) != 0))]

/-- The payload fields that fail an order-6 check which reads no other field, or only fields that pass such checks: the checks. -/
def failedFields (l : List Check) : List Check :=
  let six := l.filter (fun c => c.order == 6 && c.bad)
  let base := six.filter (fun c => c.deps.isEmpty)
  base ++ six.filter (fun c => !c.deps.isEmpty && c.deps.all (fun d => !base.any (fun b => b.detail == d || b.detail == 4)))

/-- Check `c` reads a field that check `e` found bad, unless `e` itself reads the field `c` is about. -/
def Check.skippedBy (c e : Check) : Bool :=
  !c.deps.isEmpty && (e.detail == 4 || (c.deps.contains e.detail && !(c.order == 6 && e.deps.contains c.detail)))

/-- Whether check `a` is reported before check `b`: by order, within order 6 by offset (R45, R465). -/
def Check.before (a b : Check) : Bool :=
  decide (a.order < b.order) || (a.order == b.order && a.order == 6 && decide (a.detail < b.detail))

/-- The first check that fails, of those whose fields pass (R45, R465). A wrong LENGTH (offset 4) fails every field. -/
def firstFailing (l : List Check) : Option Check :=
  let bad := failedFields l
  let live := l.filter (fun c => c.bad && !bad.any (fun e => c.skippedBy e))
  live.foldl (fun best c => match best with
    | none => some c
    | some b => if c.before b then some c else some b) none

/-- What taking effect leads to: an answer, or a long command that goes on running. -/
inductive Verdict where
  | answer (r : Reply)
  | long (job : LongJob) (committed : Bool)
  deriving DecidableEq, Repr

/-- What an opcode asks: who may issue it, its payload size, its own checks, and its effect. -/
structure Plan where
  /-- Manager-only (R53). -/
  managerOnly : Bool
  /-- Payload bytes (R465). -/
  size : Nat
  checks : List Check
  run : State → State × Verdict

/-- ON_BEHALF EN is allowed in these ranges (R466). -/
def behalfRange (op : Nat) : Bool :=
  [0x02, 0x03, 0x04, 0x07, 0x08].contains (op / 256) ||
  (decide (0x0500 ≤ op) && decide (op ≤ 0x051F)) || (decide (0x0C40 ≤ op) && decide (op ≤ 0x0C4F))

/-- Safe mode accepts these ranges (R54). -/
def safeRange (op : Nat) : Bool := [0x00, 0x0B, 0x0C].contains (op / 256)

/-- What the boot ROM serves when step 3 failed (R410): NOP, MODULE_INFO, the image, boot-log and MODULE_RESET commands. -/
def romRange (op : Nat) : Bool := [0x0000, 0x0001, 0x0B00, 0x0B10, 0x0B11, 0x0B12, 0x0B20, 0x0B21].contains op

/-- FAIL_COUNT of a boot step and unit is 3 (R408). -/
def Mram.stuck (m : Mram) (step unit : Nat) : Bool := decide (tgetD m.failCount (step * 256 + unit) 0 ≥ 3)

/-- Whether the module state forbids an opcode whatever its payload: safe mode, the RETURNED and DECOMMISSIONED states
(R54, R410, R424). -/
def State.forbids (s : State) (op : Nat) : Bool :=
  (s.fw == .safeMode && !safeRange op) ||
  (s.fw == .safeMode && s.mram.stuck 3 255 && !romRange op) ||
  (s.mram.lc == 3 && !safeRange op) ||
  (s.mram.lc == 4 && !([0x0000, 0x0001, 0x0B30].contains op))

/-- The offset of the first nonzero reserved byte at 20 to 31 (R465). -/
def Cmd.reservedAt (c : Cmd) : Option Nat := (lrange 20 12).find? (fun i => c.byte i != 0)

/-- The header checks of R45 order 1, lowest offset first (R465). -/
def headerChecks (c : Cmd) : List Check :=
  let ob := c.hdr 2 18
  [⟨1, decide (c.length > 4064) || c.length % 4 != 0, rcBadArg, 4, [], []⟩,
   ⟨1, c.hdr 4 12 / 2 != 0, rcBadArg, 12, [], []⟩,
   ⟨1, c.hdr 2 16 != 1, rcBadArg, 16, [], []⟩,
   ⟨1, bits ob 14 8 != 0 || (!bit ob 15 && bits ob 7 0 != 0), rcBadArg, 18, [], []⟩,
   ⟨1, c.reservedAt.isSome, rcBadArg, c.reservedAt.getD 20, [], []⟩]

/-- The checks made of every command: orders 1 to 6 that no opcode's own fields decide (R45, R53, R54, R375, R465,
R466). -/
def commonChecks (s : State) (c : Cmd) (op : Nat) (managerOnly : Bool) (size : Nat) : List Check :=
  let mgr := c.f == s.manager
  let st := (s.func c.f).state
  let ost := (s.func c.obj).state
  headerChecks c ++
  [plainCheck 2 rcFenced st.isFenced,
   plainCheck 2 rcFenced (c.behalf && ost.isFenced),
   plainCheck 4 rcDenied (c.behalf && !mgr),
   plainCheck 4 rcDenied (managerOnly && !mgr),
   plainCheck 5 rcBadState (s.forbids op),
   plainCheck 5 rcBadState (st == .unprovisioned && !(op / 256 == 0 || op == 0x0100)),
   plainCheck 5 rcBadState (c.behalf && (ost == .disabled || ost == .unprovisioned)),
   ⟨6, c.behalf && !behalfRange op, rcBadArg, 18, [], []⟩,
   ⟨6, c.length != size, rcBadArg, 4, [], []⟩]

/-! ### Taking and answering -/

/-- The byte at `a` of the command mailbox: free where the manual leaves it undefined (R38). -/
def Mbx.held (m : Mbx) (use a : Nat) : Byte := if inRanges m.cmdUndef a then Config.freeByte use a else mget m.cmd a

/-- The byte at `a` that firmware's copy of the command holds: free where the manual leaves it undefined (R38), one of
the values of R40 where the driver wrote while POSTED. -/
def Mbx.copied (m : Mbx) (use a : Nat) : Byte :=
  match tget m.mixed a with
  | some l => l.getD ((Config.freeByte use a).toNat % max l.length 1) 0
  | none => m.held use a

/-- Function `f`'s command as firmware copies it. -/
def State.cmd (s : State) (f : FuncId) : Cmd :=
  let m := (s.func f).mbx
  let byte := fun a => m.copied s.free a
  let ob := leNat [byte 18, byte 19]
  ⟨f, if bit ob 15 then ⟨ob % 256, by omega⟩ else f, byte⟩

/-- Posted before: `g`'s command goes ahead of `f`'s (R41). -/
def State.ahead (s : State) (g f : FuncId) : Bool :=
  g != f && (s.func g).mbx.state == .posted &&
  (g == s.manager || (f != s.manager && decide ((s.func g).mbx.goOrder < (s.func f).mbx.goOrder)))

/-- Commands RUNNING in the module (R41). -/
def State.runningCount (s : State) : Nat := (allFuncs.filter (fun g => (s.func g).mbx.state == .running)).length

/-- Firmware can take `f`'s command now: it is POSTED, firmware serves, it is first in order, and fewer than 64 run
(R41). -/
def State.canTake (s : State) (f : FuncId) : Bool :=
  (s.func f).mbx.state == .posted && (s.fw == .running || s.fw == .safeMode) &&
  allFuncs.all (fun g => !s.ahead g f) && decide (s.runningCount < 64)

/-- Changes the mailbox of `f`. -/
def State.modMbx (s : State) (f : FuncId) (g : Mbx → Mbx) : State := s.modFunc f (fun v => { v with mbx := g v.mbx })

/-- The 32-byte response header and payload (R38). -/
def responseBytes (opcode token elapsed : Nat) (gen : BitVec 16) (r : Reply) : Bytes :=
  leBytes 2 opcode ++ leBytes 2 token ++ leBytes 4 r.payload.length ++ leBytes 1 r.code ++ zeros 1 ++
  leBytes 2 r.detail ++ leBytes 4 elapsed ++ leBytes 2 gen.toNat ++ zeros 14 ++ r.payload

/-- Writes the response over the command, then RESULT, then DONE; bytes beyond it are undefined (R38, R39). Source 0 is
signalled when DONE_EN is set (R35). -/
def State.respond (s : State) (f : FuncId) (elapsed : Nat) (r : Reply) : State :=
  let m := (s.func f).mbx
  let resp := responseBytes m.opcode m.copyToken.toNat elapsed s.restartGen r
  let s1 := s.modMbx f (fun m => { m with
    cmd := mwrite m.cmd 0 resp
    cmdUndef := [(resp.length, 4096 - resp.length)]
    mixed := []
    result := BitVec.ofNat 8 r.code
    long := none
    deferred := none
    state := .done })
  if m.doneEn then s1.signal f 0 else s1

/-- Answers a command that ran in one step: ELAPSED_US is free within 100 µs (R46). -/
def State.answer (s : State) (f : FuncId) (r : Reply) : State :=
  let (n, s1) := s.fresh
  s1.respond f (Config.quickUs n).val r

/-- Answers a command that went on running: ELAPSED_US from RUNNING to now (R38). Firmware that is not there to write the response
writes it when it has restarted (R57). -/
def State.answerLong (s : State) (f : FuncId) (r : Reply) : State :=
  if s.fw == .running || s.fw == .safeMode then s.respond f (min ((s.time - (s.func f).mbx.runAt) / 1000) max32) r
  else s.modMbx f (fun m => { m with deferred := some (r.code, r.detail, r.payload) })

/-- Firmware copies the command and sets RUNNING (R39). -/
def State.take (s : State) (f : FuncId) : State :=
  let c := s.cmd f
  s.fresh.2.modMbx f (fun v => { v with
    state := .running, runAt := s.time, mixed := [], opcode := c.opcode, copyToken := BitVec.ofNat 16 (c.hdr 2 2),
    timeoutMs := c.timeoutMs })

/-- The mailbox hardware answers BUSY, DETAIL 1, without firmware: it copies OPCODE and TOKEN (R57). ELAPSED_US of that answer is 0:
DESIGN CHOICE, since the command never entered RUNNING and R38 counts from there (log entry 145). -/
def State.hardwareBusy (s : State) (f : FuncId) : State :=
  let c := s.cmd f
  let t := BitVec.ofNat 16 (c.hdr 2 2)
  (s.fresh.2.modMbx f (fun v => { v with opcode := c.opcode, token := t, copyToken := t })).respond f 0 (Reply.refuse rcBusy 1)

/-- Firmware takes `f`'s command with opcode `op`, makes its checks in the order of R45, and answers it or leaves it
RUNNING. A command that is not there to take changes nothing (log entry 4). CHECK_ONLY has no effect (R42); `dry` is the payload
of its answer OK, empty for a query: DESIGN CHOICE, R42 does not say what a query checked alone returns, nor whether a degraded
resource makes it DEGRADED_OK (log entry 48). -/
def State.runCommandC (s : State) (f : FuncId) (op : Nat) (dry : Cmd → State → Bytes) (plan : Cmd → State → Plan) : State :=
  let c := s.cmd f
  if !s.canTake f || c.opcode != op then s
  else
    let p := plan c s
    let s1 := s.take f
    match firstFailing (commonChecks s c op p.managerOnly p.size ++ p.checks) with
    | some k => s1.answer f ⟨k.code, k.detail, k.body⟩
    | none =>
      if c.checkOnly then s1.answer f (Reply.ok (dry c s))
      else
        match p.run s1 with
        | (s2, .answer r) => s2.answer f r
        | (s2, .long job committed) => s2.modMbx f (fun m => { m with long := some (job, committed) })

/-- A command whose CHECK_ONLY answer carries no payload. -/
def State.runCommand (s : State) (f : FuncId) (op : Nat) (plan : Cmd → State → Plan) : State := s.runCommandC f op (fun _ _ => []) plan

/-- A step's outcome: this model's meanings always have a next state. -/
def next (s : State) : Out := .next s

/-- A plan that only reads: its response payload. -/
def queryPlan (managerOnly : Bool) (size : Nat) (checks : List Check) (payload : State → Bytes) : Plan :=
  ⟨managerOnly, size, checks, fun s => (s, .answer (Reply.ok (payload s)))⟩

/-- A plan of a quick command that changes state and answers OK with no payload. -/
def setPlan (managerOnly : Bool) (size : Nat) (checks : List Check) (g : State → State) : Plan :=
  ⟨managerOnly, size, checks, fun s => (g s, .answer (Reply.ok []))⟩

/-- Whether the objects named belong to the issuer, or the manager issues (R53 "Own"); with ON_BEHALF, to the function it names (R466). -/
def ownerOk (s : State) (c : Cmd) (owner : FuncId) : Bool := owner == c.obj || (c.f == s.manager && !c.behalf)

/-- A module-wide object named at payload offset `off`: absent, BAD_ARG at the field; another function's, DENIED
(R45, R465). -/
def ownedChecks (s : State) (c : Cmd) (off : Nat) (owner : Option FuncId) : List Check :=
  [argCheck off owner.isNone,
   checkOn 4 rcDenied [off] (match owner with | some g => !ownerOk s c g | none => false)]

/-- The long command RUNNING at any function that holds an object `h` recognises (R43). -/
def State.heldBy (s : State) (h : LongJob → Bool) : Bool :=
  allFuncs.any (fun g => match (s.func g).mbx.long with | some (j, _) => h j | none => false)

/-- A running TINE_RESET holds the furrows it names (R43). -/
def State.tinesHeld (s : State) (mask : BitVec 40) : Bool :=
  s.heldBy (fun j => match j with | .tineReset m => m &&& mask != 0#40 | _ => false)

/-- A running MEM_LAYOUT_SET holds the layout (R43). -/
def State.layoutHeld (s : State) : Bool := s.heldBy (fun j => match j with | .memLayoutSet _ _ _ _ => true | _ => false)

/-- A running RING_RESTART holds a ring (R43). -/
def State.ringHeld (s : State) (f : FuncId) (r : Nat) : Bool :=
  s.heldBy (fun j => match j with | .ringRestart g k => g == f && k == r | _ => false)

/-- A running DRILL_LOAD or DRILL_UNLOAD holds a program (R43). -/
def State.progHeld (s : State) (n : Nat) : Bool :=
  s.heldBy (fun j => match j with | .drillLoad k => k == n | .drillUnload k => k == n | _ => false)

/-- A running TRACE_READ holds the trace (R43). -/
def State.traceHeld (s : State) : Bool :=
  s.heldBy (fun j => match j with | .traceRead _ _ _ _ => true | .writing trace _ => trace | _ => false)

/-- A running MEM_LAYOUT_SET or MODULE_WIPE holds the whole memory; a SHARE_SCRUB or GRANULE_REVOKE its range (R43). -/
def State.rangeHeld (s : State) (base len : Nat) : Bool :=
  s.heldBy (fun j => match j with
    | .memLayoutSet _ _ _ _ => true
    | .moduleWipe => true
    | .granuleRevoke _ _ b n => overlap b n base len
    | .shareScrub b n => overlap b n base len
    | _ => false)

end Sys2Proof.Machine
end

