-- ==== Sys2Proof/Machine/Operands.lean ====
section
/-! DEFINITION. Machine/Operands.lean: how a request's operands name memory: region keys and offsets (R84 to R88), their
checks (R86), and their resolution through remapped extents, ATS translations and mirror tables (R89 to R91, R98). -/

namespace Sys2Proof.Machine

/-! ### Keys and access rights -/

/-- The region in a slot is being destroyed: from step 1 of R93 on, accesses no longer find it (R95). -/
def State.dying (s : State) (slot : Nat) : Bool := s.invals.any (fun v => v.2.destroy && v.2.slot == some slot)

/-- The key of the region in a slot. -/
def regionKey (slot gen : Nat) : Word32 := BitVec.ofNat 32 (gen * 2 ^ 20 + slot)

/-- The key of the live region in a slot, 0 if none lives there. -/
def State.keyOfSlot (s : State) (slot : Nat) : Word32 :=
  match tget s.regions slot with
  | some r => regionKey slot r.gen
  | none => 0

/-- LOCAL_READ (R87). -/
def accLocalRead : Nat := 0
/-- LOCAL_WRITE. -/
def accLocalWrite : Nat := 1
/-- REMOTE_READ. -/
def accRemoteRead : Nat := 2
/-- REMOTE_WRITE. -/
def accRemoteWrite : Nat := 3
/-- REMOTE_ATOMIC. -/
def accRemoteAtomic : Nat := 4
/-- RELAXED_ORDER. -/
def accRelaxed : Nat := 5
/-- COUNT. -/
def accCount : Nat := 6
/-- SEALED. -/
def accSealed : Nat := 7

/-- Whether a region grants right `b` (R87). -/
def Region.grants (r : Region) (b : Nat) : Bool := bit r.access.toNat b

/-- Whether a region lies in host or accelerator memory (R84). -/
def Region.host (r : Region) : Bool := r.kind != .module

/-- The checks of R86 on a whole transfer of function `f`: the region, if every check passes. -/
def State.accessOk (s : State) (f : FuncId) (k : Word32) (right off len : Nat) : Option Region :=
  match s.region k with
  | some r => if r.func = f ∧ !s.dying (keyIndex k) ∧ r.grants right ∧ off + len ≤ r.length then some r else none
  | none => none

/-! ### Pages and the translation cache (R89, R91) -/

/-- log2 of a mirror table's page size (R87). -/
def mirrorLog2 (p : Nat) : Nat := if p = 0 then 12 else if p = 1 then 16 else 21

/-- The address at which translation of region offset `off` starts: the virtual address, or the offset within the mirror
table's space (R87, R91). -/
def Region.vaOf (r : Region) (off : Nat) : Nat := (r.base + off) % 2 ^ 64

/-- log2 of the page the module asks for: 4 KiB through ATS (R89), the table's page through a mirror (R91). -/
def Region.pageLog2 (r : Region) : Nat := if r.kind == .hostMirror then mirrorLog2 r.mirrorPage else 12

/-- Page number of region offset `off`. -/
def Region.pageOf (r : Region) (off : Nat) : Nat := r.vaOf off / 2 ^ r.pageLog2

/-- Whether a cached translation serves address `va` of a region in slot `slot`. -/
def AtcEntry.serves (e : AtcEntry) (slot : Nat) (r : Region) (va : Nat) : Bool :=
  e.func == r.func && e.mirror == (r.kind == .hostMirror) &&
  e.tag == (if r.kind == .hostMirror then slot else r.pasid.toNat) && e.page == va / 2 ^ e.log2

/-- The cached translation for a region's address, if one is there. -/
def Link.lookup (l : Link) (slot : Nat) (r : Region) (va : Nat) : Option AtcEntry :=
  l.atc.find? (fun e => e.serves slot r va)

/-- Puts a translation first in the cache of 32,768 entries, replacing its older copy and, when full, the least
recently used (R89). -/
def Link.cache (l : Link) (e : AtcEntry) : Link :=
  { l with atc := (e :: l.atc.filter (fun x =>
      !(x.func == e.func && x.mirror == e.mirror && x.tag == e.tag && x.page == e.page && x.log2 == e.log2))).take 32768 }

/-- The cached translations that serve an offset of a list are used: they become the most recently used (R89). -/
def Link.refresh (l : Link) (slot : Nat) (r : Region) (offs : List Nat) : Link :=
  let used := fun (e : AtcEntry) => offs.any (fun o => e.serves slot r (r.vaOf o))
  { l with atc := l.atc.filter used ++ l.atc.filter (fun e => !used e) }

/-! ### Resolution -/

/-- What resolving a range gives. -/
inductive Resolved where
  /-- Where its bytes lie. -/
  | ok (pieces : List XPiece)
  /-- No usable translation is cached for this region offset. -/
  | miss (off : Nat)
  /-- A cached mirror entry forbids the write (R91). -/
  | fault
  deriving DecidableEq, Repr

/-- Puts a piece in front of a resolution. -/
def Resolved.cons (p : XPiece) : Resolved → Resolved
  | .ok l => .ok (p :: l)
  | .miss o => .miss o
  | .fault => .fault

/-- Resolves `len` bytes at `off` of the region in `slot`, at most `fuel` runs: a MODULE region directly; a remapped
2 MiB extent to its module-local address (R98); else by cached translations (R89, R91). -/
def Link.resolve (l : Link) (slot : Nat) (r : Region) (write : Bool) (fuel off len : Nat) : Resolved :=
  match fuel with
  | 0 => .ok []
  | k + 1 =>
    if len = 0 then .ok []
    else if r.kind = .module then
      let w := r.place off
      if len ≤ w.2 ∨ r.extents.isEmpty then .ok [⟨false, w.1, len, off, false, []⟩]
      else (l.resolve slot r write k (off + w.2) (len - w.2)).cons ⟨false, w.1, w.2, off, false, []⟩
    else match tget r.remap (off / 0x200000) with
      | some a =>
        let n := min len (0x200000 - off % 0x200000)
        (l.resolve slot r write k (off + n) (len - n)).cons ⟨false, a + off % 0x200000, n, off, false, []⟩
      | none =>
        let va := r.vaOf off
        match l.lookup slot r va with
        | none => .miss off
        | some e =>
          if write ∧ !e.writable then (if r.kind = .hostMirror then .fault else .miss off)
          else
            let n := min (min len (2 ^ e.log2 - va % 2 ^ e.log2)) (0x200000 - off % 0x200000)
            (l.resolve slot r write k (off + n) (len - n)).cons
              ⟨true, e.addr + va % 2 ^ e.log2, n, off, false, []⟩

/-- Resolves several runs, in order. -/
def Link.resolveAll (l : Link) (slot : Nat) (r : Region) (write : Bool) : List (Nat × Nat) → Resolved
  | [] => .ok []
  | (off, len) :: rest =>
    match l.resolve slot r write (len / 4096 + len / 0x200000 + 4 + r.extents.length) off len with
    | .ok ps =>
      match l.resolveAll slot r write rest with
      | .ok qs => .ok (ps ++ qs)
      | .miss o => .miss o
      | .fault => .fault
    | .miss o => .miss o
    | .fault => .fault

/-- Puts the bytes of a write into its pieces, in order. -/
def fillPieces : List XPiece → Bytes → List XPiece
  | [], _ => []
  | p :: r, d => { p with bytes := d.take p.len } :: fillPieces r (d.drop p.len)

/-- Total length of runs. -/
def spanLen (l : List (Nat × Nat)) : Nat := (l.map Prod.snd).sum

end Sys2Proof.Machine
end

