-- ==== Sys2Proof/Machine/Transfer.lean ====
section
/-! DEFINITION. Machine/Transfer.lean: transfers between the module and regions: their issue, ATS translations and page
requests (R89, R90), mirror entries (R91), flushes and path fences (R71, R73), invalidation (R93, R94), and link
retrain (R81). A transfer that ends is put on the agenda with its purpose. -/

namespace Sys2Proof.Machine

/-! ### Paths (R70, R73) -/

/-- A function's use of a path kind on a link. -/
def State.pathOf (s : State) (f : FuncId) (l : LinkId) (v : Bool) : PathState :=
  (s.paths.find? (fun p => p.func == f && p.link == l && p.viaRoot == v)).getD ⟨f, l, v, 0, false, 0⟩

/-- The machine with one path's state replaced. -/
def State.setPath (s : State) (p : PathState) : State :=
  { s with paths := s.paths.filter (fun q => !(q.func == p.func && q.link == p.link && q.viaRoot == p.viaRoot)) ++ [p] }

/-- A HOST region's path is fenced (R73). The fence belongs to the path, so a region created on a fenced path is fenced too: DESIGN
CHOICE, R73 fences the regions that use the path and says nothing of later ones (log entry 49). -/
def State.regionFenced (s : State) (r : Region) : Bool :=
  r.host && (s.pathOf r.func (linkOf r.func) r.viaRoot).fenced

/-- Counts bytes and TLPs of a path kind: a write carries at most the payload size programmed on the link, a read asks for at most its
read request size (R60, R70). -/
def State.countPath (s : State) (f : FuncId) (viaRoot write : Bool) (n : Nat) : State :=
  let i := if viaRoot then cntViaRootBytes else cntDirectBytes
  let l := s.link (linkOf f)
  (s.count f i n).count f (i + 1) (ceilDiv n (if write then l.maxPayload else l.maxRead))

/-- Counts the 64-byte units that a host access touches, by 2 MiB page, for a region with COUNT (R97). -/
def State.countAccess (s : State) (slot : Nat) (off n : Nat) : State :=
  match tget s.regions slot with
  | none => s
  | some r =>
    if !r.grants accCount || n = 0 then s
    else
      let va := r.vaOf off
      let first := r.vaOf 0 / 0x200000
      let add := fun (t : Tbl Nat) (p : Nat) =>
        let lo := max va (p * 0x200000)
        let hi := min (va + n) ((p + 1) * 0x200000)
        tset t (p - first) (satAdd max32 (tgetD t (p - first) 0) (ceilDiv hi 64 - lo / 64))
      { s with regions := tset s.regions slot { r with counters := (granulesOf 0x200000 va n).foldl add r.counters } }

/-! ### Ending a transfer -/

/-- Takes a transfer out, with its flush covers and its place in invalidations; bytes it had still to place in module
memory become undefined (R19). -/
def State.dropXfer (s : State) (x : Nat) : State :=
  match tget s.xfers x with
  | none => s
  | some t =>
    let s1 := { s with
      xfers := tdel s.xfers x
      flushes := (s.flushes.map (fun f => (f.1, { f.2 with covers := f.2.covers.filter (fun c => c != x) }))).filter
        (fun f => f.2.probe || !f.2.covers.isEmpty)
      invals := s.invals.map (fun i => (i.1, { i.2 with reads := i.2.reads.filter (fun c => c != x) })) }
    if t.write then
      forEach (t.pieces.filter (fun p => !p.host && !p.done)) s1 (fun st p => st.undefine p.addr p.len)
    else s1

/-- What the end of a transfer says to its purpose. The output of TRACE_READ or HANG_GRAPH that was begun has taken effect, and the
command answers OK, since a command with another result has changed nothing (R42): DESIGN CHOICE, no rule says what it answers (log entry
35). -/
def Xfer.outcome (t : Xfer) (r : XResult) : XResult :=
  match t.purpose with
  | .firmware _ => if t.order ≠ 0 then .ok [] else r
  | _ => r

/-- Ends a transfer with a result for its purpose to act on. A translation fault is counted (R430). -/
def State.endXfer (s : State) (x : Nat) (r : XResult) : State :=
  match tget s.xfers x with
  | none => s
  | some t =>
    let s1 := s.dropXfer x
    let s2 := if r = .xlateFault then s1.count t.func cntTranslationFault 1 else s1
    { s2 with agenda := s2.agenda ++ [(t.purpose, t.outcome r)] }

/-- Changes a transfer. -/
def State.modXfer (s : State) (x : Nat) (g : Xfer → Xfer) : State := { s with xfers := tmod s.xfers x g }

/-- Ends a transfer whose every run is read, or placed and visible. -/
def State.checkXfer (s : State) (x : Nat) : State :=
  match tget s.xfers x with
  | none => s
  | some t =>
    if t.pieces.all (fun p => p.done) then
      s.endXfer x (.ok (if t.write then t.data else t.pieces.flatMap (fun p => p.bytes)))
    else s

/-! ### Issue -/

/-- A posted write covers nothing: it gets no flush of its own, and the next flush of its path ends its record (R71, R81). -/
def Purpose.posted : Purpose → Bool
  | .writeBack _ _ => true
  | .writtenBack _ _ => true
  | .cqEntry _ _ _ _ => true
  | .cqPosted _ _ _ _ => true
  | .tsEntry _ _ _ _ => true
  | .tsPosted _ _ _ _ => true
  | _ => false

/-- Whether a transfer belongs to a program's run. -/
def Purpose.ofRun (n : Nat) : Purpose → Bool
  | .runIn k _ => k == n
  | .runOut k _ => k == n
  | .glean k => k == n
  | _ => false

/-- The program whose run a transfer writes for. -/
def Purpose.writesFor : Purpose → Option Nat
  | .runOut n _ => some n
  | .glean n => some n
  | _ => none

/-- A transfer reads the target of an atomic, which the same access writes (R27). -/
def Purpose.atomic : Purpose → Bool
  | .atomicTarget _ _ => true
  | _ => false

/-- A transfer writes the destination of a COPY. -/
def Purpose.copies : Purpose → Bool
  | .copyDst _ _ _ => true
  | _ => false

/-- A write of a completion or time-stamp entry, which never carries relaxed ordering (R71). -/
def Purpose.isEntry : Purpose → Bool
  | .cqEntry _ _ _ _ => true
  | .cqPosted _ _ _ _ => true
  | .tsEntry _ _ _ _ => true
  | .tsPosted _ _ _ _ => true
  | _ => false

/-- The purpose of a write-back or ring-entry write once it has been issued. -/
def Purpose.afterIssue : Purpose → Purpose
  | .writeBack f r => .writtenBack f r
  | .cqEntry f c i e => .cqPosted f c i e
  | .tsEntry f c i e => .tsPosted f c i e
  | p => p

/-- Puts the issue of a write-back or of a completion or time-stamp entry on the agenda: what follows it may be written. -/
def State.entryIssued (s : State) (x : Nat) : State :=
  match tget s.xfers x with
  | none => s
  | some t =>
    if t.purpose.afterIssue = t.purpose then
      (match t.purpose with
      | .packet n p => { s with agenda := s.agenda ++ [(.placing n p, .ok [])] }
      | .flag n p => { s with agenda := s.agenda ++ [(.placing n p, .ok [])] }
      | _ => s)
    else { s.modXfer x (fun v => { v with purpose := v.purpose.afterIssue }) with
            agenda := s.agenda ++ [(t.purpose, .ok [])] }

/-- The posted writes of a path that no flush covers yet. -/
def State.postedOn (s : State) (f : FuncId) (l : LinkId) (v : Bool) : List Nat :=
  (s.xfers.filter (fun q => q.2.purpose.posted && q.2.func == f && q.2.link == l && q.2.viaRoot == v &&
    q.2.phase == .issued && q.2.pieces.any (fun p => p.host && !p.done))).map Prod.fst

/-- Issues a flush read of the last address written by a transfer (R71). -/
def State.startFlush (s : State) (t : Xfer) (covers : List Nat) (addr : Nat) (probe replay : Bool) : State :=
  let (id, s1) := s.newId
  let all := (s.postedOn t.func t.link t.viaRoot).foldl linsert covers
  let fl : Flush := ⟨t.func, t.link, t.viaRoot, all, probe, replay⟩
  (({ s1 with flushes := tset s1.flushes id fl }.emit (.flushRead t.link t.func id addr)).count t.func
    ((if t.viaRoot then cntViaRootBytes else cntDirectBytes) + 1) 1).fabSend (.transport (dieOf t.func)) (.link t.link) .dreq 0

/-- A write of an earlier place is still to be made again: a replayed write keeps its original order behind it (R81). -/
def State.replayWaits (s : State) (t : Xfer) : Bool :=
  t.replay && s.xfers.any (fun q => q.2.replay && q.2.link == t.link && q.2.phase != .issued && decide (q.2.order < t.order))

/-- What is left of runs once run `h` is taken out of them. -/
def minusRun (h : Nat × Nat) (l : List (Nat × Nat)) : List (Nat × Nat) :=
  l.flatMap (fun r => if overlap r.1 r.2 h.1 h.2 then
      [(r.1, h.1 - r.1), (h.1 + h.2, r.1 + r.2 - (h.1 + h.2))].filter (fun q => decide (0 < q.2))
    else [r])

/-- The part of a piece at a run (region offset, length) inside it. -/
def XPiece.part (p : XPiece) (q : Nat × Nat) : XPiece :=
  { p with addr := p.addr + (q.1 - p.off), off := q.1, len := q.2, bytes := (p.bytes.drop (q.1 - p.off)).take q.2 }

/-- The parts of a write's host pieces that are still to be written: all but those kept (R94). -/
def Xfer.writeParts (t : Xfer) : List XPiece :=
  (t.pieces.filter (fun p => p.host && !p.done)).flatMap (fun p =>
    (t.kept.foldl (fun l h => minusRun h l) [(p.off, p.len)]).map p.part)

/-- The pieces of a write in module memory less what it keeps: bytes already placed outside the invalidated range are not written again
(R94). -/
def Xfer.unplaced (t : Xfer) : List XPiece :=
  t.pieces.flatMap (fun p => if p.host then [p] else (t.kept.foldl (fun l h => minusRun h l) [(p.off, p.len)]).map p.part)

/-- The engine a transfer serves: for what a run or a glean moves, the stream engine of the program's first furrow (R26, R291, R361). -/
def State.engineOf (s : State) (t : Xfer) : FabUnit :=
  let mine := fun (n : Nat) => match s.prog n with
    | some p => FabUnit.furrow (p.furrows.headD 0)
    | none => t.purpose.engine (dieOf t.func)
  match t.purpose with
  | .runIn n _ => mine n
  | .runOut n _ => mine n
  | .glean n => mine n
  | p => p.engine (dieOf t.func)

/-- A write of host memory as the programs see it: one over a REGION input of the same region (R325). What the host itself writes there
the module does not see. -/
def State.overwriteHost (s : State) (t : Xfer) (p : XPiece) : State :=
  { s with progs := s.progs.map (fun q =>
      let input := !t.purpose.ofRun q.1 && q.2.bindings.any (fun b => !b.output && b.kind == 0 &&
        keyIndex (BitVec.ofNat 32 b.a) == t.region && overlap b.b b.bytes p.off p.len)
      (q.1, if input then q.2.overwritten (s.startsDue q.2) true false else q.2)) }

/-- Puts a write's host pieces out as memory writes and remembers the last address written (R71, R72). -/
def State.emitWrites (s : State) (r : Region) (t : Xfer) : State :=
  forEach t.writeParts s (fun st p =>
    let st1 := (st.emit (.memWrite t.link t.func p.addr p.bytes (r.grants accRelaxed && !t.purpose.isEntry) (r.kind == .hostAts)))
    let st2 := st1.setPath { st1.pathOf t.func t.link t.viaRoot with lastAddr := p.addr + (p.len - 1) }
    ((st2.countPath t.func t.viaRoot true p.len).countAccess t.region p.off p.len).overwriteHost t p)

/-- Puts one transfer among others that stand in the order they were issued in. -/
def insertOrder (q : Nat × Xfer) : List (Nat × Xfer) → List (Nat × Xfer)
  | [] => [q]
  | v :: rest => if q.2.order < v.2.order then q :: v :: rest else v :: insertOrder q rest

/-- Transfers in the order in which they were issued (R81). -/
def byOrder (l : List (Nat × Xfer)) : List (Nat × Xfer) := l.foldl (fun acc q => insertOrder q acc) []

/-- The last host address of a transfer's pieces. -/
def Xfer.lastAddr (t : Xfer) : Nat :=
  match (t.pieces.filter (fun p => p.host)).getLast? with
  | some p => p.addr + (p.len - 1)
  | none => 0

/-- What the source of a COPY spans, gaps between its lines included, where a transfer writes its destination: runs of host memory, of
module memory, and of the virtual addresses that the destination's region shares with it (R120, R121). Host memory counts as far as it was
read or its translation is cached: DESIGN CHOICE, the module knows of no other (log entry 147). -/
def State.copySource (s : State) (t : Xfer) : List (Nat × Nat) × List (Nat × Nat) × List (Nat × Nat) :=
  match t.purpose with
  | .copyDst f r slot => (match (s.ring f r).bind (fun g => g.jobs.find? (fun j => j.slot == slot)), tget s.regions t.region with
    | some j, some d =>
      let k : Word32 := BitVec.ofNat 32 (leAt j.ent 16 4)
      let off := leAt j.ent 24 8
      let n := copySpan (copySide j 4)
      (match s.region k with
      | none => ([], [], [])
      | some q =>
        let va := q.vaOf off
        let cached := (s.link t.link).atc.filterMap (fun e =>
          let a := max va (e.page * 2 ^ e.log2)
          let b := min (va + n) ((e.page + 1) * 2 ^ e.log2)
          if e.func == q.func && e.mirror == (q.kind == .hostMirror) && decide (a < b) &&
              e.tag == (if q.kind == .hostMirror then keyIndex k else q.pasid.toNat) then some (e.addr + (a - e.page * 2 ^ e.log2), b - a)
          else none)
        if q.kind = .module then ([], s.localRuns k off n, [])
        else (j.srcAt ++ cached, s.localRuns k off n,
          if t.region = keyIndex k ∨ (q.kind = .hostAts ∧ d.kind = .hostAts ∧ q.pasid = d.pasid) then [(va, n)] else []))
    | _, _ => ([], [], []))
  | _ => ([], [], [])

/-- A piece of a COPY's destination: its bytes that lie in what its own source spans are undefined (R121). -/
def freeOverlap (use : Nat) (src : List (Nat × Nat) × List (Nat × Nat) × List (Nat × Nat)) (r : Region) (p : XPiece) : XPiece :=
  let va := r.vaOf p.off
  let hit := fun (i : Nat) => if p.host then inRanges src.1 (p.addr + i) || inRanges src.2.2 (va + i) else inRanges src.2.1 (p.addr + i)
  let meets := if p.host then src.1.any (fun q => overlap q.1 q.2 p.addr p.len) || src.2.2.any (fun q => overlap q.1 q.2 va p.len)
    else src.2.1.any (fun q => overlap q.1 q.2 p.addr p.len)
  if meets then { p with bytes := p.bytes.zipIdx.map (fun (b : Byte × Nat) => if hit b.2 then Config.freeByte use (p.addr + b.2) else b.1) } else p

/-- Sends the pieces of a transfer over the fabric: requests to the unit that holds them, with the bytes of a write (R357). -/
def State.fabXfer (s : State) (t : Xfer) : State :=
  forEach t.pieces s (fun st p =>
    st.fabSend (s.engineOf t) (if p.host then .link t.link else st.unitOfAddr p.addr) .dreq (if t.write then p.len else 0))

/-- Issues a resolved transfer: host reads and writes as TLPs, a flush behind host writes but for one of a replay, whose flush comes
behind the whole replay (R73, R81); module memory answers by MEM_READ_RESPONSE and MEM_WRITE_RESPONSE. -/
def State.issueXfer (s0 : State) (x : Nat) (r : Region) (t : Xfer) (pieces : List XPiece) : State :=
  let s := (s0.modLink t.link (fun l => l.refresh t.region r ((pieces.filter (fun p => p.host)).map (fun p => p.off)))).fabXfer { t with pieces := pieces }
  let src := s.copySource t
  let t0 := { t with
    phase := .issued
    order := if t.replay then t.order else s.nextId
    pieces := if t.write then (fillPieces pieces t.data).map (freeOverlap s.free src r) else pieces }
  let t1 := { t0 with pieces := t0.unplaced }
  let s1 := { s with xfers := tset s.xfers x { t1 with kept := [] }, nextId := s.nextId + 1, free := if t.purpose.copies then s.free + 1 else s.free }
  let hosts := t1.pieces.filter (fun p => p.host)
  let s2 :=
    if hosts.isEmpty then s1
    else if t.purpose.posted then s1.emitWrites r t1
    else if t.write && t.replay then s1.emitWrites r t1
    else if t.write then (s1.emitWrites r t1).startFlush t1 [x] t1.lastAddr false false
    else forEach hosts s1 (fun st p =>
      ((st.emit (.memRead t.link t.func x p.addr p.len (r.kind == .hostAts))).countPath t.func t.viaRoot false p.len).countAccess
        t.region p.off p.len)
  (s2.checkXfer x).entryIssued x

/-- Sends a translation request for the page of `off`, or joins the one outstanding; with 256 outstanding on the link
the transfer waits (R89). -/
def State.requestXlate (s : State) (x : Nat) (r : Region) (t : Xfer) (off : Nat) : State :=
  let page := r.vaOf off / 4096
  let mine := s.xlates.filter (fun q => !q.2.paging && q.2.link == t.link)
  if mine.any (fun q => !q.2.stale && q.2.func == t.func && q.2.pasid == r.pasid.toNat && q.2.page == page) then
    s.modXfer x (fun v => { v with phase := .waitXlate off, pieces := [] })
  else if mine.length ≥ 256 then s.modXfer x (fun v => { v with phase := .parked, pieces := [] })
  else
    let (id, s1) := s.newId
    (({ s1 with xlates := tset s1.xlates id ⟨t.func, t.link, r.pasid.toNat, page, t.write, false, false, false⟩ }.emit
      (.translationRequest t.link t.func id r.pasid.toNat page)).fabSend (s.engineOf t) (.link t.link) .creq 8).modXfer x
        (fun v => { v with phase := .waitXlate off, pieces := [] })

/-- Reads the mirror-table entry of the page of `off`, or joins the read outstanding (R91). -/
def State.requestMirror (s : State) (x : Nat) (r : Region) (t : Xfer) (off : Nat) : State :=
  let page := r.pageOf off
  let s1 := s.modXfer x (fun v => { v with phase := .waitXlate off, pieces := [] })
  if s.xfers.any (fun q => q.2.purpose == .mirrorEntry t.region page) then s1
  else
    let (id, s2) := s1.newId
    let a := r.mirrorAddr + 8 * page
    let v : Xfer := ⟨t.func, t.region, [], false, [], .mirrorEntry t.region page, .issued,
      [⟨true, a, 8, 0, false, []⟩], t.link, t.viaRoot, [], id, false⟩
    ({ s2 with xfers := tset s2.xfers id v }.emit (.memRead t.link t.func id a 8 false)).countPath t.func t.viaRoot false 8

/-- Carries a transfer as far as it goes: its region gone, its path fenced, its link down, an earlier replayed write still to be made, its
engine's crossing queue full (R360, R363), a translation missing, or issued. -/
def State.tryXfer (s : State) (x : Nat) : State :=
  match tget s.xfers x with
  | none => s
  | some t =>
    match tget s.regions t.region with
    | none => s.endXfer x .gone
    | some r =>
      if s.dying t.region then s.endXfer x .gone
      else if s.regionFenced r ∧ t.write then s.endXfer x .fenced
      else if r.host ∧ !(s.link t.link).up then s.modXfer x (fun v => { v with phase := .parked })
      else if r.kind = .hostAts ∧ !(s.func r.func).cfg.ats then s.endXfer x .xlateFault
      else if s.replayWaits t || s.fabFull (s.engineOf t) .dreq then s.modXfer x (fun v => { v with phase := .parked })
      else match (s.link t.link).resolveAll t.region r t.write t.spans with
        | .ok ps => s.issueXfer x r t ps
        | .miss off => if r.kind = .hostMirror then s.requestMirror x r t off else s.requestXlate x r t off
        | .fault => s.endXfer x .xlateFault

/-- Starts a transfer of function `f` on the region in `slot`. A region being destroyed is no longer there (R95). -/
def State.startXfer (s : State) (f : FuncId) (slot : Nat) (spans : List (Nat × Nat)) (write : Bool) (data : Bytes)
    (purpose : Purpose) : State :=
  let (x, s1) := s.newId
  let via := match tget s.regions slot with | some r => r.viaRoot | none => false
  { s1 with xfers := tset s1.xfers x ⟨f, slot, spans, write, data, purpose, .parked, [], linkOf f, via, [], 0, false⟩ }.tryXfer x

/-- Starts a read. -/
def State.startRead (s : State) (f : FuncId) (k : Word32) (off len : Nat) (p : Purpose) : State :=
  s.startXfer f (keyIndex k) [(off, len)] false [] p

/-- Starts a write. -/
def State.startWrite (s : State) (f : FuncId) (k : Word32) (off : Nat) (data : Bytes) (p : Purpose) : State :=
  s.startXfer f (keyIndex k) [(off, data.length)] true data p

/-- Tries again every transfer of a link that waits without a request of its own and has none of its runs issued. -/
def State.retryParked (s : State) (l : LinkId) : State :=
  if !(s.link l).up then s
  else
    let ids := (s.xfers.filter (fun q => q.2.link == l && q.2.phase == .parked && q.2.pieces.isEmpty)).map Prod.fst
    forEach ids s (fun st x => st.tryXfer x)

/-- Tries again every transfer that waits without a request of its own: its engine may have room again (R360, R363). -/
def State.retryFab (s : State) : State :=
  let ids := (s.xfers.filter (fun q => q.2.phase == .parked && q.2.pieces.isEmpty && !s.fabFull (s.engineOf q.2) .dreq)).map
    Prod.fst
  forEach ids s (fun st x => st.tryXfer x)

/-! ### Read and write responses -/

/-- The answers of module memory to a transfer cross the fabric: read data, or a write response (R357). -/
def State.fabAnswer (s : State) (t : Xfer) : State :=
  forEach (t.pieces.filter (fun p => !p.host && !p.done)) s (fun st p =>
    st.fabSend (st.unitOfAddr p.addr) (s.engineOf t) .drsp (if t.write then 0 else p.len))

/-- Two pieces in module memory share a 64-byte block (R350). -/
def XPiece.shares (p q : XPiece) : Bool :=
  !p.host && !q.host && !p.done && !q.done && decide (0 < p.len) && decide (0 < q.len) &&
  decide (p.addr / 64 ≤ (q.addr + q.len - 1) / 64) && decide (q.addr / 64 ≤ (p.addr + p.len - 1) / 64)

/-- An access that the same engine sent earlier to a block of this transfer is not served yet: packets of one flow arrive in the order
they were sent, and the controller serves a block's accesses in the order they arrive (R350, R359). -/
def State.memBehind (s : State) (t : Xfer) : Bool :=
  s.xfers.any (fun q => decide (q.2.order < t.order) && (q.2.write || t.write) &&
    s.engineOf q.2 == s.engineOf t && t.pieces.any (fun p => q.2.pieces.any (fun w => p.shares w)))

/-- Gives host pieces the bytes of a completion, in order. -/
def fillRead : List XPiece → Bytes → List XPiece
  | [], _ => []
  | p :: r, d => if p.host then { p with bytes := fit p.len d, done := true } :: fillRead r (d.drop p.len)
    else p :: fillRead r d

/-- One read of module memory for each piece; whether a block was uncorrectable. -/
def State.readPieces (s : State) (r : Region) : List XPiece → List BlockObs → State × List XPiece × Bool
  | [], _ => (s, [], false)
  | p :: rest, obs =>
    if p.host || p.done then
      let e := s.readPieces r rest obs
      (e.1, p :: e.2.1, e.2.2)
    else
      let d := if r.kind = .module then s.regionRead r p.off p.addr p.len obs else s.memRead p.addr p.len obs
      let e := d.1.readPieces r rest d.2.2.2
      (e.1, { p with bytes := d.2.1, done := true } :: e.2.1, d.2.2.1 || e.2.2)

/-- In place of a region's number, for what the collective engine reads from its reduction slots. -/
def slotMemory : Nat := 2 ^ 32

/-- A reduction slot has been read: its bytes as the blocks prove to be (R284, R342 to R345). -/
def State.slotRead (s : State) (x : Nat) (t : Xfer) (obs : List BlockObs) : State :=
  let p := t.pieces.headD ⟨false, 0, 0, 0, false, []⟩
  let d := ((s.fabAnswer t).countMem p.addr p.len 0).decodeBlocks (blocksOf p.addr p.len) obs
  let bytes := p.bytes.zipIdx.map (fun (b : Byte × Nat) => match d.2.2.find? (fun w => w.1 == (p.addr + b.2) / 64) with
    | some w => w.2.getD ((p.addr + b.2) % 64) 0
    | none => b.1)
  d.1.endXfer x (if d.2.1 then .memError else .ok bytes)

/-- Module memory answers the read of a transfer, in the order its blocks were reached (R342 to R345, R350, R359). -/
def State.memReadDone (s : State) (x : Nat) (obs : List BlockObs) : State :=
  match tget s.xfers x with
  | none => s
  | some t =>
    if t.write ∨ s.memBehind t ∨ !(t.pieces.any (fun p => !p.host && !p.done)) then s
    else match tget s.regions t.region with
      | none => if t.region = slotMemory then s.slotRead x t obs else s.endXfer x .gone
      | some r =>
        let d := (s.fabAnswer t).readPieces r t.pieces obs
        let d1 := if t.purpose.atomic then forEach (t.pieces.filter (fun p => !p.host && !p.done)) d.1 (fun st p => st.recode p.addr p.len obs) else d.1
        let s1 := d1.modXfer x (fun v => { v with pieces := d.2.1 })
        if d.2.2 then s1.endXfer x .memError else s1.checkXfer x

/-- One write of module memory for each piece. -/
def State.writePieces (s : State) (r : Region) : List XPiece → List BlockObs → State
  | [], _ => s
  | p :: rest, obs =>
    if p.host || p.done then s.writePieces r rest obs
    else
      let d := if r.kind = .module then s.regionWrite r p.off p.addr p.bytes obs else s.memWrite p.addr p.bytes obs
      d.1.writePieces r rest d.2

/-- Module memory has taken the writes of a transfer: they are placed and visible (R21, R350, R359, R470). -/
def State.memWriteDone (s : State) (x : Nat) (obs : List BlockObs) : State :=
  match tget s.xfers x with
  | none => s
  | some t =>
    if !t.write ∨ s.memBehind t ∨ !(t.pieces.any (fun p => !p.host && !p.done)) then s
    else match tget s.regions t.region with
      | none => s.endXfer x .gone
      | some r =>
        let s0 := (s.fabAnswer t).writePieces r t.pieces obs
        let s1 := match t.purpose.writesFor with
          | some n => s.ownWrite s0 n
          | none => s0
        (s1.modXfer x (fun v => { v with pieces := v.pieces.map (fun p => if p.host then p else { p with done := true }) })).checkXfer x

/-- A mirror entry has been read: a VALID entry with no bit set below its page size is cached; any other fails the
accesses that wait for it (R91). -/
def State.mirrorRead (s : State) (x : Nat) (t : Xfer) (slot page : Nat) (bytes : Bytes) : State :=
  let s0 := s.dropXfer x
  match tget s.regions slot with
  | none => s0
  | some r =>
    let e := leAt bytes 0 8
    let lg := mirrorLog2 r.mirrorPage
    let addr := e / 4096 * 4096
    let valid := bit e 0 && addr % 2 ^ lg == 0
    let waiting := (s0.xfers.filter (fun q => q.2.region == slot && (match q.2.phase with
      | .waitXlate off => r.pageOf off == page
      | _ => false))).map Prod.fst
    let s1 := if valid then s0.modLink t.link (fun l => l.cache ⟨r.func, true, slot, page, lg, addr, bit e 1⟩) else s0
    forEach waiting s1 (fun st w => match tget st.xfers w with
      | none => st
      | some v => if !valid || (v.write && !bit e 1) then st.endXfer w .xlateFault else st.tryXfer w)

/-- The host memory that a COPY's source lies in is remembered (R121). -/
def State.noteSource (s : State) (t : Xfer) : State :=
  match t.purpose with
  | .copySrc f r slot =>
    let at_ := (t.pieces.filter (fun p => p.host)).map (fun p => (p.addr, p.len))
    s.modRing f r (fun v => { v with jobs := v.jobs.map (fun j => if j.slot = slot then { j with srcAt := at_ } else j) })
  | _ => s

/-- A host read returns, and its data crosses the fabric to the engine (R26, R357): a dropped one is discarded (R82, R93). -/
def State.hostReadDone (s : State) (x : Nat) (bytes : Bytes) : State :=
  match tget s.xfers x with
  | none => s
  | some t =>
    if t.write ∨ t.phase ≠ .issued ∨ !(t.pieces.any (fun p => p.host && !p.done)) then s
    else match t.purpose with
      | .mirrorEntry slot page => (s.fabSend (.link t.link) (s.engineOf t) .drsp bytes.length).mirrorRead x t slot page bytes
      | _ => (((s.noteSource t).fabSend (.link t.link) (s.engineOf t) .drsp bytes.length).modXfer x (fun v => { v with pieces := fillRead v.pieces bytes })).checkXfer x

/-! ### Translations and page requests (R89, R90) -/

/-- Whether a transfer is the placement of a peer's frame, its data or its flag, which is answered with NAK_RNR instead of waiting
(R90). -/
def Purpose.isFrame : Purpose → Bool
  | .packet _ _ => true
  | .flag _ _ => true
  | _ => false

/-- The transfers that wait for a page of a function's PASID: for its translation, or for its page request. -/
def State.waitersFor (s : State) (q : XlateReq) : List Nat :=
  (s.xfers.filter (fun e => e.2.func == q.func && (match tget s.regions e.2.region with
    | none => false
    | some r => r.kind == .hostAts && r.pasid.toNat == q.pasid && (match e.2.phase with
      | .waitXlate off => !q.paging && r.vaOf off / 4096 == q.page
      | .waitPage off => q.paging && r.vaOf off / 4096 == q.page
      | _ => false)))).map Prod.fst

/-- A page request is outstanding for a function's page (R90). -/
def State.pagePending (s : State) (f : FuncId) (pasid page : Nat) : Bool :=
  s.xlates.any (fun q => q.2.paging && q.2.func == f && q.2.pasid == pasid && q.2.page == page)

/-- Notes that a peer's frame was refused at a page whose request is pending (R90). -/
def State.notePeer (s : State) (q : XlateReq) : State :=
  { s with xlates := s.xlates.map (fun (e : Nat × XlateReq) =>
      if e.2.paging && e.2.func == q.func && e.2.pasid == q.pasid && e.2.page == q.page then (e.1, { e.2 with peer := true }) else e) }

/-- No usable translation: a page request with the Last flag, one per page, at most as many per link as the host allocated; the transfer
waits, a peer's frame is refused; the peer's retry after the request failed, and any access after a Response Failure, fails (R90). DESIGN
CHOICE: R90 does not say which later frame gets the remote access error: the first that is retried on the page does, and the page is then
asked for anew; and it does not say what becomes of an access that would need a request while none is sent: it fails at once as a
translation fault (log entry 143). -/
def State.pageFault (s : State) (x : Nat) (q : XlateReq) (off : Nat) : State :=
  match tget s.xfers x with
  | none => s
  | some t =>
    if (s.func t.func).cfg.priStopped then s.endXfer x .xlateFault
    else if t.purpose.isFrame && s.pageFails.contains (q.func, q.pasid, q.page) then
      { s with pageFails := s.pageFails.erase (q.func, q.pasid, q.page) }.endXfer x .xlateFault
    else
      let pend := s.pagePending q.func q.pasid q.page
      let count := (s.xlates.filter (fun e => e.2.paging && e.2.link == q.link)).length
      if !pend && decide (count ≥ min 512 (s.link q.link).pageRequests) then
        (if t.purpose.isFrame then s.endXfer x .pageWait else s.modXfer x (fun v => { v with phase := .parked, pieces := [] }))
      else
        let s1 := if pend then s
          else
            let (id, s2) := s.newId
            ({ s2 with xlates := tset s2.xlates id { q with paging := true, write := t.write } }.emit
              (.pageRequest q.link q.func id q.pasid q.page)).fabSend (s.engineOf t) (.link q.link) .creq 16
        if t.purpose.isFrame then (s1.notePeer q).endXfer x .pageWait
        else s1.modXfer x (fun v => { v with phase := .waitPage off, pieces := [] })

/-- The region offset a transfer waits at. -/
def Xfer.waitOff (t : Xfer) : Nat :=
  match t.phase with
  | .waitXlate o => o
  | .waitPage o => o
  | .issued => 0
  | .parked => 0
  | .reread => 0

/-- A translation completion returns and is cached for the transfers that wait for it; one whose page was invalidated meanwhile is
dropped (R89, R90, R93). -/
def State.xlateDone (s : State) (id : Nat) (ans : AtsAnswer) : State :=
  match tget s.xlates id with
  | none => s
  | some q =>
    if q.paging then s
    else
      let ws := if q.stale then [] else s.waitersFor q
      let s0 := ({ s with xlates := tdel s.xlates id } : State).fabSend (.link q.link) (.transport (dieOf q.func)) .crsp 16
      let s1 := match ans with
        | .translated addr lg w =>
          let s2 := if q.stale then s0 else s0.modLink q.link (fun l =>
            l.cache ⟨q.func, false, q.pasid, q.page * 4096 / 2 ^ lg, lg, addr.toNat, w⟩)
          forEach ws s2 (fun st x => match tget st.xfers x with
            | none => st
            | some t => if t.write && !w then st.pageFault x q t.waitOff
              else ({ st with pageFails := st.pageFails.erase (q.func, q.pasid, q.page) } : State).tryXfer x)
        | .noAccess =>
          forEach ws s0 (fun st x => match tget st.xfers x with
            | none => st
            | some t => st.pageFault x q t.waitOff)
      s1.retryParked q.link

/-- A page request ends: on Success the module translates again; else the accesses that wait fail (R90). -/
def State.pageDone (s : State) (id : Nat) (ok stop : Bool) : State :=
  match tget s.xlates id with
  | none => s
  | some q =>
    if !q.paging then s
    else
      let ws := s.waitersFor q
      let s0 := { s with xlates := tdel s.xlates id }
      let s0 := if !ok && q.peer then { s0 with pageFails := s0.pageFails.erase (q.func, q.pasid, q.page) ++ [(q.func, q.pasid, q.page)] } else s0
      let s1 := if stop then s0.modFunc q.func (fun f => { f with cfg := { f.cfg with priStopped := true } }) else s0
      (forEach ws s1 (fun st x => if ok then st.tryXfer x else st.endXfer x .xlateFault)).retryParked q.link

/-- The host's response to a page request crosses the fabric (R90, R357). -/
def State.pageAnswered (s : State) (id : Nat) (ok stop : Bool) : State :=
  match tget s.xlates id with
  | none => s
  | some q =>
    if !q.paging then s else (s.fabSend (.link q.link) (.transport (dieOf q.func)) .crsp 16).pageDone id ok stop

/-! ### Flushes and fences (R71, R73) -/

/-- The host pieces of a transfer are placed and visible. -/
def State.hostVisible (s : State) (x : Nat) : State :=
  (s.modXfer x (fun v => { v with pieces := v.pieces.map (fun p => if p.host then { p with done := true } else p) })).checkXfer x

/-- Lifts the fence of a path (R73). -/
def State.liftFence (s : State) (f : FuncId) (l : LinkId) (v : Bool) : State :=
  s.setPath { s.pathOf f l v with fails := 0, fenced := false }

/-- A flush read completes successfully: the writes it covers are placed and visible, its path's count of failures is 0;
a probe flush lifts the fence (R71, R73). -/
def State.flushDone (s : State) (id : Nat) : State :=
  match tget s.flushes id with
  | none => s
  | some fl =>
    let s1 := ({ s with flushes := tdel s.flushes id } : State).fabSend (.link fl.link) (.transport (dieOf fl.func)) .drsp 0
    let s2 := s1.liftFence fl.func fl.link fl.viaRoot
    forEach fl.covers s2 (fun st x => st.hostVisible x)

/-- Fences a path: a fault record, and every unflushed write on it ends as fenced; the completion rings that use it follow (R73, R468). -/
def State.fencePath (s : State) (f : FuncId) (l : LinkId) (v : Bool) : State :=
  let s1 := (s.setPath { s.pathOf f l v with fenced := true }).fault 2 2 (some f) l.val 0 0
  let ids := (s1.xfers.filter (fun q => q.2.func == f && q.2.link == l && q.2.viaRoot == v && q.2.write &&
    q.2.pieces.any (fun p => p.host && !p.done))).map Prod.fst
  let s2 := { s1 with flushes := s1.flushes.filter (fun q =>
    !(q.2.func == f && q.2.link == l && q.2.viaRoot == v && !q.2.probe)) }
  let s3 := forEach ids.reverse s2 (fun st x => st.endXfer x .fenced)
  { s3 with agenda := s3.agenda ++ [(.pathFenced f, .fenced)] }

/-- A COPY's destination write is not made from the bytes it held: its source is to be read again (R81, R94). -/
def State.rereadCopy (s : State) (x : Nat) (t : Xfer) (kept : List (Nat × Nat)) (replay : Bool) : State :=
  match t.purpose with
  | .copyDst f r slot =>
    let s1 := s.dropXfer x
    { s1 with
      xfers := tset s1.xfers x { t with phase := .reread, pieces := [], data := [], kept := kept, replay := replay }
      agenda := s1.agenda ++ [(.copyAgain f r slot, .ok [])] }
  | _ => s

/-- Behind a replay whose every write has been made, one flush per path covers them (R73, R81). -/
def State.replayFlush (s : State) (l : LinkId) : State :=
  let need := byOrder (s.xfers.filter (fun q => q.2.link == l && q.2.replay && q.2.phase == .issued && q.2.write &&
    q.2.pieces.any (fun p => p.host && !p.done) && !s.flushes.any (fun f => f.2.covers.contains q.1)))
  forEach (s.paths.filter (fun p => p.link == l)) s (fun st p =>
    let mine := need.filter (fun q => q.2.func == p.func && q.2.viaRoot == p.viaRoot)
    match mine.getLast? with
    | some q => st.startFlush q.2 (mine.map Prod.fst) q.2.lastAddr false (s.link l).replaying
    | none => st)

/-- Makes the recorded writes of a link again in the order they were issued in, as far as that goes now: one whose source is to be read
again, or that waits for a translation, holds those behind it (R73, R81). -/
def State.replayStep (fuel : Nat) (s : State) (l : LinkId) : State :=
  match fuel with
  | 0 => s
  | k + 1 =>
    match (byOrder (s.xfers.filter (fun q => q.2.link == l && q.2.replay && q.2.phase != .issued))).head? with
    | none => s.replayFlush l
    | some (x, t) =>
      if t.phase != .parked || !(s.link l).up then s
      else if t.pieces.isEmpty then
        let s1 := s.tryXfer x
        if (tget s1.xfers x).any (fun v => v.phase != .issued) then s1 else State.replayStep k s1 l
      else match tget s.regions t.region with
        | none => State.replayStep k (s.endXfer x .gone) l
        | some r => State.replayStep k (((s.modXfer x (fun v => { v with phase := .issued })).fabXfer t).emitWrites r t) l

/-- The replay of a link goes on (R81). -/
def State.replayRun (s : State) (l : LinkId) : State :=
  let n := (s.xfers.filter (fun q => q.2.link == l && q.2.replay)).length
  if n = 0 then s else State.replayStep (n + 1) s l

/-- Writes of a link that are to be made again from their records, a COPY's from its source read again (R73, R81). -/
def State.replayWrites (s : State) (l : LinkId) (ids : List Nat) : State :=
  let s1 : State := { s with xfers := s.xfers.map (fun (q : Nat × Xfer) =>
    if ids.contains q.1 then (q.1, { q.2 with phase := .parked, kept := [], replay := true }) else q) }
  let copies := s1.xfers.filter (fun q => ids.contains q.1 && q.2.purpose.copies)
  (forEach copies s1 (fun st q => st.rereadCopy q.1 q.2 [] true)).replayRun l

/-- A flush fails: a fault record; the covered writes are replayed and flushed again, and after three failures in a row
the path is fenced. A failed probe flush leaves the fence (R73). -/
def State.flushFail (s : State) (id : Nat) : State :=
  match tget s.flushes id with
  | none => s
  | some fl =>
    let s1 := { s with flushes := tdel s.flushes id }
    if fl.probe then s1
    else
      let p := s1.pathOf fl.func fl.link fl.viaRoot
      let s1 : State := { s1 with xfers := s1.xfers.map (fun (q : Nat × Xfer) =>
        if q.2.func == fl.func && q.2.link == fl.link && q.2.viaRoot == fl.viaRoot then (q.1, { q.2 with kept := [] }) else q) }
      let s2 := (s1.setPath { p with fails := p.fails + 1 }).fault 2 1 (some fl.func) fl.link.val 0 0
      if p.fails + 1 ≥ 3 then s2.fencePath fl.func fl.link fl.viaRoot
      else s2.replayWrites fl.link fl.covers

/-- Issues a probe flush on every fenced path of a link that is up and has none outstanding (R73). -/
def State.probeLink (s : State) (l : LinkId) : State :=
  if !(s.link l).up then s
  else
    let ps := s.paths.filter (fun p => p.fenced && p.link == l &&
      !s.flushes.any (fun q => q.2.probe && q.2.func == p.func && q.2.link == p.link && q.2.viaRoot == p.viaRoot))
    forEach ps s (fun st p =>
      st.startFlush ⟨p.func, 0, [], true, [], .firmware p.func, .issued, [], p.link, p.viaRoot, [], 0, false⟩ [] p.lastAddr true false)

/-! ### Invalidation (R93 to R95) -/

/-- The run (region offset, length) of a transfer's piece that an invalidation reaches; length 0 where it reaches none. -/
abbrev Reach := Xfer → XPiece → Nat × Nat

/-- The part of a piece inside the run of `n` region offsets at `a`. -/
def XPiece.within (p : XPiece) (a n : Nat) : Nat × Nat :=
  if overlap p.off p.len a n then (max p.off a, min (p.off + p.len) (a + n) - max p.off a) else (p.off, 0)

/-- What a fenced write keeps: the runs it has written, in host memory or already in module memory, that the invalidation does not reach
(R94). -/
def Xfer.keeps (t : Xfer) (reach : Reach) : List (Nat × Nat) :=
  if t.phase = .issued then (t.pieces.filter (fun p => p.host || p.done)).flatMap (fun p => minusRun (reach t p) [(p.off, p.len)])
  else t.kept.flatMap (fun q => minusRun (reach t ⟨true, 0, q.2, q.1, false, []⟩) [q])

/-- A read of a mirror-table entry is outstanding for a page that an invalidation reaches: what it returns may be the old entry, so it is
dropped, and the transfers that wait for it read the entry anew (R92). -/
def State.dropMirrorReads (s : State) (slot : Nat) (page : Nat → Bool) : State :=
  let ids := (s.xfers.filter (fun (q : Nat × Xfer) => match q.2.purpose with
    | .mirrorEntry k p => k == slot && page p
    | _ => false)).map Prod.fst
  let s1 := forEach ids s (fun st x => st.dropXfer x)
  match tget s1.regions slot with
  | none => s1
  | some r =>
    let ws := (s1.xfers.filter (fun (q : Nat × Xfer) => q.2.region == slot && (match q.2.phase with
      | .waitXlate off => page (r.pageOf off)
      | _ => false))).map Prod.fst
    if ids.isEmpty then s1 else forEach ws s1 (fun st x => (st.modXfer x (fun v => { v with phase := .parked })).tryXfer x)

/-- The module's own read of a mirror-table entry, which is no transfer of the region's bytes (R91). -/
def Purpose.readsMirror : Purpose → Bool
  | .mirrorEntry _ _ => true
  | _ => false

/-- Transfers that wait for a translation or page within a run of a region look their translation up anew: the mapping there has changed
(R93, R98). -/
def State.rewait (s : State) (slot off len : Nat) : State :=
  let ws := (s.xfers.filter (fun (q : Nat × Xfer) => q.2.region == slot && (match q.2.phase with
    | .waitXlate o => decide (off ≤ o) && decide (o < off + len)
    | .waitPage o => decide (off ≤ o) && decide (o < off + len)
    | _ => false))).map Prod.fst
  forEach ws s (fun st x => (st.modXfer x (fun v => { v with phase := .parked })).tryXfer x)

/-- Translation requests outstanding for pages that an invalidation names: what they return may be the old translation. The transfers that
wait for them ask anew (R93 step 1). -/
def State.staleXlates (s : State) (hit : XlateReq → Bool) : State :=
  let ids := (s.xlates.filter (fun (q : Nat × XlateReq) => !q.2.paging && !q.2.stale && hit q.2)).map Prod.snd
  let ws := ids.flatMap s.waitersFor
  let s1 : State := { s with xlates := s.xlates.map (fun (q : Nat × XlateReq) =>
    if !q.2.paging && hit q.2 then (q.1, { q.2 with stale := true }) else q) }
  forEach ws s1 (fun st x => (st.modXfer x (fun v => { v with phase := .parked })).tryXfer x)

/-- Steps 1 to 4 of R93: cached translations the invalidation names are dropped; write transfers it reaches are fenced
and start again under a fresh translation when it ends, a COPY's with its source read again (R94), or end when their region is being
destroyed; reads it reaches are awaited. -/
def State.startInval (s : State) (l : LinkId) (drop : AtcEntry → Bool) (reach : Reach) (v : Inval) : Nat × State :=
  let s1 := s.modLink l (fun k => { k with atc := k.atc.filter (fun e => !drop e) })
  let hit := s1.xfers.filter (fun q => (q.2.phase == .issued || q.2.phase == .parked) && !q.2.purpose.readsMirror &&
    q.2.pieces.any (fun p => !p.done && decide (0 < (reach q.2 p).2)))
  let anew := hit.filter (fun q => q.2.write || q.2.phase == .parked)
  let writes := anew.map Prod.fst
  let reads := (hit.filter (fun q => !q.2.write && q.2.phase == .issued)).map Prod.fst
  let s1 : State := { s1 with xfers := s1.xfers.map (fun (q : Nat × Xfer) =>
    if q.2.kept.isEmpty then q else (q.1, { q.2 with kept := q.2.keeps reach })) }
  let s2 := forEach writes s1 (fun st x =>
    if v.destroy then st.endXfer x .gone
    else match tget st.xfers x with
      | none => st
      | some t =>
        if t.purpose.copies then st.rereadCopy x t (t.keeps reach) t.replay
        else
        let st1 := st.dropXfer x
        { st1 with xfers := tset st1.xfers x { t with phase := .parked, pieces := [], kept := t.keeps reach } })
  let (id, s3) := s2.newId
  (id, { s3 with invals := tset s3.invals id { v with reads := reads } })

/-- The command RUNNING at a function is the one whose invalidation this is: a reset may have ended it (R58). -/
def State.awaitsInval (s : State) (f : FuncId) (id : Nat) : Bool :=
  match (s.func f).mbx.long with
  | some (.invalidation x, _) => x == id
  | _ => false

/-- Ends an invalidation: the region it destroys is freed (R85, R95), then the Invalidate Completion or the command's
response is sent (R93 step 6), and fenced transfers start again (R94). -/
def State.endInval (s : State) (id : Nat) : State :=
  match tget s.invals id with
  | none => s
  | some v =>
    let s1 : State := { s with invals := tdel s.invals id }
    let s2 := match (if v.destroy then v.slot else none) with
      | none => s1
      | some slot =>
        match tget s1.regions slot with
        | none => s1
        | some r =>
          let waiting := (s1.xfers.filter (fun (q : Nat × Xfer) => q.2.region == slot)).map Prod.fst
          let st := { s1 with
            regions := tdel s1.regions slot
            gens := tset s1.gens slot ((r.gen + 1) % 4096)
            regionSeries := s1.regionSeries.give slot }
          forEach waiting st (fun w x => w.endXfer x .gone)
    let s3 := if v.ats then s2.emit (.invalidateCompletion v.link v.func)
      else if v.mail && s2.awaitsInval v.func id then s2.answerLong v.func (Reply.ok []) else s2
    s3.retryParked v.link

/-- Ends every invalidation that awaits no read; an Invalidate Completion waits for its link (R81). -/
def State.endInvals (s : State) : State :=
  forEach ((s.invals.filter (fun v => v.2.reads.isEmpty && (!v.2.ats || (s.link v.2.link).up))).map Prod.fst) s (fun st id => st.endInval id)

/-- 7.5 µs after step 1: the reads still outstanding are abandoned and issued anew under a fresh translation (R93 step
5). -/
def State.abandonReads (s : State) (id : Nat) : State :=
  match tget s.invals id with
  | none => s
  | some v =>
    let s1 := { s with invals := tset s.invals id { v with reads := [] } }
    forEach v.reads s1 (fun st x => match tget st.xfers x with
      | none => st
      | some t =>
        let (y, st1) := (st.dropXfer x).newId
        let st2 := { st1 with xfers := tset st1.xfers y { t with phase := .parked, pieces := [] } }
        if v.destroy then st2.endXfer y .gone else st2)

/-- Destroys the region in a slot under R93 and R95: its cached translations are dropped, its waiting transfers end, its fence ends with
it (R73). -/
def State.destroyRegion (s : State) (slot : Nat) (mail : Bool) (issuer : FuncId) : Nat × State :=
  match tget s.regions slot with
  | none => s.newId
  | some r =>
    let l := linkOf r.func
    let waiting := (s.xfers.filter (fun q => q.2.region == slot && q.2.phase != .issued)).map Prod.fst
    let s0 := forEach waiting s (fun st x => st.endXfer x .gone)
    let s1 := s0.dropMirrorReads slot (fun _ => true)
    s1.startInval l (fun e => e.func == r.func && (if e.mirror then e.tag == slot
        else r.kind == .hostAts && e.tag == r.pasid.toNat && overlap (e.page * 2 ^ e.log2) (2 ^ e.log2) r.base r.length))
            (fun t p => if t.region == slot then (p.off, p.len) else (p.off, 0))
      ⟨[], l, false, mail, issuer, some slot, true⟩

/-! ### Link down and up (R80, R81) -/

/-- Steps 1 and 2 of R81 at link-down: flushes are lost, unflushed host writes await replay, host reads await reissue. -/
def State.loseLink (s : State) (l : LinkId) : State :=
  { s with
    flushes := s.flushes.filter (fun (q : Nat × Flush) => q.2.link != l)
    xlates := s.xlates.filter (fun (q : Nat × XlateReq) => q.2.link != l)
    xfers := s.xfers.map (fun (q : Nat × Xfer) =>
      if q.2.link != l then q
      else match q.2.phase with
        | .issued => if q.2.pieces.any (fun p => p.host && !p.done) then (q.1, { q.2 with phase := .parked }) else q
        | .waitXlate _ => (q.1, { q.2 with phase := .parked, pieces := [], kept := [] })
        | .waitPage _ => (q.1, { q.2 with phase := .parked, pieces := [], kept := [] })
        | .parked => (q.1, { q.2 with kept := [] })
        | .reread => (q.1, { q.2 with kept := [] })) }

/-- The TLPs of a region carry translated addresses (R89, R91). -/
def State.translated (s : State) (slot : Nat) : Bool := (tget s.regions slot).any (fun r => r.kind == .hostAts)

/-- Steps 2 and 4 of R81 after DL_Active: reads are issued again, every recorded write is replayed in its original order with those of
COPY requests, whose sources are read again, and one flush per path follows with REPLAYING set. -/
def State.replayLink (s : State) (l : LinkId) : State :=
  let all := byOrder (s.xfers.filter (fun q => q.2.link == l && q.2.phase == .parked && !q.2.pieces.isEmpty))
  let s1 := forEach (all.filter (fun q => !q.2.write)) s (fun st (q : Nat × Xfer) =>
    forEach (q.2.pieces.filter (fun p => p.host && !p.done)) (st.modXfer q.1 (fun v => { v with phase := .issued })) (fun w p =>
      (w.emit (.memRead l q.2.func q.1 p.addr p.len (st.translated q.2.region))).countPath q.2.func q.2.viaRoot false p.len))
  let writes := (all.filter (fun q => q.2.write)).map Prod.fst
  let s2 := if writes.isEmpty then s1 else (s1.modLink l (fun k => { k with replaying := true })).replayWrites l writes
  s2.retryParked l

/-- Takes the outstanding read of a ring's entry out (R132, R469). -/
def State.dropEntryRead (s : State) (f : FuncId) (r : Nat) : State :=
  forEach ((s.xfers.filter (fun (q : Nat × Xfer) => match q.2.purpose with
    | .ringEntry g k _ => g == f && k == r
    | _ => false)).map Prod.fst) s (fun st x => st.dropXfer x)

/-- Drops everything outstanding of a function: transfers, flushes, translation and page requests (R82 steps 3 and 4). The failure counts
and fences of its paths stay as they are: DESIGN CHOICE, R73 and R82 say nothing of them (log entry 144). -/
def State.dropFunc (s : State) (f : FuncId) : State :=
  let s1 := forEach ((s.xfers.filter (fun (q : Nat × Xfer) => q.2.func == f)).map Prod.fst) s (fun st x => st.dropXfer x)
  { s1 with
    flushes := s1.flushes.filter (fun (q : Nat × Flush) => q.2.func != f)
    pageFails := s1.pageFails.filter (fun q => q.1 != f)
    xlates := s1.xlates.filter (fun (q : Nat × XlateReq) => q.2.func != f) }

end Sys2Proof.Machine
end

