-- ==== Sys2Proof/Machine/Completion.lean ====
section
/-! DEFINITION. Machine/Completion.lean: completion rings with their windrows (R100, R111 to R118, R134, R468), trigger
counters and pulses (R160, R167, R322), and the completion of requests in ring order (R106, R114, R122, R128, R151). -/

namespace Sys2Proof.Machine

/-! ### Status codes (R113, R326, R345) -/

/-- OK. -/
def stOk : Nat := 0x00
/-- ACCESS_FAULT. -/
def stAccessFault : Nat := 0x01
/-- TRANSLATION_FAULT. -/
def stTranslationFault : Nat := 0x02
/-- BAD_ENTRY. -/
def stBadEntry : Nat := 0x03
/-- BAD_CHAIN. -/
def stBadChain : Nat := 0x04
/-- AUTH_FAIL. -/
def stAuthFail : Nat := 0x05
/-- REMOTE_ACCESS_ERROR. -/
def stRemoteAccess : Nat := 0x06
/-- TRANSPORT_ERROR. -/
def stTransport : Nat := 0x07
/-- PATH_FENCED. -/
def stPathFenced : Nat := 0x08
/-- RUN_ABORTED. -/
def stRunAborted : Nat := 0x09
/-- MEMORY_ERROR. -/
def stMemoryError : Nat := 0x0A

/-- The model's mark of a request fenced without completion, write-back or pulse (R132, R146). -/
def stSilent : Nat := 0x100

/-- The status of a request whose transfer ended with a result (R86, R90, R73, R345). -/
def XResult.status : XResult → Nat
  | .ok _ => stOk
  | .memError => stMemoryError
  | .xlateFault => stTranslationFault
  | .fenced => stPathFenced
  | .pageWait => stTranslationFault
  | .gone => stAccessFault

/-! ### Ring indices (R100, R101) -/

/-- Entries of a ring: 2^LOG2_SIZE (R100). -/
def ringN (log2 : Nat) : Nat := 2 ^ log2

/-- (a − b) mod 2N over linear indices (R101). -/
def ringDist (n a b : Nat) : Nat := (a + 2 * n - b % (2 * n)) % (2 * n)

/-- The linear index W × N + I of a register value: WRAP in bit 16, INDEX in bits 15:0 (R100, R101). -/
def linearOf (n v : Nat) : Nat := bits v 16 16 * n + bits v 15 0

/-- The index layout of R100 of a linear index. -/
def indexOf (n l : Nat) : Nat := l / n % 2 * 65536 + l % n

/-! ### Completion rings (R111 to R118) -/

/-- N of a completion ring. -/
def Cq.n (q : Cq) : Nat := ringN q.log2

/-- Entries in the ring (R101). -/
def Cq.occupied (q : Cq) : Nat := ringDist q.n q.prod q.cons

/-- free of R117. -/
def Cq.free (q : Cq) : Nat := (q.n - q.occupied + q.windrowEntries) - (q.windrow.length + q.reserved)

/-- The state of R118. -/
def Cq.state (q : Cq) : CqState :=
  if q.faulted then .faulted else if q.free = 0 then .backpressure else if q.windrow.isEmpty then .normal else .spilling

/-- The 32 bytes of a completion entry with its PHASE (R111). -/
def Cqe.toBytes (e : Cqe) (phase : Nat) : Bytes :=
  leBytes 8 e.userData ++ leBytes 4 (min e.bytes max32) ++ leBytes 4 (e.ring % 2 ^ 18) ++ leBytes 2 e.wqe ++ leBytes 1 e.op ++
  leBytes 1 e.status ++ leBytes 4 (e.conn % 2 ^ 24) ++ leBytes 4 e.aux ++
  leBytes 1 (b2n e.failedCopy + 2 * b2n e.fromWindrow) ++ zeros 2 ++ leBytes 1 phase

/-- Counts the entries of a completion ring into SPILLING and BACKPRESSURE (R118). -/
def State.noteCq (s : State) (f : FuncId) (c : Nat) : State :=
  match s.cq f c with
  | none => s
  | some q =>
    let st := q.state
    if st = q.last then s
    else
      let s1 := s.modCq f c (fun v => { v with last := st, blockedAt := if st = .backpressure then s.time else v.blockedAt })
      match st with
      | .spilling => s1.count f cntCqSpilling 1
      | .backpressure => s1.count f cntCqBackpressure 1
      | .normal => s1
      | .faulted => s1

/-- Starts the write of an entry at index `l` of a completion ring: bytes 0 to 27, then 28 to 31 behind them, PHASE 1 − WRAP (R112). -/
def State.startCqe (s : State) (f : FuncId) (c l : Nat) (e : Cqe) : State :=
  match s.cq f c with
  | none => s
  | some q =>
    let off := q.offset + 32 * (l % q.n)
    let s1 := s.modCq f c (fun v => { v with waiting := some s.nextId })
    let s2 := s1.startXfer f (keyIndex q.key) [(off, 28), (off + 28, 4)] true (e.toBytes (1 - l / q.n % 2))
      (.cqEntry f c l e)
    match tget s2.xfers s.nextId with
    | some t => if t.phase = .issued then s2.modCq f c (fun v => { v with waiting := none }) else s2
    | none => s2

/-- An entry takes the slot at the producer of a completion ring: written at once, or behind the entries whose writes wait (R112,
R468). -/
def State.writeCqe (s : State) (f : FuncId) (c : Nat) (e : Cqe) : State :=
  match s.cq f c with
  | none => s
  | some q =>
    let l := q.prod
    let hold := q.waiting.isSome || !q.unwritten.isEmpty
    let s1 := s.modCq f c (fun v => { v with
      prod := (l + 1) % (2 * v.n)
      unwritten := if hold then v.unwritten ++ [(l, e)] else v.unwritten })
    if hold then s1 else s1.startCqe f c l e

/-- The entry write that a completion ring waits for is still to be issued. -/
def State.entryWaits (s : State) (q : Cq) : Bool :=
  q.waiting.any (fun x => (tget s.xfers x).any (fun t => t.purpose.afterIssue != t.purpose))

/-- The write that waited was issued: the next entry behind it is written (R468). -/
def State.nextCqe (s : State) (f : FuncId) (c : Nat) : State :=
  match s.cq f c with
  | none => s
  | some q =>
    match q.unwritten with
    | [] => s
    | (l, e) :: rest => (s.modCq f c (fun v => { v with unwritten := rest })).startCqe f c l e

/-- Puts an entry whose write failed back in front; one for which a posted write's failure comes too late finds its place taken, and
counts as dropped (R252). -/
def PhysSt.unstamp (h : PhysSt) (e : TsEntry) : PhysSt :=
  if (h.tsQueue.filter (fun w => !w.marker)).length < 511 then { h with tsQueue := e :: h.tsQueue }
  else { h with tsDropped := satAdd max64 h.tsDropped 1 }

/-- A write of the ring has failed, or is dropped: the entries behind the one that waits, and that one if its transfer still stands, go
back to the front of the windrow in order; a time-stamp entry goes back to its queue (R253, R382, R468). -/
def State.pullBackCqes (s : State) (f : FuncId) (c : Nat) : State :=
  match s.cq f c with
  | none => s
  | some q =>
    let s1 := match q.unwritten with
      | [] => s
      | (l, _) :: _ => s.modCq f c (fun v => { v with
          prod := l, windrow := q.unwritten.map Prod.snd ++ v.windrow, unwritten := []
          peak := max v.peak (q.unwritten.length + v.windrow.length) })
    match q.waiting with
    | none => s1
    | some x =>
      match tget s1.xfers x with
      | none => s1.modCq f c (fun v => { v with waiting := none })
      | some t => match t.purpose with
        | .cqEntry _ _ l e => (s1.dropXfer x).modCq f c (fun v => { v with
            prod := l, windrow := e :: v.windrow, waiting := none, peak := max v.peak (v.windrow.length + 1) })
        | .tsEntry _ _ l e => ((s1.dropXfer x).modCq f c (fun v => { v with prod := l, waiting := none })).modPhys e.home (fun h => h.unstamp e)
        | _ => s1

/-- A windrow entry whose block could not be read (R345). -/
def Cqe.lost (e : Cqe) : Cqe := { e with userData := 0, bytes := 0, aux := 0, conn := 0, status := stMemoryError }

/-- Where area `k` of the reserved HBM of a stack begins: backing store, firmware store, windrow store, from the top (R339). -/
def Layout.areaBase (l : Layout) (stack k : Nat) : Nat :=
  (stack + 1) * 2 ^ 36 - ((if k = 0 then 1024 else if k = 1 then 1280 else 1280 + l.windrowMib / 4) * 2 ^ 20)

/-- The block of the windrow store in which entry `k` of a ring's windrow lies: two entries to a block, rings from where Config has them,
the store's parts in the order of the stacks; DESIGN CHOICE, R115 leaves the places to the module (log entry 162). -/
def State.windrowBlock (s : State) (f : FuncId) (c k : Nat) : Nat :=
  let per := s.mem.layout.windrowMib * 4096
  let b := ((Config.windrowBase f.val c + k) / 2) % max 1 (4 * per)
  s.mem.layout.areaBase (b / max 1 per) 2 / 64 + b % max 1 per

/-- A completion entry from its 32 bytes (R111). -/
def Cqe.ofBytes (b : Bytes) : Cqe :=
  ⟨leAt b 0 8, leAt b 8 4, leAt b 12 4 % 2 ^ 18, leAt b 16 2, leAt b 18 1, leAt b 19 1, leAt b 20 4 % 2 ^ 24, leAt b 24 4, bit (leAt b 28 1) 0, true⟩

/-- Reads entry `k` of a windrow: what its block proves to be decides the entry that goes on, and is counted, repaired or poisoned as for
any read (R342 to R345). -/
def State.windrowRead (s : State) (f : FuncId) (c k : Nat) (e : Cqe) (o : BlockObs) : State × Cqe :=
  let d := s.decodeBlock (s.windrowBlock f c k) o
  let half := fun (w : Bytes) => Cqe.ofBytes ((fit 64 w).drop (32 * (k % 2)))
  (d.1, if d.2.1 then e.lost else match o with
    | .miscorrected w => half w
    | .unchanged w => half w
    | _ => e)

/-- Moves windrow entries into the ring, oldest first, while it has room and nothing holds it; `obs`: what the read of
each met (R116, R345). -/
def State.pumpCq (fuel : Nat) (obs : List BlockObs) (s : State) (f : FuncId) (c : Nat) : State :=
  match fuel with
  | 0 => s
  | k + 1 =>
    match s.cq f c with
    | none => s
    | some q =>
      match q.windrow with
      | [] => s
      | e :: rest =>
        if q.faulted ∨ q.occupied ≥ q.n then s
        else
          let w := max 1 q.windrowEntries
          let d := if q.windrowEntries = 0 then (s, e)
            else s.windrowRead f c ((q.spilled + w * q.windrow.length - q.windrow.length) % w) e (obs.headD .good)
          let s1 := d.1.modCq f c (fun v => { v with windrow := rest })
          State.pumpCq k obs.tail (s1.writeCqe f c { d.2 with fromWindrow := true }) f c

/-- Moves windrow entries as far as the ring has room. -/
def State.drainCq (s : State) (f : FuncId) (c : Nat) (obs : List BlockObs) : State :=
  match s.cq f c with
  | none => s
  | some q => (State.pumpCq (min q.windrow.length q.n) obs s f c).noteCq f c

/-- The signal of an ARM: EVENT_SOURCE once (R134). -/
def State.fireArm (s : State) (f : FuncId) (c : Nat) : State :=
  match s.cq f c with
  | none => s
  | some q => if q.armed then (s.modCq f c (fun v => { v with armed := false })).signalBound f q.eventSource else s

/-- Posts a completion: into the ring while it is not full, holds nothing back and its windrow is empty; else onto the
windrow, where it is written at once (R116, R134, R468). `held`: an entry was reserved for it (R117). -/
def State.postCqe (s : State) (f : FuncId) (c : Nat) (e : Cqe) (held : Bool) : State :=
  match s.cq f c with
  | none => s
  | some q =>
    let s1 := s.modCq f c (fun v => { v with reserved := if held then v.reserved - 1 else v.reserved })
    let s2 := if q.occupied < q.n ∧ q.windrow.isEmpty ∧ !q.faulted then s1.writeCqe f c e
      else (s1.modCq f c (fun v => { v with
        windrow := v.windrow ++ [e]
        spilled := (v.spilled + 1) % max 1 v.windrowEntries
        peak := max v.peak (v.windrow.length + 1) })).fireArm f c
    let s3 := if e.status = stMemoryError then s2.count f cntMemoryError 1 else s2
    s3.noteCq f c

/-- Reserves an entry of a completion ring, if one is free (R117). -/
def State.reserveCq (s : State) (f : FuncId) (c n : Nat) : Option State :=
  match s.cq f c with
  | none => none
  | some q => if q.free ≥ n then some ((s.modCq f c (fun v => { v with reserved := v.reserved + n })).noteCq f c) else none

/-- Gives reservations back. -/
def State.unreserveCq (s : State) (f : FuncId) (c n : Nat) : State :=
  (s.modCq f c (fun v => { v with reserved := v.reserved - n })).noteCq f c

/-- The write of a completion entry was issued, which an ARM signals (R134), or failed: a failed entry goes back to the front of the
windrow and the ring enters FAULTED (R468). -/
def State.cqeWritten (s : State) (f : FuncId) (c idx : Nat) (e : Cqe) (r : XResult) : State :=
  match s.cq f c with
  | none => s
  | some q =>
    match r with
    | .ok _ =>
      if s.entryWaits q then s.fireArm f c
      else (((s.fireArm f c).modCq f c (fun v => { v with waiting := none, faulted := false })).nextCqe f c).drainCq f c []
    | _ =>
      let s0 := s.pullBackCqes f c
      let back := (s0.cq f c).any (fun v => decide (ringDist v.n (idx + 1) v.prod = 0))
      let s1 := s0.modCq f c (fun v => { v with
        waiting := none, faulted := true
        prod := if back then idx else v.prod
        windrow := if back then e :: v.windrow else v.windrow
        peak := if back then max v.peak (v.windrow.length + 1) else v.peak })
      let s2 := if q.faulted then s1 else (s1.fault 3 2 (some f) c 0 0).signalBound f q.eventSource
      s2.noteCq f c

/-- A completion ring whose region is fenced enters FAULTED, though none of its writes is outstanding (R73, R468). -/
def State.faultCq (s : State) (f : FuncId) (c : Nat) : State :=
  match s.cq f c with
  | none => s
  | some q =>
    if q.faulted || !((s.region q.key).any s.regionFenced) then s
    else
      let s1 := (s.pullBackCqes f c).modCq f c (fun v => { v with faulted := true })
      ((s1.fault 3 2 (some f) c 0 0).signalBound f q.eventSource).noteCq f c

/-- The completion rings of a function on a path that was fenced (R468). -/
def State.faultCqs (s : State) (f : FuncId) : State := forEach ((s.func f).cqs.map Prod.fst) s (fun st c => st.faultCq f c)

/-! ### Trigger counters and pulses (R160 to R167, R322) -/

/-- Changes a trigger counter's value; at or above EVENT_AT it signals its source, once (R167). -/
def State.setTrig (s : State) (f : FuncId) (n v : Nat) : State :=
  match tget (s.func f).trigs n with
  | none => s
  | some t =>
    let fire := t.eventSource != 0 && t.eventAt != 0 && !t.fired && decide (v ≥ t.eventAt)
    let s1 := s.modFunc f (fun w => { w with trigs := tset w.trigs n { t with value := v, fired := t.fired || fire } })
    if fire then s1.signal f t.eventSource else s1

/-- Advances a trigger counter, saturating at 2^64 − 1; the advance crosses the fabric to the rings that wait for it (R160, R357). -/
def State.advanceTrig (s : State) (f : FuncId) (n add : Nat) : State :=
  match tget (s.func f).trigs n with
  | none => s
  | some t => (s.fabSend (.transport (dieOf f)) (.copy (dieOf f)) .crsp 8).setTrig f n (satAdd max64 t.value add)

/-- A pulse to a pulse input: one more pending start event, 16 bits saturating, or counted lost; a number no loaded
program holds is counted as a protocol error (R317, R322). -/
def State.pulseInput (s : State) (f : FuncId) (n : Nat) : State :=
  match tget (s.func f).pulses n with
  | none => s.count f cntProtocol 1
  | some (prog, input) =>
    match s.prog prog with
    | none => s.count f cntProtocol 1
    | some p =>
      if p.loading then s.count f cntProtocol 1
      else if p.unloading then s
      else if p.startKind = 0 ∧ p.startInput = input then
        if p.pending ≥ 0xFFFF then s.modProg prog (fun q => { q with pulseLost := satAdd max32 q.pulseLost 1 })
        else s.modProg prog (fun q => { q with pending := q.pending + 1 })
      else s

/-- KIND of a TRIGGER field: bits 31:30 (R102). -/
def trigKind (t : Nat) : Nat := bits t 31 30

/-- The pulse of a TRIGGER field (R102, R122). -/
def State.pulse (s : State) (f : FuncId) (t : Nat) : State :=
  if trigKind t = 1 then s.advanceTrig f (bits t 15 0) 1
  else if trigKind t = 2 then s.pulseInput f (bits t 15 0)
  else s

/-! ### Rings and requests (R102 to R106, R114) -/

/-- N of a work ring. -/
def Ring.n (r : Ring) : Nat := ringN r.log2

/-- CTRL (R103). -/
def entCtrl (e : Bytes) : Nat := leAt e 1 1
/-- OWNER (R103). -/
def entOwner (e : Bytes) : Bool := bit (entCtrl e) 7
/-- LAP. -/
def entLap (e : Bytes) : Nat := bits (entCtrl e) 6 6
/-- FENCE. -/
def entFence (e : Bytes) : Bool := bit (entCtrl e) 5
/-- CQE. -/
def entCqe (e : Bytes) : Bool := bit (entCtrl e) 2
/-- LAST. -/
def entLast (e : Bytes) : Bool := bit (entCtrl e) 1
/-- FIRST. -/
def entFirst (e : Bytes) : Bool := bit (entCtrl e) 0
/-- TRIGGER (R102). -/
def entTrigger (e : Bytes) : Nat := leAt e 4 4
/-- USER_DATA. -/
def entUser (e : Bytes) : Nat := leAt e 8 8

/-- Module-wide ring number. -/
def ringNumber (f : FuncId) (r : Nat) : Nat := f.val * 2 ^ 18 + r

/-- Ends the turn of a ring: its credit falls by 1 and it becomes the last served. -/
def State.endTurn (s : State) (d : DieId) (f : FuncId) (r : Nat) : State :=
  let s1 : State := { s with lastRing := tset s.lastRing d.val (ringNumber f r + 1) }
  s1.modRing f r (fun v => { v with turn := 0, credit := v.credit - 1 })

/-- A ring leaves the active set, keeping its credit; a turn it was in ends, and spends its credit (R110). -/
def State.leaveSet (s : State) (d : DieId) (f : FuncId) (r : Nat) (g : Ring) : State :=
  let s1 := if g.turn > 0 then s.endTurn d f r else s
  s1.modRing f r (fun v => { v with inSet := false, joined := if g.inSet then some (tgetD s.refills d.val 0) else v.joined })

/-- Puts a ring in ERROR: it leaves the active set, a fault record is posted, and its error source is signalled (R114,
R128, R439). -/
def State.ringError (s : State) (f : FuncId) (r idx : Nat) : State :=
  match s.ring f r with
  | none => s
  | some g =>
    if g.error then s
    else
      ((((s.dropEntryRead f r).leaveSet (dieOf f) f r g).modRing f r (fun v => { v with error := true, errorIndex := idx, held := [], fetching := none })).fault
        3 1 (some f) r 0 0).signalBound f g.errSource

/-- Whether a request posts a completion entry: CQE set on a ring with a completion ring, or an entry that could not be
read (R103, R469). A collective entry's CQE is the same bit. -/
def Job.postsCqe (j : Job) (g : Ring) : Bool := g.cq.isSome && (j.ent.isEmpty || entCqe j.ent)

/-- Changes a job of a ring, by slot. -/
def State.modJob (s : State) (f : FuncId) (r slot : Nat) (g : Job → Job) : State :=
  s.modRing f r (fun v => { v with jobs := v.jobs.map (fun j => if j.slot = slot then g j else j) })

/-- A job of a ring. -/
def State.job (s : State) (f : FuncId) (r slot : Nat) : Option Job :=
  match s.ring f r with
  | none => none
  | some g => g.jobs.find? (fun j => j.slot == slot)

/-- Writes part of a ring entry back: a posted write that covers nothing. -/
def State.writeBack (s : State) (f : FuncId) (r : Nat) (g : Ring) (slot at_ : Nat) (bytes : Bytes) : State :=
  s.startXfer f (keyIndex g.key) [(g.offset + 64 * (slot % g.n) + at_, bytes.length)] true bytes (.writeBack f r)

/-- Makes the writes of a ring's completing request in order. A write-back that waits for a translation or page holds what follows it
(R106, R122). -/
def State.pumpPosts (fuel : Nat) (s : State) (f : FuncId) (r : Nat) : State :=
  match fuel with
  | 0 => s
  | k + 1 =>
    match s.ring f r with
    | none => s
    | some g =>
      if g.postWait.isSome then s
      else match g.posts with
        | [] => s
        | .back slot at_ bytes :: rest =>
          let x := s.nextId
          let s1 := (s.modRing f r (fun v => { v with posts := rest })).writeBack f r g slot at_ bytes
          let s2 := match tget s1.xfers x with
            | some t => if t.phase = .issued then s1 else s1.modRing f r (fun v => { v with postWait := some x })
            | none => s1
          State.pumpPosts k s2 f r
        | .entry e :: rest =>
          let s1 := s.modRing f r (fun v => { v with posts := rest })
          let s2 := match g.cq with
            | some c => s1.postCqe f c e true
            | none => s1
          State.pumpPosts k s2 f r

/-- The CONNECTION field of a completion: that of a network request, 0 for a copy (R111). -/
def jobConn (g : Ring) (j : Job) : Nat := if g.kind = .send ∧ entOp j.ent ≥ 0x10 ∧ entOp j.ent < 0x20 then leAt j.ent 16 4 % 2 ^ 24 else 0

/-- What the completion of a request writes: STATUS_AREA, CTRL with OWNER cleared and its reserved bits 0 (R12, R103), then the
completion entry (R111, R122, R123, R128). -/
def Job.posts (j : Job) (r : Nat) (g : Ring) : List Post :=
  let known := !j.ent.isEmpty
  let own := fun (e : Bytes) => leBytes 1 (entCtrl e &&& 0x67)
  (if g.c4 ∨ !known then []
   else Post.back j.slot 48 (leBytes 1 j.status ++ zeros 3 ++ fit 12 j.nonce) ::
    (if j.status = stBadChain then ((j.ent :: j.exts).zipIdx).map (fun (p : Bytes × Nat) => Post.back (j.slot + p.2) 1 (own p.1))
     else [.back j.slot 1 (own j.ent)])) ++
  (if j.postsCqe g then
    [.entry ⟨if known then entUser j.ent else 0, if j.status = stOk then j.bytes else 0, r, j.slot % g.n,
      if known then entOp j.ent else 0, j.status, if known then jobConn g j else 0, j.aux, j.failedCopy, false⟩]
   else [])

/-- The completion of a finished request: the pulse, STATUS_AREA, OWNER cleared, the completion entry, and the
function's counters (R111, R122, R123, R128, R151, R430). A failed request issues no pulse. -/
def State.completeJob (s : State) (f : FuncId) (r : Nat) (g : Ring) (j : Job) : State :=
  let known := !j.ent.isEmpty
  if j.status = stSilent then (match g.cq with
    | some c => if j.postsCqe g then s.unreserveCq f c 1 else s
    | none => s)
  else
  let s1 := if j.status = stOk ∧ known then s.pulse f (entTrigger j.ent) else s
  let s3 := (s1.modRing f r (fun v => { v with posts := j.posts r g })).pumpPosts 16 f r
  let s4 := s3.count f cntWrCompleted 1
  let s5 := if j.status = stOk then s4 else s4.count f cntWrFailed 1
  if entOp j.ent = 1 ∧ j.status = stOk ∧ known then s5.count f cntCopyBytes j.bytes else s5

/-- Completes the finished requests at the head of a ring, in ring order: each makes its writes, and is completed, and passed by the
consumer index, once they are issued (R106, R122, R129). -/
def State.retireN (n : Nat) (s : State) (f : FuncId) (r : Nat) : State :=
  match n with
  | 0 => s
  | k + 1 =>
    match s.ring f r with
    | none => s
    | some g =>
      match g.jobs with
      | [] => s
      | j :: rest =>
        if !j.done || !g.posts.isEmpty || g.postWait.isSome then s
        else if j.phase = .finished then
          State.retireN k ((s.modRing f r (fun v => { v with jobs := { j with phase := .retiring } :: rest })).completeJob f r g j) f r
        else
          State.retireN k (s.modRing f r (fun v => { v with
            jobs := rest, lastDone := j.slot, cons := (j.slot + 1 + j.exts.length) % (2 * v.n) })) f r

/-- Completes what can be completed of a ring. -/
def State.retire (s : State) (f : FuncId) (r : Nat) : State :=
  match s.ring f r with
  | none => s
  | some g => State.retireN (2 * g.jobs.length) s f r

/-- The write-back that a ring's completing request waited for was issued, or failed: what follows it is written, and later requests
complete (R106, R122). -/
def State.writtenBack (s : State) (f : FuncId) (r : Nat) : State :=
  match s.ring f r with
  | none => s
  | some g =>
    if g.postWait.any (fun x => (tget s.xfers x).any (fun t => t.purpose.afterIssue != t.purpose)) then s
    else ((s.modRing f r (fun v => { v with postWait := none })).pumpPosts 16 f r).retire f r

/-- Finishes a started request with a status; BAD_ENTRY and BAD_CHAIN, and in C4 mode any failure, put its ring in ERROR
(R114, R128). -/
def State.finishJob (s : State) (f : FuncId) (r slot status : Nat) : State :=
  match s.ring f r, s.job f r slot with
  | some g, some j =>
    if j.done then s
    else
      let s1 := s.modJob f r slot (fun v => { v with phase := .finished, status := status, data := [] })
      let s2 := if status = stBadEntry ∨ status = stBadChain ∨ (g.c4 ∧ status ≠ stOk ∧ status ≠ stSilent) then s1.ringError f r slot else s1
      s2.retire f r
  | _, _ => s

end Sys2Proof.Machine
end

