-- ==== Sys2Proof/Machine/Frames.lean ====
section
/-! DEFINITION. Machine/Frames.lean: lengths, headers, and encryption of native and RoCE v2 frames (R168 to R171, R197, R198,
R235, R236). -/

namespace Sys2Proof

open Machine

/-- FLAGS bit `b` when `v` (R170). -/
def flagBit (b : Nat) (v : Bool) : Nat := if v then 2 ^ b else 0

/-- The 32-byte native header (R169). -/
def NFrame.header (n : NFrame) : Bytes :=
  [n.version, n.type, n.flags, n.hopLimit] ++ beBytes 4 n.route.toNat ++ beBytes 4 n.dstConn.toNat ++
  beBytes 4 n.srcConn.toNat ++ beBytes 4 n.psn.toNat ++ beBytes 4 n.key.toNat ++ beBytes 8 n.offset.toNat

/-- The ack body (R172). -/
def AckBody.bytes (a : AckBody) : Bytes :=
  beBytes 4 a.credit.toNat ++ beBytes 4 a.code.toNat ++ beBytes 4 a.nakPsn.toNat ++ zeros 4 ++
  (match a.xsack with | some x => beBytes 120 x.toNat | none => [])

/-- Sum of 16-bit big-endian words, the last one padded. -/
def wordSum : Bytes → Nat
  | [] => 0
  | [a] => a.toNat * 256
  | a :: b :: r => a.toNat * 256 + b.toNat + wordSum r

/-- Complement of a sum of 16-bit words with end-around carry. -/
def onesComplement (n : Nat) : Nat := let a := n / 65536 + n % 65536; 65535 - (a / 65536 + a % 65536)

/-- The frame with the UDP checksum the module sends: 0 over IPv4; over IPv6 computed over the pseudo-header, the UDP header and what
follows it, 0 being sent as 0xFFFF (R168). -/
def NFrame.summed (n : NFrame) : NFrame :=
  let body := n.header ++ (match n.imm with | some v => beBytes 4 v.toNat | none => []) ++
    (match n.ack with | some a => a.bytes | none => []) ++ n.payload ++ n.tag
  let len := 8 + body.length
  let sum := wordSum (beBytes 16 n.ip.src.toNat ++ beBytes 16 n.ip.dst.toNat ++ beBytes 4 len ++ beBytes 4 17 ++
    beBytes 2 n.udpSrc.toNat ++ beBytes 2 n.udpDst.toNat ++ beBytes 2 len ++ body)
  let c := onesComplement (sum % 65536 + sum / 65536)
  { n with udpSum := if n.ip.v6 then BitVec.ofNat 16 (if c = 0 then 65535 else c) else 0 }

/-- Number of VLAN tags. -/
def L2.tags (l : L2) : Nat := b2n l.outer.isSome + b2n l.inner.isSome

/-- Length of a native frame from the destination address through the frame check sequence, padded to 64 (R168, R236). -/
def NFrame.wireLen (n : NFrame) : Nat :=
  max 64 (14 + 4 * n.l2.tags + (if n.ip.v6 then 40 else 20) + 8 + 32 + 4 * b2n n.imm.isSome +
    (match n.ack with | some a => if a.xsack.isSome then 136 else 16 | none => 0) + n.payload.length + n.tag.length + 4)

/-- Base transport header bytes of a RoCE v2 packet: 12, with the extended headers its operation carries (R164, R165). -/
def RoceOp.headers : RoceOp → Nat
  | .writeFirst => 28
  | .writeOnly => 28
  | .writeOnlyImm => 32
  | .writeLastImm => 16
  | .sendLastImm => 16
  | .sendOnlyImm => 16
  | .readReq => 28
  | .readRespFirst => 16
  | .readRespLast => 16
  | .readRespOnly => 16
  | .ack => 16
  | .atomicAck => 24
  | .cmpSwap => 40
  | .fetchAdd => 40
  | _ => 12

/-- Length of a RoCE v2 frame with its 4-byte invariant CRC. -/
def RFrame.wireLen (r : RFrame) : Nat :=
  max 64 (14 + 4 * r.l2.tags + (if r.ip.v6 then 40 else 20) + 8 + r.op.headers + roundUp r.payload.length 4 + 4 + 4)

/-- A native frame with the checksum and length it is sent with (R168, R235). -/
def NFrame.finish (fr : NFrame) : NFrame := { fr.summed with l2 := { fr.l2 with length := fr.wireLen } }

/-- The additional authenticated data of a frame: the header with HOP_LIMIT zero and EPOCH and RETX cleared, then IMM
(R197). -/
def NFrame.aad (n : NFrame) : Bytes :=
  ({ n with hopLimit := 0, flags := BitVec.ofNat 8 (n.flags.toNat - flagBit 6 (bit n.flags.toNat 6) - flagBit 3 (bit n.flags.toNat 3)) } : NFrame).header ++
  (match n.imm with | some v => beBytes 4 v.toNat | none => [])

/-- The nonce of a frame: FIXED, the middle word, PSN (R197). -/
def NFrame.nonce (n : NFrame) (fixed : Bytes) : Bytes :=
  let mid := if n.type = 0x05 ∨ n.type = 0x07 then n.key.toNat else 0
  fit 4 fixed ++ beBytes 4 mid ++ beBytes 4 n.psn.toNat

/-- The frame encrypted and tagged under a key (R197). -/
def NFrame.encrypted (n : NFrame) (k : Key) : NFrame :=
  let t : NFrame := { n with flags := BitVec.ofNat 8 (n.flags.toNat + 128) }
  let e := gcmEncrypt k.key (t.nonce k.fixed) t.aad t.payload
  let u : NFrame := { t with payload := e.1, tag := e.2 }
  u.finish

/-- A received frame decrypted under a key, and whether its tag holds (R198). -/
def NFrame.decrypted (n : NFrame) (k : Key) : NFrame × Bool :=
  let d := gcmDecrypt k.key (n.nonce k.fixed) n.aad n.payload n.tag
  ({ n with payload := d.1 }, d.2)

/-- DST_NODE of a native frame: ROUTE bits 19:0 (R169). -/
def NFrame.node (n : NFrame) : Nat := bits n.route.toNat 19 0

/-- PATH of a native frame: ROUTE bits 31:26 (R169). -/
def NFrame.path (n : NFrame) : Nat := bits n.route.toNat 31 26

/-- The length a policer counts, found from the IP length field (R218): without padding. -/
def NFrame.ipLen (n : NFrame) : Nat :=
  14 + 4 * n.l2.tags + (if n.ip.v6 then 40 else 20) + 8 + 32 + 4 * b2n n.imm.isSome +
    (match n.ack with | some a => if a.xsack.isSome then 136 else 16 | none => 0) + n.payload.length + n.tag.length + 4

/-- The same of a RoCE v2 packet. -/
def RFrame.ipLen (r : RFrame) : Nat :=
  14 + 4 * r.l2.tags + (if r.ip.v6 then 40 else 20) + 8 + r.op.headers + roundUp r.payload.length 4 + 4 + 4

/-! ### IP fields of a frame given as bytes (R204, R205, R218) -/

/-- Where the IP header of a frame of bytes begins, behind its VLAN tags, and whether it is IPv6; `tpid` is the port's TAG_TPID (R244). -/
def ipStart (tpid : BitVec 16) (b : Bytes) : Option (Nat × Bool) :=
  let ty := fun (i : Nat) => beNat ((b.drop i).take 2)
  let i := if ty 12 == 0x8100 || ty 12 == tpid.toNat then (if ty 16 == 0x8100 then 20 else 16) else 12
  if ty i = 0x0800 then some (i + 2, false) else if ty i = 0x86DD then some (i + 2, true) else none

/-- One byte of a frame. -/
def byteAt (b : Bytes) (i : Nat) : Nat := (b.getD i 0).toNat

/-- A frame with a byte replaced. -/
def setByte (b : Bytes) (i v : Nat) : Bytes := b.take i ++ leBytes 1 v ++ b.drop (i + 1)

/-- The explicit congestion field of a frame of bytes; 0 for one that is not IP (R204). -/
def rawEcn (tpid : BitVec 16) (b : Bytes) : Nat :=
  match ipStart tpid b with
  | some (i, false) => bits (byteAt b (i + 1)) 1 0
  | some (i, true) => bits (byteAt b (i + 1)) 5 4
  | none => 0

/-- A frame of bytes with CE set, the header checksum of IPv4 with it (R205). -/
def rawMarkCe (tpid : BitVec 16) (b : Bytes) : Bytes :=
  match ipStart tpid b with
  | some (i, false) =>
    let n := 4 * (byteAt b i % 16)
    let c := setByte (setByte (setByte b (i + 1) (byteAt b (i + 1) / 4 * 4 + 3)) (i + 10) 0) (i + 11) 0
    c.take (i + 10) ++ beBytes 2 (onesComplement (wordSum ((c.drop i).take n))) ++ c.drop (i + 12)
  | some (i, true) => setByte b (i + 1) (byteAt b (i + 1) / 64 * 64 + 48 + byteAt b (i + 1) % 16)
  | none => b

/-- Length of a frame of bytes through the frame check sequence by its IP length field (R218). -/
def rawIpLen (tpid : BitVec 16) (b : Bytes) : Nat :=
  match ipStart tpid b with
  | some (i, false) => i + beNat ((b.drop (i + 2)).take 2) + 4
  | some (i, true) => i + 40 + beNat ((b.drop (i + 4)).take 2) + 4
  | none => b.length + 4

/-- The frame with CE set, as a policer marks it (R220). -/
def EFrame.markCe (fr : EFrame) (tpid : BitVec 16) : EFrame := { fr with bytes := rawMarkCe tpid fr.bytes, ip := fr.ip.map (fun h => { h with ecn := 3 }) }

/-- The length of an IP frame agrees with its IP length field; of another there is nothing to compare (R218). -/
def EFrame.lengthOk (fr : EFrame) (tpid : BitVec 16) : Bool := fr.ip.isNone || fr.l2.length == max 64 (rawIpLen tpid fr.bytes)

/-- REASON of an ack body's CODE (R172). -/
def NFrame.reason (fr : NFrame) : Nat :=
  match fr.ack with
  | some a => bits a.code.toNat 31 24
  | none => 0

/-- NAK_PSN of an ack body (R172). -/
def NFrame.nakPsn (fr : NFrame) : Nat :=
  match fr.ack with
  | some a => a.nakPsn.toNat
  | none => 0

end Sys2Proof
end

