-- ==== Sys2Proof/Machine/Net.lean ====
section
/-! DEFINITION. Machine/Net.lean: connections at rest, sequence numbers, relay routing (R366 to R368), the building of native
and RoCE v2 frames (R168 to R172, R197, R245), and their entry into a class queue (R213, R215). -/

namespace Sys2Proof.Machine

/-! ### Fresh halves of a connection (R146, R203, R207, R208) -/

/-- A path at its start (R207). -/
def PathCc.fresh (cc : Cc) (epoch : Bool) : PathCc where
  cwnd := cc.cwndInit * 256
  inflight := 0
  srtt := cc.srttInitNs
  baseRtt := none
  samples := []
  alpha := 0
  acked := 0
  marked := 0
  nextUpdate := 0
  paceUntil := 0
  failed := false
  timeouts := 0
  probeOk := 0
  probing := false
  epoch := epoch
  draining := false

/-- The sending half with first PSN `psn`; a RoCE rate starts at `mbps`, its alpha at 1 (R212). -/
def Tx.fresh (psn credit mbps : Nat) (x : Xport) : Tx where
  next := psn
  una := psn
  credit := credit
  records := []
  queue := []
  resend := []
  reread := []
  rnrPause := false
  rnrReason := 0
  rnrAt := 0
  lastNew := 0
  refused := []
  msgNo := 0
  path := 0
  paths := []
  srtt := none
  rttvar := 0
  rto := x.rtoMinUs * 1000
  backoff := (0, 0)
  keyPsns := 0
  respCount := 0
  keyPhase := false
  phasePsn := psn
  rate := mbps
  target := mbps
  alpha := 65536
  stage := 0
  cnpSeen := false
  coll := []
  held := []

/-- The receiving half with first PSN `psn`. -/
def Rx.fresh (psn : Nat) : Rx where
  epsn := psn
  vpsn := psn
  bitmap := []
  visible := []
  marks := []
  epsnMark := none
  msgRefused := false
  msgFailed := false
  msgPlaced := false
  lasts := []
  spans := []
  passed := ⟨psn, 0, 0, 0, true, 0, 0, 0⟩
  sends := []
  msgSend := none
  owed := []
  arrived := []
  flags := []
  work := []
  saved := []
  acked := psn
  sinceAck := 0
  failedCopy := false
  echo := (psn, 0, false, false)
  nakSeqSent := false
  rnrUntil := 0
  recvBase := 0
  credit := 0
  reservedCq := 0
  cnpUntil := 0
  cnpSuppressed := 0
  buffered := []

/-! ### Sequence numbers (R171, R174, R196) -/

/-- PSNs wrap at 2^32, or at 2^24 on a ROCE_RC connection (R174, R196). -/
def Conn.psnMod (c : Conn) : Nat := if c.mode = .roce then 2 ^ 24 else 2 ^ 32

/-- `a` + `n`. -/
def Conn.psnAdd (c : Conn) (a n : Nat) : Nat := (a + n) % c.psnMod

/-- `a` − `b`. -/
def Conn.psnSub (c : Conn) (a b : Nat) : Nat := (a + c.psnMod - b % c.psnMod) % c.psnMod

/-- Payload bytes per packet (R145). -/
def Conn.pmtuBytes (c : Conn) : Nat := 512 * 2 ^ (c.pmtu - 1)

/-- Packets of `len` bytes: at least one. -/
def Conn.packets (c : Conn) (len : Nat) : Nat := max 1 (ceilDiv len c.pmtuBytes)

/-- The native modes. -/
def Conn.native (c : Conn) : Bool := c.mode != .roce

/-- State of path `p` of a connection. -/
def Conn.pathCc (c : Conn) (p : Nat) : PathCc := tgetD c.tx.paths p (PathCc.fresh c.cc false)

/-- The connection with path `p` changed. -/
def Conn.setPath (c : Conn) (p : Nat) (v : PathCc) : Conn := { c with tx := { c.tx with paths := tset c.tx.paths p v } }

/-- The paths that are not failed, rising. -/
def Conn.livePaths (c : Conn) : List Nat := (List.range c.npaths).filter (fun p => !(c.pathCc p).failed)

/-! ### Port rates (R228, R233) -/

/-- Lanes of a logical port under a breakout (R228). -/
def breakoutLanes (b : Nat) : Nat := if b = 0 then 8 else if b = 1 then 4 else if b = 2 then 2 else 1

/-- Whether a logical port exists under its physical port's breakout (R228). -/
def State.portExists (s : State) (p : LPort) : Bool := p.val % 8 % breakoutLanes (s.physPort (physOf p)).breakout == 0

/-- Rate of a logical port in Mb/s: 200 Gb/s a lane, less lanes lost (R228, R233). -/
def State.portMbps (s : State) (p : LPort) : Nat :=
  200000 * min (s.port p).lanes (breakoutLanes (s.physPort (physOf p)).breakout)

/-- The logical ports that exist, rising. -/
def State.livePorts (s : State) : List LPort := (List.finRange 32).filter s.portExists

/-- Whether a logical port is up. -/
def State.portUp (s : State) (p : LPort) : Bool := s.portExists p && (s.port p).up

/-! ### Relay lookup (R366 to R368) -/

/-- The path table of an epoch. -/
def Relay.table (r : Relay) (epoch : Bool) : Tbl RelayEntry := if epoch then r.table1 else r.table0

/-- Whether an entry matches a node: the top LEN bits of its 20 (R366). -/
def RelayEntry.matches (e : RelayEntry) (node : Nat) : Bool :=
  e.prefix20.toNat / 2 ^ (20 - e.len) == node / 2 ^ (20 - e.len)

/-- The entry that routes a node: the longest match, lowest index first (R366). -/
def Relay.lookup (r : Relay) (epoch : Bool) (node : Nat) : Option (Nat × RelayEntry) :=
  ((r.table epoch).filter (fun (q : Nat × RelayEntry) => q.2.matches node)).foldl (fun best q => match best with
    | none => some q
    | some b => if q.2.len > b.2.len then some q else some b) none

/-- The usable next hops of an entry: up and not held out (R366, R368). -/
def State.usableHops (s : State) (epoch : Bool) (q : Nat × RelayEntry) : List LPort :=
  (List.finRange 32).filter (fun p => q.2.hops.contains p.val && s.portUp p &&
    !s.relay.heldOut.contains (epoch, q.1, p.val))

/-- Bytes in a class queue. -/
def ClassCfg.bytes (c : ClassCfg) : Nat := (c.queue.map (fun q => q.len)).sum

/-- Class of a frame with a DSCP on a port (R213). -/
def PortSt.classOf (p : PortSt) (dscp : Nat) : Nat := p.dscpMap.getD dscp (dscp / 8)

/-- The hop with the shortest queue of the class that a frame of this DSCP joins there, ties by hash (R213, R367). -/
def State.shortestHop (s : State) (hops : List LPort) (dscp h : Nat) : Option LPort :=
  let depth := fun (p : LPort) => ((s.port p).cls ((s.port p).classOf dscp)).bytes
  let best := hops.foldl (fun m p => min m (depth p)) (2 ^ 40)
  let tied := hops.filter (fun p => depth p == best)
  tied[h % max tied.length 1]?

/-- The next hop of a flow, with its flow entry created where there is room (R367). -/
def State.routeFlow (s : State) (die : DieId) (node conn path : Nat) (epoch : Bool) (dscp : Nat) : State × Option LPort :=
  match s.relay.lookup epoch node with
  | none => (s, none)
  | some q =>
    let hops := s.usableHops epoch q
    let mine := fun (w : Flow) => w.die == die && w.node == node && w.conn == conn && w.path == path
    let h := Config.flowHash node conn path
    match s.relay.flows.find? mine with
    | some w =>
      if hops.contains w.hop then (s, some w.hop)
      else
        let hop := s.shortestHop hops dscp h
        let rest := s.relay.flows.filter (fun x => !mine x)
        ({ s with relay := { s.relay with flows := match hop with
            | some p => rest ++ [⟨die, node, conn, path, p⟩]
            | none => rest } }, hop)
    | none =>
      if (s.relay.flows.filter (fun w => w.die == die)).length ≥ 65536 then (s, hops[h % max hops.length 1]?)
      else
        match s.shortestHop hops dscp h with
        | some p => ({ s with relay := { s.relay with flows := s.relay.flows ++ [⟨die, node, conn, path, p⟩] } }, some p)
        | none => (s, none)

/-! ### Building frames (R168 to R172, R245) -/

/-- Whether an address is IPv4-mapped. -/
def isV4 (a : BitVec 128) : Bool := a.toNat / 2 ^ 32 == 0xFFFF

/-- Node a connection addresses: the low 20 bits of its address's first 4 bytes (R145), else 0. -/
def Conn.nodeOf (c : Conn) : Nat := if c.node then bits (beNat ((leBytes 16 c.peerAddr.toNat).take 4).reverse) 19 0 else 0

/-- The tag a port inserts into a transport frame of class `cls` (R245). -/
def PortSt.insertedTag (p : PortSt) (cls : Nat) : Option VlanTag :=
  if p.tagEn then some ⟨0x8100, BitVec.ofNat 16 (cls * 8192 + p.tci.toNat % 8192)⟩ else none

/-- Length of any frame. -/
def TxFrame.len : TxFrame → Nat
  | .native n => n.wireLen
  | .roce r => r.wireLen
  | .raw b => max 64 (b.length + 4)

/-- Bytes a frame takes on the wire with preamble and gap (R30). -/
def wireBytes (len : Nat) : Nat := len + 20

/-- Explicit congestion field of a frame; 0 for one that is not IP; `tpid` is the port's TAG_TPID (R204, R244). -/
def TxFrame.ecn (fr : TxFrame) (tpid : BitVec 16) : Nat :=
  match fr with
  | .native n => n.ip.ecn.toNat
  | .roce r => r.ip.ecn.toNat
  | .raw b => rawEcn tpid b

/-- The frame with CE set (R205). -/
def TxFrame.markCe (fr : TxFrame) (tpid : BitVec 16) : TxFrame :=
  match fr with
  | .native n => .native { n with ip := { n.ip with ecn := 3 } }
  | .roce r => .roce { r with ip := { r.ip with ecn := 3 } }
  | .raw b => .raw (rawMarkCe tpid b)

/-- The Ethernet and IP parts of a frame of a connection on a port: TTL or hop limit 64, DF over IPv4, ECT(0) (R168, R245); the same for
RoCE v2 (DEDUCED, log entry 61). -/
def State.linkHeader (s : State) (c : Conn) (p : LPort) : L2 × IpHdr :=
  let q := s.port p
  let dst := if c.node then Config.nodeAddr c.nodeOf else c.peerAddr
  let cls := q.classOf c.dscp.toNat
  (.built (Config.nextMac p.val dst) q.mac (q.insertedTag cls),
   ⟨!isV4 dst, Config.ownAddr p.val, dst, c.dscp, 2, 64, isV4 dst⟩)

/-- A frame of a connection built for one port, as it leaves on another (R145, R168). -/
def State.rehead (s : State) (c : Conn) (p : LPort) (fr : TxFrame) : TxFrame :=
  let h := s.linkHeader c p
  match fr with
  | .native f => .native ({ f with l2 := h.1, ip := h.2 } : NFrame).finish
  | .roce f => let g : RFrame := { f with l2 := h.1, ip := h.2 }; .roce { g with l2 := { h.1 with length := g.wireLen } }
  | .raw b => .raw b

/-- A native frame of connection `n` on a port and path (R168 to R170). -/
def State.nativeFrame (s : State) (n : Nat) (c : Conn) (p : LPort) (path type flags psn key offset : Nat)
    (imm : Option Nat) (ack : Option AckBody) (payload : Bytes) : NFrame :=
  let h := s.linkHeader c p
  let fr : NFrame :=
    { l2 := h.1, ip := h.2
      udpSrc := c.entropy + BitVec.ofNat 16 path
      udpDst := s.nativePort
      udpSum := 0
      version := 1
      type := BitVec.ofNat 8 type
      flags := BitVec.ofNat 8 flags
      hopLimit := BitVec.ofNat 8 s.relay.hopLimit
      route := BitVec.ofNat 32 (path * 2 ^ 26 + c.nodeOf)
      dstConn := BitVec.ofNat 32 c.peer
      srcConn := BitVec.ofNat 32 n
      psn := BitVec.ofNat 32 psn
      key := BitVec.ofNat 32 key
      offset := BitVec.ofNat 64 offset
      imm := imm.map (fun v => BitVec.ofNat 32 v)
      ack := ack, payload := payload, tag := [] }
  fr.finish

/-! ### Class queues (R213, R215) -/

/-- Bytes that all class queues of a die hold in its egress pool (R215). -/
def State.poolBytes (s : State) (d : DieId) : Nat :=
  ((List.finRange 32).filter (fun p => dieOfPort p == d)).foldl (fun n p =>
    n + ((s.port p).classes.map (fun (q : Nat × ClassCfg) => q.2.bytes)).sum) 0

/-- The transport engine may enqueue: the queue holds less than QMAX, the pool is not full (R215), and no packet waits for the fabric
(R360, R363). -/
def State.canEnqueue (s : State) (p : LPort) (cls : Nat) : Bool :=
  decide (((s.port p).cls cls).bytes < ((s.port p).cls cls).qmax) && decide (s.poolBytes (dieOfPort p) < 12582912) &&
  !s.fabFull (.transport 0) .dreq && !s.fabFull (.transport 1) .dreq

/-- Puts a frame at the end of a class queue; it crosses the fabric from a unit to the port's MAC (R26, R357). -/
def State.enqueueFrom (s : State) (u : FabUnit) (p : LPort) (cls : Nat) (q : QFrame) : State :=
  (s.fabSend u (.portMac (physOf p)) .dreq q.len).modPort p (fun v => v.modCls cls (fun k => { k with queue := k.queue ++ [q] }))

/-- The same for a frame of the module's own: from the transport engine of its function's home die, or of the port's. -/
def State.enqueue (s : State) (p : LPort) (cls : Nat) (q : QFrame) : State :=
  s.enqueueFrom (.transport (match q.member with | some f => dieOf f | none => dieOfPort p)) p cls q

/-- An arrived frame crosses the fabric from the port's MAC to the transport engine of a die (R26, R357). -/
def State.rxCross (s : State) (p : LPort) (d : DieId) (len : Nat) : State := s.fabSend (.portMac (physOf p)) (.transport d) .dreq len

/-- The die whose transport engine takes the frames of a connection: its function's home die; the port's where there is none (R26). -/
def State.rxDie (s : State) (p : LPort) (n : Nat) : DieId :=
  match s.conn n with
  | some c => dieOf c.func
  | none => dieOfPort p

/-- Puts a transport frame of a function into its class queue. -/
def State.enqueueFrame (s : State) (p : LPort) (dscp : Nat) (fr : TxFrame) (member : Option FuncId) : State :=
  s.enqueue p ((s.port p).classOf dscp) ⟨fr, fr.len, member, none, false, false⟩

/-- The logical port a path of a connection uses: the one given, the relay's choice, or a port of the home die (R145,
R365). -/
def State.egress (s : State) (n : Nat) (c : Conn) (path : Nat) (epoch : Bool) : State × Option LPort :=
  match c.port with
  | some p => (s, if s.portUp p then some p else none)
  | none =>
    if c.node then s.routeFlow (dieOf c.func) c.nodeOf c.peer path epoch c.dscp.toNat
    else
      let ups := s.livePorts.filter (fun p => s.portUp p && dieOfPort p == dieOf c.func)
      (s, ups[Config.anyPort n path % max ups.length 1]?)

/-- Puts a frame the module makes itself into a class queue, or keeps it, in order, until there is room (R215). -/
def State.enqueueOwn (s : State) (p : LPort) (cls : Nat) (q : QFrame) : State :=
  if (s.port p).own.isEmpty && s.canEnqueue p cls then s.enqueue p cls q else s.modPort p (fun v => { v with own := v.own ++ [(cls, q)] })

/-- Moves frames so kept into their queues, as far as there is room (R215). -/
def State.flushOwn (s : State) (p : LPort) : State :=
  forEach (s.port p).own (s.modPort p (fun v => { v with own := [] })) (fun st w => st.enqueueOwn p w.1 w.2)

/-! ### Unreachable nodes (R368) -/

/-- The broadcast address. -/
def broadcast : BitVec 48 := BitVec.ofNat 48 (2 ^ 48 - 1)

/-- Changes the relay's counters. -/
def State.modRelay (s : State) (g : Relay → Relay) : State := { s with relay := g s.relay }

/-- The ports of RELAY_PORTS that are up. -/
def State.relayPorts (s : State) : List LPort := s.livePorts.filter (fun p => bit s.relay.ports.toNat p.val && s.portUp p)

/-- An UNREACH for a node in an epoch, as it leaves on a port (R368). The manual gives it no addresses: it is broadcast on the link
and carries the node's own address. -/
def State.unreachFrame (s : State) (p : LPort) (node : Nat) (epoch : Bool) (dscp : BitVec 6) : NFrame :=
  let a : NFrame :=
    { l2 := .built broadcast (s.port p).mac ((s.port p).insertedTag ((s.port p).classOf dscp.toNat))
      ip := ⟨!isV4 (Config.nodeAddr node), Config.ownAddr p.val, Config.nodeAddr node, dscp, 2, 64, isV4 (Config.nodeAddr node)⟩
      udpSrc := 0, udpDst := s.nativePort, udpSum := 0, version := 1, type := 0x22, flags := BitVec.ofNat 8 (flagBit 6 epoch), hopLimit := 1
      route := BitVec.ofNat 32 node, dstConn := 0, srcConn := 0, psn := 0, key := 0, offset := 0, imm := none, ack := none
      payload := [], tag := [] }
  a.finish

/-- Sends UNREACH on every relay port, at most once per entry and epoch per UNREACH_HOLD; a node that no entry matches counts for
itself (R368). -/
def State.sendUnreach (s : State) (node : Nat) (epoch : Bool) (dscp : BitVec 6) : State :=
  let k := match s.relay.lookup epoch node with
    | some q => q.1
    | none => 4096 + node
  if s.relay.unreach.any (fun w => w.1 == epoch && w.2.1 == k && decide (s.time < w.2.2)) then s
  else
    let keep := s.relay.unreach.filter (fun w => !(w.1 == epoch && w.2.1 == k) && decide (s.time < w.2.2))
    let s1 : State := { s with relay := { s.relay with unreach := keep ++ [(epoch, k, s.time + s.relay.unreachHoldUs * 1000)] } }
    forEach s1.relayPorts s1 (fun st p =>
      let fr := st.unreachFrame p node epoch dscp
      st.enqueueOwn p ((st.port p).classOf dscp.toNat) ⟨.native fr, fr.wireLen, none, none, false, false⟩)

/-- A frame that the path tables give no usable next hop, relayed or originated here, is dropped and counted, and the other modules are
told (R368). -/
def State.noRoute (s : State) (node : Nat) (epoch : Bool) (dscp : BitVec 6) : State :=
  (s.modRelay (fun r => { r with noRoute := satAdd max64 r.noRoute 1 })).sendUnreach node epoch dscp

/-- The logical port a path of a connection uses now; where none is up, port 0 (R145, R210, R212, R226). -/
def State.portNow (s : State) (n : Nat) (c : Conn) (path : Nat) : LPort := ((s.egress n c path s.relay.epoch).2).getD (c.port.getD 0)

/-! ### The gates of a packet (R210, R215 to R217) -/

/-- Wire bytes of a full packet of a connection on a port (R210). -/
def State.fullWire (s : State) (c : Conn) (p : LPort) : Nat :=
  wireBytes (14 + 4 * b2n (s.port p).tagEn + (if isV4 (if c.node then Config.nodeAddr c.nodeOf else c.peerAddr) then 20 else 40) +
    8 + 32 + c.pmtuBytes + 4 + 16 * b2n c.encrypt + 4)

/-- The pacing gap in ns after `w` wire bytes (R210, R212). -/
def State.paceGap (s : State) (c : Conn) (p : LPort) (path w : Nat) : Nat :=
  if c.native then
    let v := c.pathCc path
    max (w * v.srtt * 256 / max 1 (v.cwnd * s.fullWire c p)) (w * 8000 / max 1 (s.portMbps p))
  else w * 8000 / max 1 c.tx.rate

/-- The shapers that a packet of a connection and ring must pass. -/
def State.shapersFor (s : State) (c : Conn) (ring : Option Nat) : List Nat :=
  c.shapers ++ (match ring with
    | some r => match s.ring c.func r with
      | some g => g.shapers
      | none => []
    | none => [])

/-- Changes a shaper of a function. -/
def State.modShaper (s : State) (f : FuncId) (n : Nat) (g : Shaper → Shaper) : State :=
  s.modFunc f (fun v => { v with shapers := tmod v.shapers n g })

/-- Every shaper allows a start (R217). -/
def State.shapersOpen (s : State) (f : FuncId) (l : List Nat) : Bool :=
  l.all (fun n => match tget (s.func f).shapers n with
    | some h => decide (h.meter.credit ≥ 0)
    | none => true)

/-- Notes which shapers alone hold a ready packet back (R217). -/
def State.shapersHold (s : State) (f : FuncId) (l : List Nat) : State :=
  forEach l s (fun st n => st.modShaper f n (fun h => { h with waiting := decide (h.meter.credit < 0) }))

/-- Charges shapers for a packet of `w` wire bytes. -/
def State.shapersCharge (s : State) (f : FuncId) (l : List Nat) (w : Nat) : State :=
  forEach l s (fun st n => st.modShaper f n (fun h =>
    { h with waiting := false, meter := { h.meter with credit := h.meter.credit - (w * 65536 : Nat) } }))

/-- What becomes of a packet that is to start on a path. -/
inductive Start where
  | went
  /-- Its path has no logical port that is up: it goes nowhere (R190); on a NODE connection it counts as RELAY_NO_ROUTE (R368). -/
  | lost
  /-- Its pacing gap, class queue or shaper does not let it start yet (R210, R215, R216). -/
  | waits
  deriving DecidableEq, Repr

/-- A packet of a connection, and of a ring for one that belongs to a request, starts on a path if its pacing gap has elapsed, its queue
has room and its shapers allow; `mk` builds it for the port. The next one is spaced behind it (R210, R212, R215 to R217). -/
def State.startOn (s : State) (n : Nat) (c : Conn) (ring : Option Nat) (path : Nat) (epoch : Bool) (mk : LPort → TxFrame) : State × Start :=
  match s.egress n c path epoch with
  | (s1, none) => (if c.node then s1.noRoute c.nodeOf epoch c.dscp else s1, .lost)
  | (s1, some p) =>
    let sh := s1.shapersFor c ring
    if decide (s.time < (c.pathCc path).paceUntil) || !s1.canEnqueue p ((s1.port p).classOf c.dscp.toNat) then (s1, .waits)
    else if !s1.shapersOpen c.func sh then (s1.shapersHold c.func sh, .waits)
    else
      let fr := mk p
      let w := wireBytes fr.len
      (((s1.shapersCharge c.func sh w).enqueueFrame p c.dscp.toNat fr (some c.func)).modConn n (fun v =>
        v.setPath path { v.pathCc path with paceUntil := s.time + s1.paceGap c p path w }), .went)

/-- Sends a packet that belongs to no request: an acknowledgement, a response, a probe. One that may not start yet waits its turn
(R215, log entry 62). Whether it is on its way. -/
def State.sendOn (s : State) (n : Nat) (c : Conn) (path : Nat) (epoch : Bool) (mk : LPort → TxFrame) : State × Bool :=
  let hold := fun (st : State) => st.modTx n (fun t => { t with held := t.held ++ [⟨mk (c.port.getD 0), path, epoch⟩] })
  if c.tx.held.any (fun h => h.path == path) then (hold s, true)
  else match s.startOn n c none path epoch mk with
    | (s1, .went) => (s1, true)
    | (s1, .waits) => (hold s1, true)
    | (s1, .lost) => (s1, false)

/-- The waiting packet that may start first starts. Whether one did. -/
def State.sendHeld (s : State) (n : Nat) (l : List HeldPkt) : State × Bool :=
  match l with
  | [] => (s, false)
  | h :: rest => match s.conn n with
    | none => (s, false)
    | some c => match s.startOn n c none h.path h.epoch (fun p => s.rehead c p h.fr) with
      | (s1, .waits) => s1.sendHeld n rest
      | (s1, _) => (s1.modTx n (fun t => { t with held := t.held.erase h }), true)

end Sys2Proof.Machine
end

