-- ==== Sys2Proof/Machine/Rx.lean ====
section
/-! DEFINITION. Machine/Rx.lean: the receiving half of a connection: the receive buffer (R243), acknowledgements and NAKs
(R172, R177, R178, R184 to R189), the written and visible points (R173 to R176), completion points (R152 to R157, R166),
and the responder (R155 to R157, R183, R197). -/

namespace Sys2Proof.Machine

/-! ### The receive buffer and priority flow control (R243) -/

/-- Bytes all classes of a physical port hold in its receive buffer of 6 MiB. -/
def State.rxPoolBytes (s : State) (ph : PhysId) : Nat :=
  ((List.finRange 32).filter (fun p => physOf p == ph)).foldl (fun n p =>
    n + ((s.port p).classes.map (fun (q : Nat × ClassCfg) => q.2.rxBytes)).sum) 0

/-- Whether a port sends PFC for a class (R243). -/
def PortSt.pfcOn (p : PortSt) (cls : Nat) : Bool := p.flow == 2 && bit p.pfcClasses.toNat cls

/-- Whether a frame of a class finds room: within the buffer, and for a PFC class within XOFF and 1 MiB of headroom (R180, R243). -/
def State.rxRoom (s : State) (p : LPort) (cls len : Nat) : Bool :=
  let q := s.port p
  (!q.pfcOn cls || decide ((q.cls cls).rxBytes + len ≤ q.xoff + 0x100000)) && decide (s.rxPoolBytes (physOf p) + len ≤ 0x600000)

/-- Sends XOFF or quanta 0 for a class as its buffer crosses XOFF and XON (R243). -/
def State.pfcCheck (s : State) (p : LPort) (cls : Nat) : State :=
  let q := s.port p
  let k := q.cls cls
  if !q.pfcOn cls then s
  else if k.rxBytes > q.xoff ∧ !k.xoffSent then
    ((s.emit (.pfc p ⟨cls % 8, by omega⟩ q.pfcQuanta)).countPort p 19 1).modPort p (fun v =>
      v.modCls cls (fun w => { w with xoffSent := true }))
  else if k.rxBytes < q.xon ∧ k.xoffSent then
    ((s.emit (.pfc p ⟨cls % 8, by omega⟩ 0)).countPort p 19 1).modPort p (fun v =>
      v.modCls cls (fun w => { w with xoffSent := false }))
  else s

/-- Holds a frame in the receive buffer. -/
def State.rxHold (s : State) (p : LPort) (cls len : Nat) : State :=
  (s.modPort p (fun v => v.modCls cls (fun w => { w with rxBytes := w.rxBytes + len }))).pfcCheck p cls

/-- Takes a frame out of the receive buffer. -/
def State.rxFree (s : State) (p : LPort) (cls len : Nat) : State :=
  (s.modPort p (fun v => v.modCls cls (fun w => { w with rxBytes := w.rxBytes - len }))).pfcCheck p cls

/-- Holds a raw or drill frame in the receive buffer. -/
def State.rxKeep (s : State) (p : LPort) (owner : RxOwner) (cls len : Nat) : State :=
  (s.modPort p (fun v => { v with rxHeld := v.rxHeld ++ [⟨owner, cls, len⟩] })).rxHold p cls len

/-- A held frame still waits: its placement is not over, or its program has not taken it; `later` are those held after it. -/
def State.stillHeld (s : State) (later : List RxHeld) (h : RxHeld) : Bool :=
  match h.owner with
  | .raw f r k => s.xfers.any (fun q => q.2.purpose == .rawRecv f r k)
  | .drill n i => (s.prog n).any (fun q => decide ((later.filter (fun w => w.owner == h.owner)).length < q.frames.countP (fun w => w.1 == i)))

/-- The held frames that still wait, and those that do not. -/
def State.splitHeld (s : State) : List RxHeld → List RxHeld × List RxHeld
  | [] => ([], [])
  | h :: r => let d := s.splitHeld r; if s.stillHeld r h then (h :: d.1, d.2) else (d.1, h :: d.2)

/-- Raw and drill frames that wait no more leave the receive buffer (R243). -/
def State.freeHeld (s : State) : State :=
  forEach s.livePorts s (fun st p =>
    let d := st.splitHeld (st.port p).rxHeld
    if d.2.isEmpty then st
    else forEach d.2 (st.modPort p (fun v => { v with rxHeld := d.1 })) (fun w h => w.rxFree p h.cls h.len))

/-- Takes the frame of a PSN out of the receive buffer. -/
def State.rxRelease (s : State) (n psn : Nat) : State :=
  match s.conn n with
  | none => s
  | some c =>
    let mine := c.rx.buffered.filter (fun b => b.1 == psn)
    let s1 := s.modRx n (fun r => { r with buffered := r.buffered.filter (fun b => b.1 != psn) })
    forEach mine s1 (fun st (b : Nat × LPort × Nat × Nat) => st.rxFree b.2.1 b.2.2.1 b.2.2.2)

/-! ### Credit (R178) -/

/-- The completion ring a connection's credit reserves in: its NOTIFY_CQ, or its RECV_RING's. -/
def State.creditCq (s : State) (c : Conn) : Option Nat :=
  match c.notifyCq with
  | some q => some q
  | none => match c.recvRing with
    | none => none
    | some r => match s.ring c.func r with
      | some g => g.cq
      | none => none

/-- The completion ring of a connection's credit cannot hold `k` reservations more (R178). -/
def State.creditShort (s : State) (c : Conn) (k : Nat) : Bool :=
  match s.creditCq c with
  | none => false
  | some q => (s.cq c.func q).any (fun v => decide (v.free < k))

/-- The credit CONN_CONNECT starts with: 64 entries reserved, or CREDIT_MAX where the connection can post none (R178). -/
def State.initialCredit (s : State) (n : Nat) : State :=
  match s.conn n with
  | none => s
  | some c =>
    match s.creditCq c with
    | none => s.modRx n (fun r => { r with credit := c.xport.creditMax })
    | some q => ((s.modCq c.func q (fun v => { v with reserved := v.reserved + 64 })).noteCq c.func q).modRx n (fun r =>
        { r with reservedCq := 64, credit := 64 })

/-- The credit of a connection: as far as CREDIT_MAX and the entries reserved and free allow. Entries reserved above a CREDIT_MAX since
lowered stay reserved until used (R178, log entry 63). -/
def State.grantCredit (s : State) (n : Nat) : State :=
  match s.conn n with
  | none => s
  | some c =>
    match s.creditCq c with
    | none => s.modRx n (fun r => { r with credit := c.xport.creditMax })
    | some q =>
      let free := match s.cq c.func q with
        | some v => v.free
        | none => 0
      let add := min (c.xport.creditMax - c.rx.reservedCq) free
      ((s.modCq c.func q (fun v => { v with reserved := v.reserved + add })).noteCq c.func q).modRx n (fun r =>
        { r with reservedCq := r.reservedCq + add, credit := min c.xport.creditMax (r.reservedCq + add) })

/-! ### Acknowledgements and NAKs (R172, R177, R184 to R189) -/

/-- What an acknowledgement echoes of a packet: its PSN, its path, whether it arrived marked CE, its RETX bit (R170, R172). -/
abbrev Echo := Nat × Nat × Bool × Bool

/-- The echo of a packet that was taken; of one no longer known, without CE. -/
def Conn.echoOf (c : Conn) (psn : Nat) : Echo :=
  (c.rx.arrived.find? (fun e => e.1 == psn)).getD (psn, c.rx.echo.2.1, false, c.rx.echo.2.2.2)

/-- The echo a native frame gives. -/
def frameEcho (fr : NFrame) : Echo := (fr.psn.toNat, fr.path, fr.ip.ecn == 3, bit fr.flags.toNat 3)

/-- A PSN has been written: it lies behind EPSN, or its bit is set (R173). -/
def Conn.written (c : Conn) (psn : Nat) : Bool :=
  c.rx.bitmap.contains psn || (decide (0 < c.psnSub c.rx.epsn psn) && decide (c.psnSub c.rx.epsn psn ≤ 2 ^ 20))

/-- `count` bits from bit 0 for PSN VPSN + from: placed and visible (R172). -/
def Conn.sackBits (c : Conn) (from_ count : Nat) : Nat :=
  (c.rx.visible.map (fun v =>
    let d := c.psnSub v c.rx.vpsn
    if from_ ≤ d ∧ d < from_ + count then 2 ^ (d - from_) else 0)).sum

/-- The acknowledgement or NAK of a connection that echoes a packet (R172). -/
def State.ackFrame (s : State) (n : Nat) (c : Conn) (p : LPort) (path type code nakPsn : Nat) (e : Echo) : TxFrame :=
  let x := c.sackBits 65 960
  let flags := flagBit 6 s.relay.epoch + flagBit 3 e.2.2.2 + flagBit 2 e.2.2.1 + flagBit 1 c.rx.failedCopy + flagBit 0 (x != 0)
  let body : AckBody := ⟨BitVec.ofNat 32 (min c.rx.credit 0x100000), BitVec.ofNat 32 code, BitVec.ofNat 32 nakPsn,
    if x = 0 then none else some (BitVec.ofNat 960 x)⟩
  .native (s.nativeFrame n c p path type flags c.rx.vpsn e.1 (if type = 0x13 then 0 else c.sackBits 1 64) none (some body) [])

/-- A RoCE v2 packet of a connection (R164, R165, R168). -/
def State.roceFrame (s : State) (c : Conn) (p : LPort) (op : RoceOp) (psn va rkey dlen operand compare imm : Nat)
    (syn : RoceAck) (payload : Bytes) : TxFrame :=
  let h := s.linkHeader c p
  let fr : RFrame :=
    { l2 := h.1, ip := h.2, udpSrc := c.entropy, op := op
      dqp := BitVec.ofNat 24 c.peer, psn := BitVec.ofNat 24 psn, pkey := c.pkey
      va := BitVec.ofNat 64 va, rkey := BitVec.ofNat 32 rkey, dlen := BitVec.ofNat 32 dlen
      operand := BitVec.ofNat 64 operand, compare := BitVec.ofNat 64 compare, imm := BitVec.ofNat 32 imm
      syndrome := syn, payload := payload, icrcOk := true }
  .roce { fr with l2 := { fr.l2 with length := fr.wireLen } }

/-- The RoCE v2 form of an acknowledgement type (R164, R196). -/
def roceSyndrome (type : Nat) : RoceAck :=
  if type = 0x11 then .rnr else if type = 0x12 then .nakAccess else if type = 0x13 then .nakSeq else .ack

/-- The path an acknowledgement takes: the echoed packet's, or the lowest live one (R177). -/
def Conn.ackPath (c : Conn) (e : Echo) : Nat := if (c.pathCc e.2.1).failed then c.livePaths.headD e.2.1 else e.2.1

/-- Sends an acknowledgement or NAK that echoes a packet, with the present credit; CODE and NAK_PSN as given. On ROCE_RC it carries the
last PSN visible, the refused PSN, or for a sequence error VPSN (R172, R175, R178, R196). -/
def State.sendAck (s : State) (n type code nakPsn : Nat) (e : Echo) : State :=
  let s0 := s.grantCredit n
  match s0.conn n with
  | none => s0
  | some c =>
    let psn := if type = 0x10 then c.psnSub c.rx.vpsn 1 else if type = 0x13 then c.rx.vpsn else nakPsn
    let sent := s0.sendOn n c (c.ackPath e) s0.relay.epoch (fun p =>
      if c.native then s0.ackFrame n c p (c.ackPath e) type code nakPsn e
      else s0.roceFrame c p .ack psn 0 0 0 0 0 0 (roceSyndrome type) [])
    if sent.2 then sent.1.modRx n (fun r => { r with acked := r.vpsn, sinceAck := 0, failedCopy := false }) else sent.1

/-- RETRY_US of a NAK_RNR reason (R184). -/
def rnrUs (reason : Nat) : Nat := if reason = 1 then 10 else if reason = 2 then 50 else if reason = 3 then 100 else 1000

/-- Sends NAK_RNR for a PSN, at most once per RETRY_US (R184). -/
def State.nakRnr (s : State) (n reason psn : Nat) (e : Echo) : State :=
  match s.conn n with
  | none => s
  | some c =>
    if s.time < c.rx.rnrUntil then s
    else
      let s1 := s.sendAck n 0x11 (reason * 2 ^ 24 + rnrUs reason) psn e
      s1.modConn n (fun v => { v with
        rx := { v.rx with rnrUntil := s.time + rnrUs reason * 1000 }
        stats := { v.stats with rnrSent := satAdd max32 v.stats.rnrSent 1 } })

/-- A NAK sent back to where a frame came from, on the port it came on, for a connection that is not live or not connected: no context
gives its DSCP, source port and node. DESIGN CHOICE: it takes the DSCP and UDP source port of the frame (log entry 151) and node 0 (log
entry 64). -/
def State.replyNak (s : State) (p : LPort) (fr : NFrame) (type node ackPsn : Nat) (body : AckBody) (member : Option FuncId) : State :=
  let e := frameEcho fr
  let tag := (s.port p).insertedTag ((s.port p).classOf fr.ip.dscp.toNat)
  let closed := type == 0x14
  let a : NFrame :=
    { l2 := .built fr.l2.sa (s.port p).mac tag
      ip := ⟨fr.ip.v6, fr.ip.dst, fr.ip.src, fr.ip.dscp, 2, 64, !fr.ip.v6⟩
      udpSrc := fr.udpSrc, udpDst := s.nativePort, udpSum := 0, version := 1, type := BitVec.ofNat 8 type
      flags := BitVec.ofNat 8 (flagBit 6 s.relay.epoch + (if closed then 0 else flagBit 3 e.2.2.2 + flagBit 2 e.2.2.1))
      hopLimit := BitVec.ofNat 8 s.relay.hopLimit, route := BitVec.ofNat 32 (fr.path * 2 ^ 26 + node)
      dstConn := BitVec.ofNat 32 (fr.srcConn.toNat % 2 ^ 24), srcConn := BitVec.ofNat 32 (fr.dstConn.toNat % 2 ^ 24)
      psn := BitVec.ofNat 32 ackPsn, key := if closed then 0 else fr.psn, offset := 0, imm := none
      ack := some body, payload := [], tag := [] }
  let b := a.finish
  s.enqueueOwn p ((s.port p).classOf fr.ip.dscp.toNat) ⟨.native b, b.wireLen, member, none, false, false⟩

/-- Answers NAK_CLOSED, at most once per source connection per 100 µs: by the context and the path table for `known`, the connection in
ERROR that the frame names; else back on the port the frame came from (R145, R168, R169, R172, R189, R366). -/
def State.nakClosed (s : State) (p : LPort) (fr : NFrame) (known : Option (Nat × Conn)) : State :=
  let who := fun (e : Nat × Nat × Nat) => e.1 == fr.ip.src.toNat && e.2.1 == fr.srcConn.toNat % 2 ^ 24
  if s.closed.any (fun e => who e && decide (s.time < e.2.2)) then s
  else
    let s1 := { s with closed := s.closed.filter (fun e => !who e && decide (s.time < e.2.2)) ++
      [(fr.ip.src.toNat, fr.srcConn.toNat % 2 ^ 24, s.time + 100000)] }
    match known with
    | some (n, c) => (s1.sendOn n c fr.path s1.relay.epoch (fun q =>
        .native (s1.nativeFrame n c q fr.path 0x14 (flagBit 6 s1.relay.epoch) c.rx.vpsn 0 0 none (some ⟨0, 0, 0, none⟩) []))).1
    | none => s1.replyNak p fr 0x14 0 0 ⟨0, 0, 0, none⟩ none

/-- A frame for a native connection in RESET: NAK_RNR reason 5 goes back to its sender, at most once per RETRY_US (R146, R184). -/
def State.nakReset (s : State) (n : Nat) (c : Conn) (p : LPort) (fr : NFrame) : State :=
  if s.time < c.rx.rnrUntil then s
  else (s.replyNak p fr 0x11 0 c.rx.vpsn ⟨0, BitVec.ofNat 32 (5 * 2 ^ 24 + rnrUs 5), fr.psn, none⟩ (some c.func)).modConn n (fun v =>
    { v with
      rx := { v.rx with rnrUntil := s.time + rnrUs 5 * 1000 }
      stats := { v.stats with rnrSent := satAdd max32 v.stats.rnrSent 1 } })

/-! ### The written point (R173, R174, R194) -/

/-- Moves EPSN over the PSNs already written. -/
def Conn.advanceEpsn (fuel : Nat) (c : Conn) : Conn :=
  match fuel with
  | 0 => c
  | k + 1 =>
    if c.rx.bitmap.contains c.rx.epsn then
      Conn.advanceEpsn k { c with rx := { c.rx with
        bitmap := lerase c.rx.bitmap c.rx.epsn, epsn := c.psnAdd c.rx.epsn 1, nakSeqSent := false } }
    else c

/-- Destroys the old receive key when EPSN reaches the lowest PSN of the new phase (R200). -/
def State.dropOldRx (s : State) (n : Nat) : State :=
  match s.conn n with
  | none => s
  | some c =>
    match c.rxPhasePsn, c.oldRx with
    | some p, some k =>
      if c.psnSub c.rx.epsn p < 2 ^ 31 then
        { s.modConn n (fun v => { v with oldRx := none, rxPhasePsn := none }) with
          keys := tdel s.keys k, keySeries := s.keySeries.give k }
      else s
    | _, _ => s

/-- Marks a PSN written; on a connection that is not sprayed only the one at EPSN (R173). -/
def State.markWritten (s : State) (n psn : Nat) : State :=
  match s.conn n with
  | none => s
  | some c =>
    if c.psnSub psn c.rx.epsn ≥ 2 ^ 20 ∨ (c.mode ≠ .sprayed ∧ psn ≠ c.rx.epsn) then s
    else
      let c1 := { c with rx := { c.rx with bitmap := linsert c.rx.bitmap psn } }
      ({ s with conns := tset s.conns n (Conn.advanceEpsn (c1.rx.bitmap.length + 1) c1) }).dropOldRx n

/-- Takes back a PSN whose bytes were discarded: it is new again. On a connection that is not sprayed the PSNs after it are new again too,
since none above EPSN is kept (R73, R173, R194). -/
def State.unwrite (s : State) (n psn : Nat) : State :=
  s.modConn n (fun c =>
    let r := c.rx
    let back := c.psnSub r.epsn psn
    let behind := decide (0 < back) && decide (back ≤ 2 ^ 20)
    let kept := fun (q : Nat) => if c.mode = .sprayed then q != psn else decide (c.psnSub q psn ≥ 2 ^ 20)
    { c with rx := { r with
        epsn := if behind then psn else r.epsn
        bitmap := if c.mode ≠ .sprayed then r.bitmap.filter kept
          else if behind then (List.range (back - 1)).foldl (fun m i => linsert m (c.psnAdd psn (i + 1))) r.bitmap
          else lerase r.bitmap psn
        visible := r.visible.filter kept
        sends := r.sends.filter (fun w => kept w.1)
        arrived := r.arrived.filter (fun e => kept e.1)
        spans := r.spans.filter (fun w => kept w.psn)
        lasts := r.lasts.filter (fun w => kept w.psn)
        flags := r.flags.filter (fun w => kept w.1) } })

/-! ### Completion points (R152, R153, R154, R157, R166, R176) -/

/-- The RECVs of a connection still posted, oldest first. -/
def State.postedRecvs (s : State) (c : Conn) (n : Nat) : List (Nat × Job) :=
  match c.recvRing with
  | none => []
  | some r => match s.ring c.func r with
    | none => []
    | some g => (g.jobs.filter (fun j => j.phase == .posted && entOp j.ent == 0x13 && leAt j.ent 16 4 % 2 ^ 24 == n)).map
        (fun j => (r, j))

/-- The RECV that SEND message `msg` consumes (R154, R171). -/
def State.recvFor (s : State) (n : Nat) (c : Conn) (msg : Nat) : Option (Nat × Job) :=
  (s.postedRecvs c n)[dist32 msg c.rx.recvBase]?

/-- Completes the posted RECV that message `msg` of a connection consumes; on a ROCE_RC connection the oldest. Where a message that
fails has `placed` bytes in it, they are undefined; one that placed nothing leaves them as they were (R19, R154, R166). -/
def State.completeRecv (s : State) (n msg status bytes aux : Nat) (failed placed : Bool) (op : Option Nat) : State :=
  match s.conn n with
  | none => s
  | some c =>
    match (s.postedRecvs c n)[if c.native then dist32 msg c.rx.recvBase else 0]? with
    | none => s
    | some (r, j) =>
      let s0 := if status = stOk ∨ !placed then s else s.undefineRuns (s.jobTargets .send j)
      let s1 := s0.modJob c.func r j.slot (fun v => { v with
        bytes := bytes, aux := aux, failedCopy := failed
        ent := match op with
          | some o => leBytes 1 o ++ v.ent.drop 1
          | none => v.ent })
      (s1.modRx n (fun v => { v with recvBase := add32 v.recvBase 1 })).finishJob c.func r j.slot status

/-- Advances the RECV_COUNTER of a connection (R153). -/
def State.recvAdvance (s : State) (n : Nat) : State :=
  match s.conn n with
  | none => s
  | some c => match c.recvCounter with
    | some t => s.advanceTrig c.func t 1
    | none => s

/-- The notification of a WRITE with NOTIFY, into an entry its credit reserved (R152, R178). -/
def State.notify (s : State) (n : Nat) (l : RxLast) (value : Nat) (failed : Bool) : State :=
  match s.conn n with
  | none => s
  | some c => match c.notifyCq with
    | none => s
    | some q =>
      (s.postCqe c.func q ⟨l.offset, l.length, 0, 0, 0x10, stOk, n, value, failed, false⟩ (decide (c.rx.reservedCq > 0))).modRx n
        (fun r => { r with reservedCq := r.reservedCq - 1 })

/-- A message reaches its completion point (R176): notification, RECV completion, counter; a poisoned one delivers
nothing, and a RECV it consumed completes with ACCESS_FAULT. A WRITE with FLAG and NOTIFY advances RECV_COUNTER once: DESIGN CHOICE, R153
does not say whether it counts one or two (log entry 56). -/
def State.deliver (s : State) (n : Nat) (c : Conn) (l : RxLast) (refused failed placed : Bool) : State :=
  let s1 :=
    if l.type = 0x03 then
      if refused then s.completeRecv n l.msg stAccessFault 0 0 failed placed none
      else (s.completeRecv n l.msg stOk l.length (l.imm.getD 0) failed true none).recvAdvance n
    else if refused then s
    else if l.type = 0x01 ∨ l.type = 0x02 then
      match l.imm with
      | some v =>
        if c.native then (s.notify n l v failed).recvAdvance n
        else (s.completeRecv n l.msg stOk 0 v failed true (some 0x10)).recvAdvance n
      | none => if l.type = 0x02 then s.recvAdvance n else s
    else s
  s1

/-! ### The visible point (R172, R173, R176, R177, R186, R188) -/

/-- VPSN passes the PSN it stands at: its marks are freed, and a LAST packet's message reaches its completion point. Gives
whether that was a LAST packet. -/
def State.passPsn (s : State) (n : Nat) (c : Conn) : State × Bool :=
  let v := c.rx.vpsn
  let mine := c.rx.marks.filter (fun m => m.psn == v) ++ c.rx.epsnMark.toList.filter (fun m => m.psn == v)
  let refused := c.rx.msgRefused || mine.any (fun m => m.refused)
  let failedHere := mine.any (fun m => !m.refused)
  let failed := c.rx.msgFailed || failedHere
  let placed := c.rx.msgPlaced || (c.rx.sends.any (fun w => w.1 == v) && !mine.any (fun m => m.refused))
  let span := match c.rx.spans.find? (fun w => w.psn == v) with
    | some w => if w.first then { w with base := w.off, got := w.len } else { w with base := c.rx.passed.base, got := c.rx.passed.got + w.len }
    | none => c.rx.passed
  let send := match c.rx.sends.find? (fun w => w.1 == v) with
    | some w => some w.2
    | none => c.rx.msgSend
  let last := (c.rx.lasts.find? (fun l => l.psn == v)).map (fun l => match (if refused && decide (l.type < 0x03) then send else none) with
    | some m => { l with type := 0x03, msg := m }
    | none => if c.native && (l.type == 0x01 || l.type == 0x02) then { l with offset := span.base, length := span.got } else l)
  let s1 := s.modRx n (fun r => { r with
    vpsn := c.psnAdd v 1
    spans := r.spans.filter (fun w => w.psn != v)
    arrived := r.arrived.filter (fun e => e.1 != v)
    passed := if last.isSome then { span with got := 0 } else span
    sends := r.sends.filter (fun w => w.1 != v)
    msgSend := if last.isSome then none else send
    visible := lerase r.visible v
    marks := r.marks.filter (fun m => m.psn != v)
    epsnMark := r.epsnMark.filter (fun m => m.psn != v)
    msgRefused := if last.isSome then false else refused
    msgFailed := if last.isSome then false else failed
    msgPlaced := if last.isSome then false else placed
    lasts := r.lasts.filter (fun l => l.psn != v)
    failedCopy := r.failedCopy || failedHere })
  match last with
  | some l => (s1.deliver n c l refused failed placed, true)
  | none => (s1, false)

/-- Moves VPSN over the visible PSNs below EPSN; a FLAG of a poisoned message is not written, and is passed (R176). Gives whether it
passed a LAST packet, and the LAST packets passed of collective types, for the collective engine. -/
def State.advanceVpsnN (fuel : Nat) (s : State) (n : Nat) (last : Bool) (coll : List RxLast) : State × Bool × List RxLast :=
  match fuel with
  | 0 => (s, last, coll)
  | k + 1 =>
    match s.conn n with
    | none => (s, last, coll)
    | some c =>
      let poisoned := c.rx.msgRefused && c.rx.flags.any (fun w => w.1 == c.rx.vpsn)
      if !poisoned ∧ (c.rx.vpsn = c.rx.epsn ∨ !c.rx.visible.contains c.rx.vpsn) then (s, last, coll)
      else if poisoned then
        State.advanceVpsnN k (((s.markWritten n c.rx.vpsn).modRx n (fun r => { r with
          flags := r.flags.filter (fun w => w.1 != r.vpsn), visible := linsert r.visible r.vpsn })).rxRelease n c.rx.vpsn) n last coll
      else
        let found := c.rx.lasts.filter (fun l => l.psn == c.rx.vpsn && decide (0x40 ≤ l.type))
        let d := s.passPsn n c
        State.advanceVpsnN k d.1 n (last || d.2) (coll ++ found)

/-! ### The responder (R155 to R157, R183, R197) -/

/-- No RESP_NONCE is left under the key in use: a response waits for CONN_ROTATE_KEYS (R197, R199). -/
def Conn.noncesUsed (c : Conn) : Bool := c.encrypt && decide (c.tx.respCount ≥ 2 ^ 31)

/-- Sends a READ_RESP or ATOMIC_RESP; on an encrypted connection with its RESP_NONCE, which advances by 1 for every response sent (R171,
R197). Whether it is on its way. A response sent again does not set RETX: DESIGN CHOICE, R156, R170 and R183 do not say (log entry
150). -/
def State.sendResponse (s : State) (n type psn path off : Nat) (first last : Bool) (payload : Bytes) : State × Bool :=
  match s.conn n with
  | none => (s, false)
  | some c =>
    if c.noncesUsed then (s, false)
    else
      let key := if c.encrypt then 2 ^ 31 + c.tx.respCount else 0
      let flags := flagBit 6 s.relay.epoch + flagBit 5 first + flagBit 4 last + flagBit 1 c.tx.keyPhase
      let op := if type = 0x07 then RoceOp.atomicAck
        else if first && last then .readRespOnly else if first then .readRespFirst else if last then .readRespLast else .readRespMiddle
      let operand := if type = 0x07 then beNat payload else 0
      let r := s.sendOn n c (if c.native then path else 0) s.relay.epoch (fun p =>
        if c.native then
          let fr := s.nativeFrame n c p path type flags psn key off none none payload
          .native (match (c.txKey.bind (fun k => tget s.keys k)) with
            | some k => if c.encrypt then fr.encrypted k else fr
            | none => fr)
        else s.roceFrame c p op psn 0 0 0 operand 0 0 .ack (if type = 0x07 then [] else payload))
      if r.2 then ((r.1.count c.func cntNetTx payload.length).modTx n (fun t => { t with respCount := t.respCount + b2n c.encrypt }), true)
      else r

/-- The result of an atomic (R155). -/
def atomicResult (op old operand compare : Nat) : Nat :=
  if op = 0 then (old + operand) % 2 ^ 64 else if op = 1 then (if old = compare then operand else old) else operand

/-- A transfer for a purpose is outstanding, or has just ended. -/
def State.inFlight (s : State) (p : Purpose) : Bool :=
  s.xfers.any (fun (q : Nat × Xfer) => q.2.purpose == p) || s.agenda.any (fun (a : Purpose × XResult) => a.1 == p)

/-- What a responder's work transfers for. -/
def RespWork.purpose (w : RespWork) (n : Nat) : Purpose :=
  if w.atomic.isSome then .atomicTarget n w.psn else .respond n w.psn

/-- Bytes a transfer moves. -/
def Xfer.spanBytes (x : Xfer) : Nat := (x.spans.map Prod.snd).sum

/-- Bytes of packets that a die is building: read for a packet, being read, or built and waiting to start on their path (R180). -/
def State.txStage (s : State) (d : DieId) : Nat :=
  (s.xfers.map (fun (q : Nat × Xfer) => match q.2.purpose with
    | .sendSrc f _ _ => if dieOf f = d then q.2.spanBytes else 0
    | .resend _ _ => if dieOf q.2.func = d then q.2.spanBytes else 0
    | .respond _ _ => if dieOf q.2.func = d then q.2.spanBytes else 0
    | _ => 0)).sum +
  (s.conns.map (fun (q : Nat × Conn) => if dieOf q.2.func = d then
    (q.2.tx.reread.map (fun w => w.2.length)).sum + (q.2.tx.held.map (fun w => w.fr.len)).sum else 0)).sum +
  ((allFuncs.filter (fun f => dieOf f == d)).map (fun f => ((s.func f).rings.map (fun (g : Nat × Ring) =>
    if g.2.kind = .send ∧ g.2.rawq.isNone then (g.2.jobs.map (fun j => j.data.length)).sum else 0)).sum)).sum

/-- The transmit staging of a die, 1 MiB, has room (R180). -/
def State.stageRoom (s : State) (d : DieId) (len : Nat) : Bool := decide (s.txStage d + len ≤ 0x100000)

/-- The offset and bytes a responder's work reads next: the target of an atomic, or one READ_RESP packet's (R171). -/
def RespWork.next (w : RespWork) (pmtu : Nat) : Nat × Nat :=
  if w.atomic.isSome then (w.off, 8) else (w.off + w.sent * pmtu, min pmtu (w.len - w.sent * pmtu))

/-- Begins the responder's work that every earlier placement allows, a packet at a time, and writes the FLAG VPSN stands at (R157, R180,
R199). -/
def State.beginWork (s : State) (n : Nat) : State :=
  match s.conn n with
  | none => s
  | some c =>
    let ready := fun (psn : Nat) => decide (c.psnSub c.rx.vpsn psn < 2 ^ 23) || psn == c.rx.vpsn
    let go := c.rx.work.filter (fun w => ready w.psn && !s.inFlight (w.purpose n) && !(w.atomic.isNone && c.noncesUsed))
    let flags := c.rx.flags.filter (fun w => w.1 == c.rx.vpsn)
    let s1 := s.modRx n (fun r => { r with flags := r.flags.filter (fun w => w.1 != c.rx.vpsn) })
    let s2 := forEach flags s1 (fun st (w : Nat × Nat × Nat × Nat) =>
      st.startWrite c.func (BitVec.ofNat 32 w.2.1) w.2.2.1 (leBytes 8 w.2.2.2) (.flag n w.1))
    forEach go s2 (fun st w =>
      let a := w.next c.pmtuBytes
      if w.atomic.isNone && !st.stageRoom (dieOf c.func) a.2 then st
      else st.startXfer c.func (keyIndex w.key) [a] false [] (w.purpose n))

/-- The responder's work on a PSN that has begun. -/
def State.workOf (s : State) (n psn : Nat) : Option RespWork :=
  match s.conn n with
  | none => none
  | some c => c.rx.work.find? (fun w => w.psn == psn)

/-! ### Visibility and refusal of one packet -/

/-- A PSN opens a new hole in SACK (R177). -/
def Conn.opensHole (c : Conn) (psn : Nat) : Bool :=
  c.mode == .sprayed && psn != c.rx.vpsn && !c.rx.visible.contains (c.psnSub psn 1)

/-- VPSN advances, completion points are reached and the responder begins; an ACK that echoes `e` goes out when one is due, and one for
each duplicate VPSN has now passed (R173, R174, R176, R177). Gives the collective packets passed. -/
def State.progress (s : State) (n : Nat) (e : Echo) (due : Bool) : State × List RxLast :=
  match s.conn n with
  | none => (s, [])
  | some c =>
    let d := State.advanceVpsnN (c.rx.visible.length + 2 * c.rx.flags.length + 2) s n false []
    let s1 := d.1.beginWork n
    match s1.conn n with
    | none => (s1, d.2.2)
    | some v =>
      let dups := v.rx.owed.filter (fun w => decide (v.psnSub (v.psnSub v.rx.vpsn 1) w.1 < 2 ^ 20))
      let s2 := s1.modRx n (fun r => { r with owed := r.owed.filter (fun w => !dups.contains w) })
      let s3 := if due || d.2.1 || decide (v.rx.sinceAck ≥ v.xport.ackPackets) then s2.sendAck n 0x10 0 0 e else s2
      (forEach dups s3 (fun st w => st.sendAck n 0x10 0 0 w), d.2.2)

/-- The `count` PSNs of a packet are placed and visible. A packet marked CE is acknowledged at once (R173, R177, R206). -/
def State.becomeVisibleN (s : State) (n psn count : Nat) : State × List RxLast :=
  match s.conn n with
  | none => (s, [])
  | some c =>
    let new := ((List.range count).map (fun i => c.psnAdd psn i)).filter (fun q =>
      decide (c.psnSub q c.rx.vpsn < 2 ^ 20) && c.written q && !c.rx.visible.contains q)
    if new.isEmpty then (s, [])
    else
      let e := c.echoOf psn
      (s.modRx n (fun r => { r with
        visible := new.foldl linsert r.visible
        sinceAck := r.sinceAck + 1
        arrived := r.arrived.filter (fun w => w.1 != psn)
        echo := (e.1, e.2.1, false, e.2.2.2) })).progress n e (e.2.2.1 || c.opensHole psn)

/-- The same of a packet of one PSN. -/
def State.becomeVisible (s : State) (n psn : Nat) : State × List RxLast := s.becomeVisibleN n psn 1

/-- Whether a mark can be kept for a PSN: one of 16, or the EPSN mark (R173, R186). -/
def Conn.canMark (c : Conn) (psn : Nat) : Bool :=
  decide (c.rx.marks.length < 16) || (psn == c.rx.epsn && c.rx.epsnMark.isNone)

/-- Keeps a mark on a PSN. -/
def State.keepMark (s : State) (n psn : Nat) (refused : Bool) : State :=
  s.modRx n (fun r => if r.marks.length < 16 then { r with marks := r.marks ++ [⟨psn, refused⟩] }
    else { r with epsnMark := some ⟨psn, refused⟩ })

/-- Counts a packet dropped as beyond tracking (R174, R186, R202). -/
def State.beyond (s : State) (n : Nat) : State :=
  s.modConn n (fun c => { c with stats := { c.stats with beyondTracking := satAdd max32 c.stats.beyondTracking 1 } })

/-- The mark of a packet refused when its access was carried out: kept if VPSN has not passed its PSN (R185). -/
def State.lateMark (s : State) (n psn : Nat) : State :=
  match s.conn n with
  | none => s
  | some c => if decide (c.psnSub psn c.rx.vpsn < 2 ^ 20) && c.canMark psn then s.keepMark n psn true else s

/-- Refuses a packet with NAK_ACCESS: marked REFUSED and counted as placed; with no mark left it is dropped (R185, R186).
On a ROCE_RC connection the error is fatal (R147), by `roceFatal`. -/
def State.refusePacket (s : State) (n psn reason : Nat) : State × List RxLast :=
  match s.conn n with
  | none => (s, [])
  | some c =>
    let s0 := if reason ≤ 4 then s.count c.func cntRegionFault 1 else s
    if !c.canMark psn then (s0.beyond n, [])
    else
      let s1 := ((s0.keepMark n psn true).markWritten n psn).rxRelease n psn
      (s1.sendAck n 0x12 (reason * 2 ^ 24) psn (c.echoOf psn)).becomeVisible n psn

/-- The placement of a packet's payload ended (R19, R21, R73, R90, R185). -/
def State.packetDone (s : State) (n psn bytes : Nat) (r : XResult) : State × List RxLast :=
  match s.conn n with
  | none => (s, [])
  | some c =>
    let s0 := s.rxRelease n psn
    let e := c.echoOf psn
    match r with
    | .ok _ => ((s0.count c.func cntNetRx bytes).markWritten n psn).becomeVisible n psn
    | .memError => (s0.markWritten n psn).becomeVisible n psn
    | .pageWait => ((s0.unwrite n psn).nakRnr n 2 psn e, [])
    | .fenced => ((s0.unwrite n psn).nakRnr n 6 psn e, [])
    | .xlateFault => s0.refusePacket n psn 5
    | .gone => s0.refusePacket n psn 1

/-- NAK_ACCESS for a request whose access failed when it was carried out; where its mark is due and none is left, it is dropped and
counted, and nothing is sent (R185, R186, R345). -/
def State.refuseLate (s : State) (n psn reason : Nat) : State :=
  match s.conn n with
  | none => s
  | some c =>
    if decide (c.psnSub psn c.rx.vpsn < 2 ^ 20) && !c.canMark psn then s.beyond n
    else ((if reason ≤ 4 then s.count c.func cntRegionFault 1 else s).lateMark n psn).sendAck n 0x12 (reason * 2 ^ 24) psn (c.echoOf psn)

/-- REASON of NAK_ACCESS for an access that could not be carried out (R185, R345). -/
def XResult.reason : XResult → Nat
  | .memError => 9
  | .xlateFault => 5
  | _ => 1

/-- The read of a READ_RESP packet ended: the packet goes out and the next one's bytes are read, or NAK_ACCESS (R155, R157, R185,
R345). -/
def State.respondDone (s : State) (n psn : Nat) (r : XResult) : State × List RxLast :=
  match s.workOf n psn, s.conn n with
  | some w, some c =>
    let k := c.packets w.len
    let drop := fun (st : State) => st.modRx n (fun v => { v with work := v.work.filter (fun x => x.psn != psn) })
    (match r with
    | .ok bytes =>
      let d := s.sendResponse n 0x05 (c.psnAdd w.psn w.sent) w.path (w.sent * c.pmtuBytes) (w.sent == 0) (w.sent + 1 == k) bytes
      if c.noncesUsed then d.1
      else if w.sent + 1 = k then drop d.1
      else (d.1.modRx n (fun v => { v with work := v.work.map (fun x => if x.psn = psn then { x with sent := x.sent + 1 } else x) })).beginWork n
    | _ => (drop s).refuseLate n psn r.reason, [])
  | _, _ => (s, [])

/-- The atomic executes at the memory controller as one operation; its PSN counts as written, and its result is saved and sent back; one
that cannot is refused like a packet (R27, R155, R156, R173, R185, R186). -/
def State.atomicDone (s : State) (n psn : Nat) (r : XResult) : State × List RxLast :=
  match s.workOf n psn, s.conn n with
  | some w, some c =>
    let s1 := s.modRx n (fun v => { v with work := v.work.filter (fun x => x.psn != psn) })
    match r, s.region w.key with
    | .ok bytes, some g =>
      let old := leAt bytes 0 8
      let s2 := (s1.regionWrite g w.off (g.place w.off).1 (leBytes 8 (atomicResult (w.atomic.getD 2) old w.operand w.compare)) []).1
      let s3 := s2.modRx n (fun v => { v with saved := (v.saved ++ [(psn, old)]).drop (v.saved.length + 1 - c.readDepth) })
      let d := (s3.markWritten n psn).becomeVisible n psn
      ((d.1.sendResponse n 0x07 psn w.path 0 true true (beBytes 8 old)).1, d.2)
    | .ok _, none => s1.refusePacket n psn 1
    | x, _ => s1.refusePacket n psn x.reason
  | _, _ => (s, [])

end Sys2Proof.Machine
end

