-- ==== Sys2Proof/Machine/Coll.lean ====
section
/-! DEFINITION. Machine/Coll.lean: the collective engine of a node (R256 to R288): launch and admission, the scale pass, chunks
in reduction slots, rounding, placement, comparison, reports and seals, repair, and lost subtrees. A slot is kept by unit: a
chunk of a tree, or the part of a chunk that one ring position owns. -/

namespace Sys2Proof.Machine

/-! ### Fields of an operation (R262 to R264, R267) -/

/-- Format of DTYPE `d`. -/
def dtFmt (d : Nat) : Fmt := if d = 0 then .fp32 else if d = 1 then .fp16 else if d = 2 then .bf16 else if d = 3 then .e4m3 else .e5m2

/-- REDOP. -/
def CollOp.redop (o : CollOp) : Nat := leAt o.args 22 1
/-- FLAGS bit `b`: 0 EARLY_RELEASE, 1 SCALE_PASS, 2 STOCHASTIC, 3 RING. -/
def CollOp.flag (o : CollOp) (b : Nat) : Bool := bit (leAt o.args 24 1) b
/-- On the ring rather than the tree. -/
def CollOp.ring (o : CollOp) : Bool := o.flag 3
/-- PIPELINE. -/
def CollOp.pipeline (o : CollOp) : Nat := leAt o.args 25 1
/-- SCALE, signed. -/
def CollOp.scaleField (o : CollOp) : Int := let v := leAt o.args 26 2; if v ≥ 32768 then (v : Int) - 65536 else v
/-- ALLREDUCE, REDUCE or REDUCE_SCATTER. -/
def CollOp.reduces (o : CollOp) : Bool := o.opcode == 0x80 || o.opcode == 0x81 || o.opcode == 0x83
/-- A sum in grid arithmetic. -/
def CollOp.grid (o : CollOp) : Bool := o.reduces && o.redop == 0 && leAt o.args 23 1 == 0
/-- A sum in FP32. -/
def CollOp.fast (o : CollOp) : Bool := o.reduces && o.redop == 0 && leAt o.args 23 1 == 1
/-- The scale pass is asked for and applies (R275). -/
def CollOp.scales (o : CollOp) : Bool := o.grid && o.flag 1
/-- A: bytes of an accumulator (R267). -/
def CollOp.accSize (o : CollOp) : Nat := if o.grid then 20 else if o.fast then 4 else dtSize o.dtIn
/-- E: elements of a chunk (R267). -/
def CollOp.perChunk (o : CollOp) : Nat := 65520 / o.accSize
/-- Chunks of the operation (R267). -/
def CollOp.chunks (o : CollOp) : Nat := ceilDiv o.count o.perChunk

/-! ### Units -/

/-- A unit: its key, chunk, first element, elements, and on a ring the position that owns it (R280). -/
structure CUnit where
  key : Nat
  chunk : Nat
  lo : Nat
  n : Nat
  owner : Nat
  deriving DecidableEq, Repr

/-- The members hosted at a ring position, (first, count): the local ones at this node's; a free value at the others, which no field tells
it (R259, R280, log entry 12). -/
def Comm.hosted (c : Comm) (p : Nat) : Nat × Nat := if p = c.ringPos then (c.firstLocal, c.localCount) else Config.ringHosted c.tag.toNat p

/-- The first element of member `m`'s slice (R262, R280). -/
def CollOp.sliceStart (o : CollOp) (c : Comm) (m : Nat) : Nat := min o.count (ceilDiv (m * o.count) (max 1 c.members))

/-- Ring position `p`'s segment: the slices of the members hosted there, (first element, element after the last) (R262, R280). -/
def CollOp.segment (o : CollOp) (c : Comm) (p : Nat) : Nat × Nat :=
  let h := c.hosted p
  (o.sliceStart c h.1, o.sliceStart c (h.1 + h.2))

/-- The ring position that owns an element: the one that hosts the member of whose slice it is. -/
def CollOp.ownerOf (o : CollOp) (c : Comm) (e : Nat) : Nat :=
  let m := e * c.members / max 1 o.count
  let at_ := fun (p : Nat) => decide ((c.hosted p).1 ≤ m) && decide (m < (c.hosted p).1 + (c.hosted p).2)
  if at_ c.ringPos then c.ringPos else ((List.range c.ringNodes).find? at_).getD c.ringPos

/-- The unit of a key: chunk, or chunk × 65,536 + ring position. -/
def CollOp.unit (o : CollOp) (c : Comm) (key : Nat) : CUnit :=
  let e := o.perChunk
  if o.ring then
    let ch := key / 65536
    let p := key % 65536
    let g := o.segment c p
    let lo := max (ch * e) g.1
    ⟨key, ch, lo, min (min o.count ((ch + 1) * e)) g.2 - lo, p⟩
  else ⟨key, key, key * e, min e (o.count - key * e), 0⟩

/-- The units of a chunk, by ring position. -/
def CollOp.unitsOf (o : CollOp) (c : Comm) (ch : Nat) : List CUnit :=
  if o.ring then ((List.range c.ringNodes).map (fun p => o.unit c (ch * 65536 + p))).filter (fun u => decide (0 < u.n))
  else [o.unit c ch]

/-- The unit that a packet's chunk and byte offset name, with `size` bytes an element. -/
def CollOp.unitAt (o : CollOp) (c : Comm) (ch off size : Nat) : CUnit :=
  if o.ring then o.unit c (ch * 65536 + o.ownerOf c (ch * o.perChunk + off / max 1 size)) else o.unit c ch

/-- The part of [a, a + n) inside [b, b + m). -/
def meet (a n b m : Nat) : Nat × Nat := (max a b, min (a + n) (b + m) - max a b)

/-- The local members. -/
def Comm.locals (c : Comm) : List Nat := lrange c.firstLocal c.localCount

/-- The children still served. -/
def Comm.live (c : Comm) : List Child := c.children.filter (fun k => !k.lost)

/-- Whether a child's subtree holds a member. -/
def Child.holds (k : Child) (m : Nat) : Bool := decide (k.first ≤ m) && decide (m < k.first + k.count)

/-- Whether a member is local. -/
def Comm.isLocal (c : Comm) (m : Nat) : Bool := decide (c.firstLocal ≤ m) && decide (m < c.firstLocal + c.localCount)

/-- The local members that contribute to a unit, with the elements each gives. -/
def CollOp.givers (o : CollOp) (c : Comm) (u : CUnit) : List (Nat × Nat × Nat) :=
  if o.reduces then c.locals.map (fun m => (m, u.lo, u.n))
  else if o.opcode = 0x82 then (c.locals.filter (fun m => m == o.rootMember)).map (fun m => (m, u.lo, u.n))
  else if u.owner = c.ringPos then
    (c.locals.map (fun m => (m, meet u.lo u.n (o.slice c m).1 (o.slice c m).2))).filter (fun p => decide (0 < p.2.2))
  else []

/-- The edges whose partial sum or data a unit awaits (R280). DESIGN CHOICE: in a BROADCAST a node whose subtree does not hold ROOT sends
up a chunk header with no data, so that no result goes down to a node that has not admitted the operation (R270, log entry 157). -/
def CollOp.feeders (o : CollOp) (c : Comm) (u : CUnit) : List Nat :=
  if o.ring then (if o.reduces ∧ c.ringPos ≠ (u.owner + 1) % max 1 c.ringNodes then [c.ringPrev] else [])
  else c.live.map (fun k => k.conn)

/-- This node completes the unit: the tree root, or the owner (R273). -/
def CollOp.final (o : CollOp) (c : Comm) (u : CUnit) : Bool := if o.ring then u.owner == c.ringPos else c.root

/-- This node gets the unit's result. -/
def CollOp.gets (o : CollOp) (c : Comm) (u : CUnit) : Bool :=
  o.final c u || !o.ring || o.opcode == 0x80 || o.opcode == 0x84

/-- The local members whose output a unit's result reaches, with the elements of each (R262). -/
def CollOp.takers (o : CollOp) (c : Comm) (u : CUnit) : List (Nat × Nat × Nat) :=
  let all :=
    if o.opcode = 0x81 then (c.locals.filter (fun m => m == o.rootMember && c.root)).map (fun m => (m, u.lo, u.n))
    else if o.opcode = 0x83 then
      (if u.owner = c.ringPos then c.locals.map (fun m => (m, meet u.lo u.n (o.slice c m).1 (o.slice c m).2)) else [])
    else c.locals.map (fun m => (m, u.lo, u.n))
  all.filter (fun p => decide (0 < p.2.2) && o.entries.any (fun e => e.member == p.1 && leAt e.ent 36 4 != 0))

/-- Where the result goes next: live children, or the successor unless it owns the unit (R280). -/
def CollOp.downEdges (o : CollOp) (c : Comm) (u : CUnit) : List Nat :=
  if o.ring then
    (if (o.opcode = 0x80 ∨ o.opcode = 0x84) ∧ (c.ringPos + 1) % max 1 c.ringNodes ≠ u.owner then [c.ringNext] else [])
  else c.live.map (fun k => k.conn)

/-- Where partial sums go. -/
def CollOp.upEdge (o : CollOp) (c : Comm) : Nat := if o.ring then c.ringNext else c.parent

/-- Where grants go (R270). -/
def CollOp.grantEdges (o : CollOp) (c : Comm) : List Nat := if o.ring then [c.ringPrev] else c.live.map (fun k => k.conn)

/-- AUX of its entries but for REPAIRED. Nothing carries CLIPPED, NAN_SEEN and OVERFLOW of one segment of a REDUCE_SCATTER to the nodes of
the others, while R266 has the flags be the same at every member: those that this node does not see are a free value (log entry 155). -/
def CollOp.aux (o : CollOp) : Nat :=
  let may := if o.grid then 7 else if o.fast then 4 else 0
  if o.opcode = 0x83 then o.flags ||| ((Config.freeWord o.auxUse).toNat &&& may) else o.flags

/-! ### The operations of a function -/

/-- The operation of a GSEQ. -/
def State.collOp (s : State) (f : FuncId) (g : Nat) : Option CollOp := (s.func f).ops.find? (fun o => o.gseq == g)

/-- Changes an operation. -/
def State.modOp (s : State) (f : FuncId) (g : Nat) (h : CollOp → CollOp) : State :=
  s.modFunc f (fun v => { v with ops := v.ops.map (fun o => if o.gseq = g then h o else o) })

/-- Changes a slot of an operation. -/
def State.modSlot (s : State) (f : FuncId) (g key : Nat) (h : Slot → Slot) : State :=
  s.modOp f g (fun o => { o with slots := tmod o.slots key h })

/-- Changes a communicator. -/
def State.modComm (s : State) (f : FuncId) (n : Nat) (h : Comm → Comm) : State :=
  s.modFunc f (fun v => { v with comms := tmod v.comms n h })

/-- Reduction slots that a function's operations in flight hold (R268). -/
def Func.heldSlots (v : Func) : Nat := ((v.ops.filter (fun o => o.admitted)).map (fun o => o.slotSet)).sum

/-- Free reduction slots of a function: of its share, and no more than the module has left where granules of the reduction memory are
fallow (R269, R391). -/
def State.freeSlots (s : State) (f : FuncId) : Nat :=
  let mine := s.share f 13 - (s.func f).heldSlots
  if s.mem.fallow.isEmpty then mine
  else min mine (s.mem.layout.slots - s.mem.slotsLost - (allFuncs.map (fun g => (s.func g).heldSlots)).sum)

/-- An empty slot. -/
def Slot.fresh (chunk : Nat) : Slot where
  chunk := chunk
  acc := []
  clip := 0
  nan := 0
  contrib := 0
  gotMembers := []
  gotEdges := []
  gather := []
  sentUp := false
  sentDown := false
  result := none
  checksum := 0
  overflow := false
  read := none
  placed := []
  failed := 0
  matched := false
  reports := []
  matchedSum := 0
  prunedSum := 0
  reported := false

/-! ### Packets (R258, R278, R279) -/

/-- Puts a collective packet on an edge: TYPE, KEY and OFFSET, FIRST and LAST, its payload or where its data lies. -/
def State.collPacket (s : State) (edge type key off flags : Nat) (payload : Bytes) (src : Option CollSrc) : State :=
  match s.conn edge with
  | none => s
  | some c =>
    if c.state != .ready then s
    else s.modTx edge (fun t => { t with coll := t.coll ++ [⟨s.nativeFrame edge c 0 0 type flags 0 key off none none payload, src⟩] })

/-- A packet that carries no data of a chunk. -/
def State.collControl (s : State) (edge type gseq off : Nat) (payload : Bytes) : State :=
  s.collPacket edge type gseq off 0x30 payload none

/-- Sends the chunk header and `len` bytes of a unit, cut into packets, from its slot (R25, R278, R279). -/
def State.collData (s : State) (edge type : Nat) (f : FuncId) (gseq key chunk off len : Nat) : State :=
  match s.conn edge with
  | none => s
  | some c =>
    let m := c.pmtuBytes
    let all := 24 + len
    let k := c.packets all
    forEach (List.range k) s (fun st i =>
      st.collPacket edge type gseq (chunk * 2 ^ 32 + (if i = 0 then off else off + i * m - 24))
        (flagBit 5 (i == 0) + flagBit 4 (i + 1 == k)) [] (some ⟨f, gseq, key, i * m, min m (all - i * m)⟩))

/-- The chunk header (R279). -/
def chunkHeader (clip nan contrib : Nat) (ovf : Bool) (checksum : Nat) : Bytes :=
  beBytes 4 clip ++ beBytes 4 nan ++ beBytes 4 contrib ++ beBytes 4 (b2n ovf) ++ beBytes 8 checksum

/-- A two's-complement number of `w` bytes, big-endian on the wire (R278). -/
def intBytes (w : Nat) (v : Int) : Bytes := beBytes w (v % 2 ^ (8 * w)).toNat

/-- Reads a two's-complement number. -/
def bytesInt (b : Bytes) : Int :=
  let n := beNat b
  if n ≥ 2 ^ (8 * b.length - 1) ∧ 0 < b.length then (n : Int) - 2 ^ (8 * b.length) else n

/-- Bytes cut into pieces of `w`. -/
def pieces (w : Nat) (b : Bytes) : List Bytes := (List.range (b.length / max 1 w)).map (fun i => (b.drop (i * w)).take w)

/-- The accumulators of a slot as COLL_UP carries them, each value big-endian (R278). -/
def CollOp.accBytes (o : CollOp) (acc : List Int) : Bytes :=
  if o.grid then acc.flatMap (intBytes 20)
  else if o.fast then acc.flatMap (fun v => beBytes 4 v.toNat)
  else acc.flatMap (fun v => beBytes (dtSize o.dtIn) v.toNat)

/-- Result bytes between memory order and the order of the wire, element by element (R8, R278, R281). -/
def CollOp.swapResult (o : CollOp) (b : Bytes) : Bytes := (pieces (dtSize o.dtOut) b).flatMap List.reverse

/-- What a slot sends: its chunk header and its accumulators in a COLL_UP, its result in a COLL_DOWN (R279, R280). -/
def CollOp.slotBytes (o : CollOp) (up : Bool) (sl : Slot) : Bytes :=
  if up then chunkHeader sl.clip sl.nan sl.contrib false 0 ++ o.accBytes sl.acc
  else chunkHeader sl.clip sl.nan 0 sl.overflow sl.checksum ++ o.swapResult (sl.result.getD [])

/-- The payload of a collective packet: its data is read from the slot; once the slot is freed, it is a free value (R22, R25, R258). -/
def State.collBytes (s : State) (t : CollPkt) : State × Bytes :=
  match t.src with
  | none => (s, t.fr.payload)
  | some q => match ((s.func q.func).ops.find? (fun o => o.gseq == q.gseq)).bind (fun o => (tget o.slots q.unit).map (fun sl => (o, sl))) with
    | some (o, sl) => (s, ((o.slotBytes (t.fr.type == 0x40) sl).drop q.start).take q.len)
    | none =>
      let (u, s1) := s.fresh
      (s1, (List.range q.len).map (fun i => Config.freeByte u i))

/-- The accumulators that COLL_UP brings. -/
def CollOp.accOf (o : CollOp) (b : Bytes) : List Int :=
  if o.grid then (pieces 20 b).map bytesInt
  else if o.fast then (pieces 4 b).map (fun x => (beNat x : Int))
  else (pieces (dtSize o.dtIn) b).map (fun x => (beNat x : Int))

/-! ### Sums (R271 to R277) -/

/-- Adds `b` to accumulators, which are empty before the first. -/
def CollOp.combine (o : CollOp) (a b : List Int) : List Int :=
  if a.isEmpty then b
  else if o.grid then List.zipWith (· + ·) a b
  else if o.fast then List.zipWith (fun x y => (addFp32 x.toNat y.toNat : Int)) a b
  else if o.reduces then List.zipWith (fun x y => (extremum (dtFmt o.dtIn) (o.redop == 1) x.toNat y.toNat : Int)) a b
  else if b.isEmpty then a else b

/-- A member's input as summands, with the counts of clipped and NaN elements (R271, R276, R277). -/
def CollOp.summands (o : CollOp) (bytes : Bytes) : List Int × Nat × Nat :=
  let xs := (pieces (dtSize o.dtIn) bytes).map leNat
  let f := dtFmt o.dtIn
  if o.grid then
    let q := xs.map (fun x => gridOf o.scale (decodeF f x))
    (q.map (fun v => v.1), (q.filter (fun v => v.2.1)).length, (q.filter (fun v => v.2.2.1)).length)
  else if o.fast then (xs.map (fun x => ((ieeeNear .fp32 (decodeF f x)).1 : Int)), 0, 0)
  else (xs.map Int.ofNat, 0, 0)

/-- Rounds a unit's sums once into DTYPE_OUT, and whether a result overflowed (R273, R274, R276). -/
def CollOp.round (o : CollOp) (c : Comm) (u : CUnit) (acc : List Int) : Bytes × Bool :=
  let f := dtFmt o.dtOut
  let w := dtSize o.dtOut
  let one := fun (p : Int × Nat) =>
    if o.grid then
      let i := u.lo + p.2
      let mode := if o.flag 2 then Mode.sr (philox c.tag.toNat o.gseq (i % 2 ^ 32) (i / 2 ^ 32) 0 0) else Mode.rne
      gridRound f mode o.scale p.1
    else if o.fast then
      ieeeNear f (decodeF .fp32 p.1.toNat)
    else (p.1.toNat, false)
  let rs := acc.zipIdx.map one
  (rs.flatMap (fun r => leBytes w r.1), rs.any (fun r => r.2))

/-- floor(log2) of the finite nonzero elements, at their largest: −32,768 where there is none (R275). -/
def CollOp.emaxOf (o : CollOp) (bytes : Bytes) : Int :=
  (((pieces (dtSize o.dtIn) bytes).map leNat).filterMap (fun x => match decodeF (dtFmt o.dtIn) x with
    | .fin _ m e => if m = 0 then none else some (flog2 m e)
    | .inf _ => none
    | .nan => none)).foldl max (-32768)

/-! ### Completion and loss (R261, R266, R286 to R288) -/

/-- Finishes a member's entry, once: BYTES is 0 unless STATUS is OK, and AUX has REPAIRED where a chunk placed for it was replaced
(R266). -/
def State.finishEntry (s : State) (f : FuncId) (g : Nat) (e : CollEntry) (status bytes aux : Nat) : State :=
  if e.finished then s
  else
    let st := if e.status = stOk then status else e.status
    let rep := match s.collOp f g with
      | some o => o.entries.any (fun v => v.member == e.member && v.repaired)
      | none => false
    let s1 := s.modOp f g (fun o => { o with entries := o.entries.map (fun v =>
      if v.member = e.member then { v with finished := true } else v) })
    (s1.modJob f e.ring e.slot (fun j => { j with
      bytes := if st = stOk then bytes else 0, aux := aux + 32 * b2n rep })).finishJob f e.ring e.slot st

/-- Drops the transfers of an operation. -/
def State.dropCollXfers (s : State) (f : FuncId) (g : Nat) : State :=
  let ids := (s.xfers.filter (fun (q : Nat × Xfer) => match q.2.purpose with
    | .collIn h k _ _ => h == f && k == g
    | .collOut h k _ _ => h == f && k == g
    | .collSlot h k _ => h == f && k == g
    | _ => false)).map Prod.fst
  forEach ids s (fun st x => st.dropXfer x)

/-- Takes an operation out: its slots return to the share. -/
def State.removeOp (s : State) (f : FuncId) (g : Nat) : State :=
  let s1 := s.dropCollXfers f g
  match s1.collOp f g with
  | none => s1
  | some o => (s1.modFunc f (fun v => { v with ops := v.ops.filter (fun x => x.gseq != g) })).modComm f o.comm (fun c =>
      { c with grants := tdel c.grants g })

/-- Aborts an operation at this node: TRANSPORT_ERROR with MEMBER_LOST (R286). -/
def State.abortOp (s : State) (f : FuncId) (g : Nat) : State :=
  match s.collOp f g with
  | none => s
  | some o => (forEach o.entries s (fun st e => st.finishEntry f g e stTransport 0 16)).removeOp f g

/-- Posts a MEMBERSHIP record (R288). -/
def State.membership (s : State) (f : FuncId) (cm gseq reason first count : Nat) : State :=
  s.post f 0x0005 0 (leBytes 4 cm ++ leBytes 4 gseq ++ leBytes 1 reason ++ zeros 3 ++ leBytes 4 first ++ leBytes 4 count)

/-- A communicator becomes DEGRADED by a lost range, with its fault and its record (R261, R286, R287, R439). -/
def State.degradeComm (s : State) (f : FuncId) (cm gseq reason first count : Nat) : State :=
  ((s.modComm f cm (fun c => { c with degraded := true, pruned := c.pruned + count })).fault 6 1 (some f) cm 0 0).membership f cm gseq
    reason first count

/-- A communicator becomes DEGRADED by a loss of which this node knows only that `lost` members among the `count` from `first` on are
gone: the packets of the manual carry neither the reason nor the range, which are free values (R287, log entry 2). -/
def State.noteLoss (s : State) (f : FuncId) (cm gseq first count lost : Nat) : State :=
  let (u, s1) := s.fresh
  let (v, s2) := s1.fresh
  s2.degradeComm f cm gseq (1 + (Config.freeWord u).toNat % 4) (first + (Config.freeWord v).toNat % (count - lost + 1)) lost

/-- The bytes of a COLL_SEAL (R278). -/
def sealBytes (matched pruned : Nat) (abort prunedFlag : Bool) : Bytes :=
  beBytes 4 matched ++ beBytes 4 pruned ++ beBytes 4 (b2n abort + 2 * b2n prunedFlag) ++ zeros 4

/-- The bytes of a COLL_REPORT (R278). -/
def reportBytes (matched pruned lost : Nat) : Bytes := beBytes 4 matched ++ beBytes 4 pruned ++ beBytes 4 lost ++ zeros 4

/-- The members of a node's subtree: (first, count). -/
def Comm.subtree (c : Comm) : Nat × Nat :=
  let lo := (c.children.map (fun k => k.first)).foldl min c.firstLocal
  (lo, (c.children.map (fun k => k.count)).sum + c.localCount)

/-- Members of a node's subtree that it knows to be lost or pruned. -/
def Comm.goneBelow (c : Comm) : Nat :=
  if c.cut then c.subtree.2 else (c.children.map (fun k => if k.lost then k.count else k.gone)).sum

/-- Sends COLL_SEAL with ABORT to the children, or on along the ring; its PRUNED counts every member known to be lost, so that each node
sees which ranges are new to it (R286, R287). -/
def State.sendAbort (s : State) (f : FuncId) (cm : Nat) (ring : Bool) (gseq count : Nat) : State :=
  match s.comm f cm with
  | none => s
  | some c =>
    let edges := if ring then [c.ringNext] else c.live.map (fun k => k.conn)
    let s1 := if ring then s.modComm f cm (fun v => { v with aborted := linsert v.aborted gseq }) else s
    forEach edges s1 (fun st e => st.collControl e 0x43 gseq 0 (sealBytes 0 (max count c.pruned) true false))

/-- A subtree of `count` members is lost from an operation that needs it: LOST upward, with all that the node's subtree has lost, or the
abort itself at the root and on a ring (R286). -/
def State.collLost (s : State) (f : FuncId) (cm : Nat) (ring : Bool) (g count : Nat) : State :=
  match s.comm f cm with
  | none => s
  | some c =>
    if ring ∨ c.root then (s.sendAbort f cm ring g count).abortOp f g
    else s.collControl c.parent 0x42 g 0 (reportBytes 0 0 (max count c.goneBelow))

/-- This node treats its own subtree, on a ring its own members, as lost: recorded once, and told for the operation (R265, R284, R287). -/
def State.loseSelf (s : State) (f : FuncId) (cm : Nat) (ring : Bool) (g reason : Nat) : State :=
  match s.comm f cm with
  | none => s
  | some c =>
    let t := if ring then (c.firstLocal, c.localCount) else c.subtree
    let s1 := if c.cut then s else (s.degradeComm f cm g reason t.1 t.2).modComm f cm (fun v => { v with cut := true })
    s1.collLost f cm ring g t.2

/-- Some chunk still lacks what a child's subtree gives (R286). -/
def CollOp.lacks (o : CollOp) (c : Comm) (k : Child) : Bool :=
  let needs := o.reduces || (o.opcode == 0x82 && k.holds o.rootMember)
  needs && (List.range o.chunks).any (fun ch => !o.doneChunks.contains ch &&
    (match tget o.slots (o.unit c ch).key with
      | some sl => !sl.gotEdges.contains k.conn && !sl.sentUp && sl.result.isNone
      | none => true))

/-! ### Launch and admission (R265, R268, R269) -/

/-- Slot set of an operation: min(PIPELINE, chunks, share) (R268). -/
def State.slotSetOf (s : State) (f : FuncId) (o : CollOp) : Nat := min (min o.pipeline o.chunks) (s.share f 13)

/-- Admits an operation: its slot set is taken and LAST_GSEQ becomes its GSEQ (R269). -/
def State.admitOp (s : State) (f : FuncId) (o : CollOp) : State :=
  let s1 := s.traceRecord (dieOf f) f 0x02 o.comm o.prev o.gseq (s.time - o.launchedAt)
  let (u, s2) := s1.fresh
  (s2.modFunc f (fun v => { v with lastGseq := o.gseq })).modOp f o.gseq (fun v => { v with
    admitted := true, slotSet := s.slotSetOf f o, scaleDone := !v.scales, auxUse := u
    scale := if v.scales then v.scale else v.scaleField })

/-! ### The work of a node on an operation -/

/-- Starts the read of a member's input, or fails it at once when R86 forbids it. -/
def State.collRead (s : State) (f : FuncId) (g : Nat) (e : CollEntry) (key off len : Nat) : State :=
  let k : Word32 := BitVec.ofNat 32 (leAt e.ent 32 4)
  let p : Purpose := .collIn f g e.member key
  if (s.accessOk f k accLocalRead off len).isSome then s.startRead f k off len p
  else { s with agenda := s.agenda ++ [(p, .gone)] }

/-- Starts the placement of a member's output, or fails it at once. -/
def State.collWrite (s : State) (f : FuncId) (g : Nat) (e : CollEntry) (key off : Nat) (data : Bytes) : State :=
  let k : Word32 := BitVec.ofNat 32 (leAt e.ent 36 4)
  let p : Purpose := .collOut f g e.member key
  if (s.accessOk f k accLocalWrite off data.length).isSome then s.startWrite f k off data p
  else { s with agenda := s.agenda ++ [(p, .gone)] }

/-- The entry of a member. -/
def CollOp.entry (o : CollOp) (m : Nat) : Option CollEntry := o.entries.find? (fun e => e.member == m)

/-- CHUNK_LIMIT received for an operation (R270). -/
def Comm.limit (c : Comm) (g : Nat) : Nat := tgetD c.grants g 0

/-- Sets the scale of a finished pass and passes it on (R275). -/
def State.scaleFinish (s : State) (f : FuncId) (o : CollOp) (c : Comm) (emax : Int) : State :=
  let sc : Int := if emax = -32768 then 0 else max (-256) (min 255 (emax - 18))
  let s1 := s.modOp f o.gseq (fun v => { v with scaleDone := true, emax := emax, scale := sc })
  if o.ring then s1
  else forEach c.live s1 (fun st k => st.collControl k.conn 0x41 o.gseq (0xFFFFFFFF * 2 ^ 32) (intBytes 2 emax ++ zeros 6))

/-- The scale pass goes as far as it can: local inputs are read, then EMAX goes up the tree, or once round the ring as a
running maximum (R275). -/
def State.scaleStep (s : State) (f : FuncId) (g : Nat) : State :=
  match s.collOp f g with
  | none => s
  | some o => match s.comm f o.comm with
    | none => s
    | some c =>
      if !o.admitted || o.scaleDone then s
      else
        let todo := o.entries.filter (fun e => !o.scaleGot.contains e.member && !s.inFlight (.collIn f g e.member 0xFFFFFFFF))
        let s1 := forEach todo s (fun st e => st.collRead f g e 0xFFFFFFFF (leAt e.ent 40 8) (o.count * dtSize o.dtIn))
        if o.scaleGot.length < c.localCount then s1
        else if o.ring then
          let n := c.ringNodes - 1
          let due := min n (o.scaleIn + 1)
          let s2 := if c.limit g = 0 then s1
            else (forEach (List.range (due - o.scaleOut)) s1 (fun st _ =>
              st.collControl c.ringNext 0x40 g (0xFFFFFFFF * 2 ^ 32) (intBytes 2 o.emax ++ zeros 6))).modOp f g (fun v =>
                { v with scaleOut := max v.scaleOut due })
          if o.scaleIn ≥ n then s2.scaleFinish f o c o.emax else s2
        else if c.live.all (fun k => o.scaleEdges.contains k.conn) then
          if c.root then s1.scaleFinish f o c o.emax
          else if o.scaleOut = 0 ∧ c.limit g > 0 then
            (s1.collControl c.parent 0x40 g (0xFFFFFFFF * 2 ^ 32) (intBytes 2 o.emax ++ zeros 6)).modOp f g (fun v =>
              { v with scaleOut := 1 })
          else s1
        else s1

/-- Sends COLL_GRANT with the chunks that the slot set now lets the node hold (R270). -/
def State.grantChunks (s : State) (f : FuncId) (g : Nat) (c : Comm) : State :=
  match s.collOp f g with
  | none => s
  | some o =>
    let lim := min o.chunks (o.doneChunks.length + o.slotSet)
    (forEach (o.grantEdges c) s (fun st e => st.collControl e 0x45 g 0 (beBytes 4 lim ++ zeros 4))).modOp f g (fun v => { v with granted := lim })

/-- Begins the chunks that the slot set allows; the first grant goes to the children and the ring predecessor at admission (R268,
R270). -/
def State.beginChunks (s : State) (f : FuncId) (g : Nat) : State :=
  match s.collOp f g with
  | none => s
  | some o => match s.comm f o.comm with
    | none => s
    | some c =>
      if !o.admitted then s
      else
        let lim := min o.chunks (o.doneChunks.length + o.slotSet)
        let s1 := if lim > o.granted then s.grantChunks f g c else s
        if !o.scaleDone then s1
        else
          let new := (lrange o.nextChunk (lim - o.nextChunk)).flatMap (fun ch => o.unitsOf c ch)
          let s2 := s1.modOp f g (fun v => { v with
            nextChunk := max v.nextChunk lim
            slots := new.foldl (fun t u => if thas t u.key then t else tset t u.key (Slot.fresh u.chunk)) v.slots })
          forEach new s2 (fun st u => forEach (o.givers c u) st (fun w p => match o.entry p.1 with
            | none => w
            | some e =>
              let sz := dtSize o.dtIn
              let base := if o.opcode = 0x84 then (o.slice c p.1).1 else 0
              w.collRead f g e u.key (leAt e.ent 40 8 + (p.2.1 - base) * sz) (p.2.2 * sz)))

/-- The AUX flags that a unit's partial sum or result gives (R266). -/
def Slot.auxFlags (sl : Slot) : Nat := b2n (decide (0 < sl.clip)) + 2 * b2n (decide (0 < sl.nan)) + 4 * b2n sl.overflow

/-- The contributions a unit awaits are all here: the node rounds it, or sends the partial sum on (R270, R273, R279,
R280). -/
def State.completeUnit (s : State) (f : FuncId) (g key : Nat) : State :=
  match s.collOp f g with
  | none => s
  | some o => match s.comm f o.comm, tget o.slots key with
    | some c, some sl =>
      let u := o.unit c key
      let gives := o.givers c u
      let feeds := o.feeders c u
      if sl.sentUp || sl.result.isSome || sl.failed > 0 || (o.ring && gives.isEmpty && feeds.isEmpty) ||
          !(gives.all (fun p => sl.gotMembers.contains p.1) && feeds.all (fun e => sl.gotEdges.contains e)) then s
      else if o.final c u then
        if o.reduces && sl.contrib != c.members && sl.contrib != c.members - c.pruned then
          s.collLost f o.comm o.ring g (c.members - sl.contrib)
        else
          let r := o.round c u sl.acc
          s.modSlot f g key (fun v => { v with result := some r.1, overflow := r.2, checksum := crc64 r.1 })
      else if c.limit g > u.chunk then
        ((s.collData (o.upEdge c) 0x40 f g key u.chunk ((u.lo - u.chunk * o.perChunk) * o.accSize) (o.accBytes sl.acc).length).modSlot f g key (fun v =>
          { v with sentUp := true })).modOp f g (fun v => { v with flags := v.flags ||| sl.auxFlags })
      else s
    | _, _ => s

/-- Reads a unit's result from its reduction slot, for the local placements: the blocks of the slot were written whole when the result came
in. Which slot of the die's half it is, the manual leaves to the module (R268, R282, R284, R340, log entry 17). -/
def State.readSlot (s : State) (f : FuncId) (g key : Nat) (r : Bytes) : State :=
  if s.inFlight (.collSlot f g key) then s
  else
    let a := s.mem.slotAddr (dieOf f).val (Config.slotPlace f.val g key)
    let (id, s1) := (s.unpoison a r.length).newId
    let t : Xfer := ⟨f, slotMemory, [], false, [], .collSlot f g key, .issued, [⟨false, a, r.length, 0, false, r⟩], linkOf f, false, [], id, false⟩
    { s1 with xfers := tset s1.xfers id t }.fabXfer t

/-- A unit's result is sent on from its slot, read from there, and placed for the local members (R280, R282, R284). -/
def State.spreadUnit (s : State) (f : FuncId) (g key : Nat) : State :=
  match s.collOp f g with
  | none => s
  | some o => match s.comm f o.comm, tget o.slots key with
    | some c, some sl => match sl.result with
      | none => s
      | some r =>
        let u := o.unit c key
        let size := dtSize o.dtOut
        let may := !o.ring || decide (c.limit g > u.chunk)
        let s1 := if sl.sentDown || !may then s
          else
            (forEach (o.downEdges c u) s (fun st e =>
              st.collData e 0x41 f g key u.chunk ((u.lo - u.chunk * o.perChunk) * size) r.length)).modSlot f g key (fun v => { v with sentDown := true })
        let s2 := s1.modOp f g (fun v => { v with flags := v.flags ||| sl.auxFlags })
        if sl.matched || (o.takers c u).isEmpty then s2
        else if sl.read.isNone && !r.isEmpty then s2.readSlot f g key r
        else forEach ((o.takers c u).filter (fun p => !sl.placed.contains p.1 && !s.inFlight (.collOut f g p.1 key))) s2
          (fun st p => match o.entry p.1 with
            | none => st
            | some e =>
              let base := if o.opcode = 0x83 then (o.slice c p.1).1 else 0
              st.collWrite f g e key (leAt e.args 4 8 + (p.2.1 - base) * size) (((sl.read.getD r).drop ((p.2.1 - u.lo) * size)).take (p.2.2 * size)))
    | _, _ => s

/-- A comparison that failed, or a slot that could not be read: the unit's result is asked for again, and at the third time the node's own
part is lost. So it is at the first at a node that rounded the result itself, which has no other copy: DESIGN CHOICE, R284 speaks of the
parent's (R284, log entry 18). -/
def State.repairUnit (s : State) (f : FuncId) (g key : Nat) (o : CollOp) (c : Comm) (sl : Slot) : State :=
  let u := o.unit c key
  if sl.failed + 1 ≥ 3 ∨ o.final c u then
    (s.modSlot f g key (fun v => { v with failed := max 3 (v.failed + 1) })).loseSelf f o.comm o.ring g 3
  else
    (s.modSlot f g key (fun v => { v with failed := v.failed + 1, result := none, read := none, placed := [], gather := [] })).collControl
      (if o.ring then c.ringPrev else c.parent) 0x44 g
      (u.chunk * 2 ^ 32 + (u.lo - u.chunk * o.perChunk) * dtSize o.dtOut) []

/-- Every local placement of a unit is flushed: the comparison (R282, R284). A unit whose result this node does not get counts
as matched once its partial sum is sent. -/
def State.compareUnit (s : State) (f : FuncId) (g key : Nat) : State :=
  match s.collOp f g with
  | none => s
  | some o => match s.comm f o.comm, tget o.slots key with
    | some c, some sl =>
      let u := o.unit c key
      if sl.matched || decide (sl.failed ≥ 3) then s
      else if !o.gets c u then (if sl.sentUp then s.modSlot f g key (fun v => { v with matched := true }) else s)
      else match sl.result with
        | none => s
        | some r =>
          if !(o.takers c u).all (fun p => sl.placed.contains p.1) then s
          else if crc64 (sl.read.getD r) = sl.checksum then
            let s1 := s.modSlot f g key (fun v => { v with matched := true })
            if sl.failed = 0 then s1
            else
              let s2 := s1.modOp f g (fun v => { v with entries := v.entries.map (fun (e : CollEntry) =>
                if (o.takers c u).any (fun p => p.1 == e.member) then { e with repaired := true } else e) })
              if o.flag 0 then forEach (o.takers c u) s2 (fun st p =>
                st.post f 0x0006 0 (leBytes 4 o.comm ++ leBytes 4 g ++ leBytes 4 p.1 ++ zeros 4 ++ leBytes 8 p.2.1 ++ leBytes 4 p.2.2))
              else s2
          else s.repairUnit f g key o c sl
    | _, _ => s

/-- Every unit of a chunk is matched at this node. -/
def CollOp.chunkMatched (o : CollOp) (c : Comm) (ch : Nat) : Bool :=
  (o.unitsOf c ch).all (fun u => match tget o.slots u.key with
    | some sl => sl.matched
    | none => false)

/-- Frees a chunk's slots, with a new grant (R270, R283). -/
def State.freeChunk (s : State) (f : FuncId) (g : Nat) (c : Comm) (ch : Nat) : State :=
  (s.modOp f g (fun o => { o with
    doneChunks := linsert o.doneChunks ch
    doneAt := tset o.doneAt ch s.time
    slots := (o.unitsOf c ch).foldl (fun t u => tdel t u.key) o.slots })).grantChunks f g c

/-- Reports a matched chunk of a tree once every child has; the root frees it (R283, R286). On a ring position 0 starts the
chunk's token and the others pass it on. -/
def State.reportChunk (s : State) (f : FuncId) (g ch : Nat) : State :=
  match s.collOp f g with
  | none => s
  | some o => match s.comm f o.comm with
    | none => s
    | some c =>
      if !o.chunkMatched c ch then s
      else if o.ring then
        if c.ringPos = 0 then
          if thas o.tokens ch then s
          else
            (s.collControl c.ringNext 0x42 g (ch * 2 ^ 32) (reportBytes c.localCount 0 0)).modOp f g (fun v =>
              { v with tokens := tset v.tokens ch 0 })
        else match tget o.tokens ch with
          | none => s
          | some m =>
            (s.collControl c.ringNext 0x42 g (ch * 2 ^ 32) (reportBytes (m + c.localCount) 0 0)).modOp f g (fun v =>
              { v with tokens := tdel v.tokens ch })
      else match tget o.slots ch with
        | none => s
        | some sl =>
          if sl.reported || !c.live.all (fun k => sl.reports.contains k.conn) then s
          else
            let gone := ((c.children.filter (fun k => k.lost && !sl.reports.contains k.conn)).map (fun k => k.count)).sum
            let m := sl.matchedSum + c.localCount
            let p := sl.prunedSum + gone
            let s1 := s.modOp f g (fun v => { v with flags := v.flags ||| (if p > 0 then 8 else 0), prunedOf := max v.prunedOf p })
            if c.root then (if m + p = c.members then s1.freeChunk f g c ch else s)
            else (s1.collControl c.parent 0x42 g (ch * 2 ^ 32) (reportBytes m p 0)).freeChunk f g c ch

/-- The seal of a chunk at this node; that of the last chunk completes the entries and the operation (R283). -/
def State.sealChunk (s : State) (f : FuncId) (g ch : Nat) : State :=
  match s.collOp f g with
  | none => s
  | some o => match s.comm f o.comm with
    | none => s
    | some c =>
      let s0 := s.traceRecord (dieOf f) f 0x03 o.comm ch g (s.time - tgetD o.doneAt ch s.time)
      let s1 := (if o.ring then s0.freeChunk f g c ch else s0).modOp f g (fun v => { v with sealed := linsert v.sealed ch })
      match s1.collOp f g with
      | none => s1
      | some o1 =>
        if o1.sealed.length < o1.chunks then s1
        else (forEach o1.entries s1 (fun st e => st.finishEntry f g e stOk (o1.outBytes c e) o1.aux)).removeOp f g

/-- The root seals its chunks in order as they are matched (R283). -/
def State.sealNext (fuel : Nat) (s : State) (f : FuncId) (g : Nat) : State :=
  match fuel with
  | 0 => s
  | k + 1 =>
    match s.collOp f g with
    | none => s
    | some o => match s.comm f o.comm with
      | none => s
      | some c =>
        let ch := o.sealed.length
        if o.ring || !c.root || !o.doneChunks.contains ch then s
        else
          let gone := o.prunedOf
          let s1 := forEach c.live s (fun st x => st.collControl x.conn 0x43 g (ch * 2 ^ 32)
            (sealBytes (c.members - gone) gone false (bit o.flags 3)))
          State.sealNext k (s1.sealChunk f g ch) f g

/-- With EARLY_RELEASE an entry completes once its whole output is placed and visible (R284). -/
def State.earlyRelease (s : State) (f : FuncId) (g : Nat) : State :=
  match s.collOp f g with
  | none => s
  | some o => match s.comm f o.comm with
    | none => s
    | some c =>
      if !o.flag 0 || !o.admitted || !o.scaleDone then s
      else
        let ready := fun (e : CollEntry) => (List.range o.chunks).all (fun ch => o.doneChunks.contains ch ||
          (o.unitsOf c ch).all (fun u => match tget o.slots u.key with
            | none => false
            | some sl => sl.matched || ((o.takers c u).any (fun p => p.1 == e.member) && sl.placed.contains e.member)))
        forEach (o.entries.filter (fun e => !e.finished && ready e)) s (fun st e => st.finishEntry f g e stOk (o.outBytes c e) o.aux)

/-- Everything that this node can do now for an operation; with EARLY_RELEASE entries complete before their chunks are compared (R284). -/
def State.collStep (s : State) (f : FuncId) (g : Nat) : State :=
  let s1 := (s.scaleStep f g).beginChunks f g
  let keys := match s1.collOp f g with
    | some o => tkeys o.slots
    | none => []
  let s2 := forEach keys ((forEach keys s1 (fun st k => (st.completeUnit f g k).spreadUnit f g k)).earlyRelease f g) (fun st k => st.compareUnit f g k)
  let chunks := (keys.map (fun k => match s2.collOp f g with
    | some o => if o.ring then k / 65536 else k
    | none => 0)).foldl linsert []
  let s3 := forEach chunks s2 (fun st ch => st.reportChunk f g ch)
  (State.sealNext (chunks.length + 1) (s3.earlyRelease f g) f g).beginChunks f g

/-- Admits operations in chain order while their slot sets are free, and works on each admitted (R269). -/
def State.admitN (fuel : Nat) (s : State) (f : FuncId) : State :=
  match fuel with
  | 0 => s
  | k + 1 =>
    match (s.func f).ops.find? (fun o => o.launched && !o.admitted && o.prev == (s.func f).lastGseq &&
        decide (s.slotSetOf f o ≤ s.freeSlots f)) with
    | none => s
    | some o => State.admitN k ((s.admitOp f o).collStep f o.gseq) f

/-- Runs the admission loop (R269). -/
def State.admitOps (s : State) (f : FuncId) : State := State.admitN ((s.func f).ops.length + 1) s f

/-- Works on every admitted operation of a function, then admits more. -/
def State.collPump (s : State) (f : FuncId) : State :=
  (forEach (((s.func f).ops.filter (fun o => o.admitted)).map (fun o => o.gseq)) s (fun st g => st.collStep f g)).admitOps f

/-! ### Launching entries (R261 to R266) -/

/-- The WAIT of a request: counter and threshold (R150). -/
def waitOf (exts : List Bytes) : Option (Nat × Nat) := (exts.find? (fun x => entOp x == 3)).map (fun x => (leAt x 4 2, leAt x 8 8))

/-- What the entries of one operation must share: every field but MEMBER, the keys and the offsets: OPCODE, FENCE and CQE, TRIGGER,
USER_DATA, communicator, sequence numbers, WAIT, and the arguments after OUT_OFFSET, without their reserved bits and bytes (R12, R102,
R103, R263 to R265). -/
def launchFields (e : CollEntry) : List Nat × Bytes × Option (Nat × Nat) :=
  let ctrl := leAt e.ent 1 1
  let trig := leAt e.ent 4 4
  ([entOp e.ent, bits ctrl 5 5, bits ctrl 2 2, bits trig 31 30, bits trig 15 0],
   (e.ent.drop 8).take 20 ++ (e.args.drop 12).take 12 ++ leBytes 1 (leAt e.args 24 1 % 16) ++ (e.args.drop 25).take 7, e.wait)

/-- Whether the fields of an entry are valid for its communicator (R262 to R264). -/
def launchBad (c : Comm) (ent args : Bytes) : Bool :=
  let op := entOp ent
  let ring := bit (leAt args 24 1) 3
  let cnt := leAt args 12 8
  let red := op == 0x80 || op == 0x81 || op == 0x83
  let sc := leAt args 26 2
  let root := leAt args 28 4
  cnt == 0 || cnt > 2 ^ 36 || leAt args 20 1 > 4 || leAt args 21 1 > 4 ||
  ((!red || leAt args 22 1 != 0) && leAt args 20 1 != leAt args 21 1) || (red && leAt args 22 1 > 2) || leAt args 23 1 > 1 ||
  leAt args 25 1 == 0 || leAt args 25 1 > 16 ||
  (!bit (leAt args 24 1) 1 && sc > 255 && sc < 65536 - 256) ||
  (if op == 0x81 || op == 0x82 then root ≥ c.members else root != 0) ||
  leAt ent 20 4 == 0 || !c.isLocal (leAt ent 28 4) ||
  (ring && (op == 0x81 || op == 0x82)) || (!ring && (op == 0x83 || op == 0x84)) ||
  ((op == 0x83 || op == 0x84) && cnt % max 1 c.members != 0) ||
  (if ring then c.ringNodes == 0 else !c.root && c.parent == 0) ||
  (op == 0x81 && (if c.root then !c.isLocal root else decide (c.subtree.1 ≤ root) && decide (root < c.subtree.1 + c.subtree.2)))

/-- An operation before its first entry. -/
def CollOp.fresh (cm g prev : Nat) (ent args : Bytes) : CollOp :=
  { comm := cm, gseq := g, prev := prev, entries := [], ent := ent, args := args, launched := false
    admitted := false, slotSet := 0, slots := [], nextChunk := 0, granted := 0, scaleDone := false, scaleGot := []
    scaleEdges := [], scaleIn := 0, scaleOut := 0, emax := -32768, scale := 0, doneChunks := [], sealed := []
    flags := 0, prunedOf := 0, tokens := [], launchedAt := 0, doneAt := [], auxUse := 0 }

/-- Launches a collective entry of a started request; a BROADCAST whose ROOT was lost with a child is lost as well: DESIGN CHOICE (R261,
R265, log entry 65). -/
def State.launch (s : State) (f : FuncId) (r : Nat) (j : Job) (args : Bytes) : State :=
  let cm := leAt j.ent 16 4
  let g := leAt j.ent 20 4
  let m := leAt j.ent 28 4
  match s.comm f cm with
  | none => s.finishJob f r j.slot stBadEntry
  | some c =>
    if launchBad c j.ent args then s.finishJob f r j.slot stBadEntry
    else if c.degraded ∧ entOp j.ent ≠ 0x82 then
      (s.modJob f r j.slot (fun v => { v with aux := 16 })).finishJob f r j.slot stTransport
    else
      let e : CollEntry := ⟨m, r, j.slot, j.ent, args, waitOf j.exts, stOk, false, false, s.time⟩
      let s1 := match s.collOp f g with
        | some _ => s
        | none => s.modFunc f (fun v => { v with ops := v.ops ++ [CollOp.fresh cm g (leAt j.ent 24 4) j.ent args] })
      match s1.collOp f g with
      | none => s1
      | some o =>
        if o.launched || o.entries.any (fun x => x.member == m) then s.finishJob f r j.slot stBadEntry
        else
          let s2 := (s1.modOp f g (fun v => { v with entries := v.entries ++ [e] })).modJob f r j.slot (fun v => { v with phase := .posted })
          if o.entries.length + 1 < c.localCount then s2
          else
            let all := o.entries ++ [e]
            if all.all (fun x => launchFields x == launchFields e) then
              let s3 := forEach all s2 (fun st x => st.traceRecord (dieOf f) f 0x01 cm x.member g (s.time - x.arrived))
              let s4 := (s3.modOp f g (fun v => { v with launched := true, launchedAt := s.time })).admitOps f
              match (if entOp j.ent = 0x82 then c.children.find? (fun k => k.lost && k.holds (leAt args 28 4)) else none) with
              | some k => s4.collLost f cm false g k.count
              | none => s4
            else
              let s3 := forEach all s2 (fun st x => st.finishEntry f g x stBadEntry 0 0)
              (s3.loseSelf f cm (bit (leAt args 24 1) 3) g 4).removeOp f g

/-! ### Transfers and packets that end -/

/-- A member's input has been read (R271, R275, R280, R284). -/
def State.collInDone (s : State) (f : FuncId) (g m key : Nat) (r : XResult) : State :=
  match s.collOp f g with
  | none => s
  | some o => match s.comm f o.comm with
    | none => s
    | some c =>
      match r with
      | .ok bytes =>
        let s1 :=
          if key = 0xFFFFFFFF then s.modOp f g (fun v => { v with scaleGot := linsert v.scaleGot m, emax := max v.emax (o.emaxOf bytes) })
          else
            let u := o.unit c key
            let q := o.summands bytes
            let part := if o.opcode = 0x84 then
                let lo := (meet u.lo u.n (o.slice c m).1 (o.slice c m).2).1
                fun (a : List Int) => (if a.isEmpty then List.replicate u.n 0 else a).take (lo - u.lo) ++ q.1 ++
                  (if a.isEmpty then List.replicate u.n 0 else a).drop (lo - u.lo + q.1.length)
              else fun (a : List Int) => o.combine a q.1
            s.modSlot f g key (fun v => { v with
              acc := part v.acc, clip := v.clip + q.2.1, nan := v.nan + q.2.2
              contrib := v.contrib + 1, gotMembers := linsert v.gotMembers m })
        s1.collPump f
      | _ =>
        let s1 := s.modOp f g (fun v => { v with entries := v.entries.map (fun (e : CollEntry) =>
          if e.member = m then { e with status := r.status } else e) })
        (s1.loseSelf f o.comm o.ring g 3).collPump f

/-- A member's output is placed and visible; a failed placement leaves its status to the entry (R266, R282). -/
def State.collOutDone (s : State) (f : FuncId) (g m key : Nat) (r : XResult) : State :=
  let s1 := match r with
    | .ok _ => s
    | _ => s.modOp f g (fun v => { v with entries := v.entries.map (fun (e : CollEntry) =>
        if e.member = m then { e with status := r.status } else e) })
  (s1.modSlot f g key (fun v => { v with placed := linsert v.placed m })).collPump f

/-- A unit's result has been read from its slot; one that could not be read is repaired (R284). -/
def State.collSlotDone (s : State) (f : FuncId) (g key : Nat) (r : XResult) : State :=
  match r with
  | .ok b => (s.modSlot f g key (fun v => { v with read := some b })).collPump f
  | _ => (match s.collOp f g with
    | none => s
    | some o => match s.comm f o.comm, tget o.slots key with
      | some c, some sl => (s.repairUnit f g key o c sl).collPump f
      | _, _ => s)

/-- The communicator of an edge. -/
def State.edgeComm (s : State) (n : Nat) : Option (Conn × Nat × Comm) :=
  match s.conn n with
  | none => none
  | some k => match k.edge with
    | none => none
    | some cm => match s.comm k.func cm with
      | none => none
      | some c => some (k, cm, c)

/-- COLL_UP or COLL_DOWN data is let in: the operation is admitted here and the chunk granted (R270). -/
def State.collAllowed (s : State) (n type gseq off : Nat) : Bool :=
  match s.edgeComm n with
  | none => false
  | some (k, _, _) =>
    if type ≥ 0x42 then true
    else match s.collOp k.func gseq with
      | none => false
      | some o => o.admitted && (decide (off / 2 ^ 32 = 0xFFFFFFFF) || decide (off / 2 ^ 32 < o.granted))

/-- Puts the payload of a COLL_UP or COLL_DOWN packet into its slot (R258). -/
def State.collGather (s : State) (n type gseq off : Nat) (first : Bool) (payload : Bytes) : State :=
  match s.edgeComm n with
  | none => s
  | some (k, _, c) => match s.collOp k.func gseq with
    | none => s
    | some o =>
      if off / 2 ^ 32 = 0xFFFFFFFF then s
      else
        let size := if type = 0x40 then o.accSize else dtSize o.dtOut
        let ch := off / 2 ^ 32
        let u := o.unitAt c ch (off % 2 ^ 32) size
        let at_ := if first then 0 else 24 + (off % 2 ^ 32 - (u.lo - ch * o.perChunk) * size)
        let put := fun (b : Bytes) => overlay (b ++ zeros (at_ - b.length)) at_ payload
        s.modSlot k.func gseq u.key (fun v => { v with gather := tset v.gather n (put (tgetD v.gather n [])) })

/-- COLL_UP wholly arrived: a partial sum, or EMAX of the scale pass (R275, R280). -/
def State.collUp (s : State) (n : Nat) (k : Conn) (c : Comm) (l : RxLast) : State :=
  match s.collOp k.func l.msg with
  | none => s
  | some o =>
    let ch := l.offset / 2 ^ 32
    if ch = 0xFFFFFFFF then
      let e := bytesInt (beBytes 2 (l.imm.getD 0 / 2 ^ 48))
      s.modOp k.func l.msg (fun v => { v with
        emax := max v.emax e, scaleIn := v.scaleIn + 1, scaleEdges := linsert v.scaleEdges n })
    else
      let u := o.unitAt c ch (l.offset % 2 ^ 32) o.accSize
      match tget o.slots u.key with
      | none => s
      | some sl =>
        let b := tgetD sl.gather n []
        s.modSlot k.func l.msg u.key (fun v => { v with
          acc := o.combine v.acc (o.accOf (b.drop 24)), clip := v.clip + beNat (b.take 4), nan := v.nan + beNat ((b.drop 4).take 4)
          contrib := v.contrib + beNat ((b.drop 8).take 4), gotEdges := linsert v.gotEdges n, gather := tdel v.gather n })

/-- COLL_DOWN wholly arrived: a result, or S of the scale pass (R275, R280). -/
def State.collDown (s : State) (n : Nat) (k : Conn) (c : Comm) (l : RxLast) : State :=
  match s.collOp k.func l.msg with
  | none => s
  | some o =>
    let ch := l.offset / 2 ^ 32
    if ch = 0xFFFFFFFF then s.scaleFinish k.func o c (bytesInt (beBytes 2 (l.imm.getD 0 / 2 ^ 48)))
    else
      let u := o.unitAt c ch (l.offset % 2 ^ 32) (dtSize o.dtOut)
      match tget o.slots u.key with
      | none => s
      | some sl =>
        let b := tgetD sl.gather n []
        if sl.result.isSome then s
        else s.modSlot k.func l.msg u.key (fun v => { v with
          result := some (o.swapResult (b.drop 24)), clip := beNat (b.take 4), nan := beNat ((b.drop 4).take 4)
          overflow := bit (beNat ((b.drop 12).take 4)) 0, checksum := beNat ((b.drop 16).take 8), gather := tdel v.gather n })

/-- A child tells of `n` members of its subtree lost or pruned: what is new of them. -/
def Child.newlyGone (x : Child) (n : Nat) : Nat := if x.lost then 0 else n - x.gone

/-- Notes how many members of a child's subtree are gone. -/
def State.noteGone (s : State) (f : FuncId) (cm edge n : Nat) : State :=
  s.modComm f cm (fun v => { v with children := v.children.map (fun x => if x.conn = edge then { x with gone := max x.gone n } else x) })

/-- COLL_REPORT: a child's totals, LOST, or a ring's token; the parent of a lost subtree, and the root, which gets no seal, post what is
lost or pruned when it is reported (R283, R286, R287). -/
def State.collReport (s : State) (n : Nat) (k : Conn) (cm : Nat) (c : Comm) (l : RxLast) : State :=
  let v := l.imm.getD 0
  let matched := v / 2 ^ 96
  let pruned := v / 2 ^ 64 % 2 ^ 32
  let lost := v / 2 ^ 32 % 2 ^ 32
  let ch := l.offset / 2 ^ 32
  let child := c.children.find? (fun x => x.conn == n)
  if lost > 0 then
    match child with
    | none => s
    | some x =>
      let s1 := if x.newlyGone lost > 0 ∧ (c.root ∨ x.count = lost) then s.noteLoss k.func cm l.msg x.first x.count (x.newlyGone lost) else s
      (s1.noteGone k.func cm n lost).collLost k.func cm false l.msg lost
  else match s.collOp k.func l.msg with
    | none => s
    | some o =>
      if o.ring then
        if c.ringPos = 0 then
          if matched + pruned = c.members then
            (s.collControl c.ringNext 0x43 l.msg (ch * 2 ^ 32) (sealBytes matched pruned false false)).sealChunk k.func l.msg ch
          else s
        else s.modOp k.func l.msg (fun w => { w with tokens := tset w.tokens ch matched })
      else
        let s1 := match child with
          | some x => if c.root ∧ x.newlyGone pruned > 0 then s.noteLoss k.func cm l.msg x.first x.count (x.newlyGone pruned) else s
          | none => s
        (s1.noteGone k.func cm n pruned).modSlot k.func l.msg ch (fun w =>
          if w.reports.contains n then w
          else { w with reports := linsert w.reports n, matchedSum := w.matchedSum + matched, prunedSum := w.prunedSum + pruned })

/-- COLL_SEAL: passed on, then acted on; with ABORT or PRUNED the members lost that are not yet recorded here are recorded. An ABORT lap
ends where it has passed (R283, R286, R287). -/
def State.collSeal (s : State) (k : Conn) (cm : Nat) (c : Comm) (ring : Bool) (l : RxLast) : State :=
  let v := l.imm.getD 0
  let matched := v / 2 ^ 96
  let pruned := v / 2 ^ 64 % 2 ^ 32
  let fl := v / 2 ^ 32 % 2 ^ 32
  let ch := l.offset / 2 ^ 32
  if bit fl 0 then
    if ring ∧ c.aborted.contains l.msg then s
    else
      let s1 := s.sendAbort k.func cm ring l.msg pruned
      (if pruned > c.pruned then s1.noteLoss k.func cm l.msg 0 c.members (pruned - c.pruned) else s1).abortOp k.func l.msg
  else
    let edges := if ring then (if (c.ringPos + 1) % max 1 c.ringNodes = 0 then [] else [c.ringNext]) else c.live.map (fun x => x.conn)
    let s1 := forEach edges s (fun st e => st.collControl e 0x43 l.msg (ch * 2 ^ 32) (sealBytes matched pruned false (bit fl 1)))
    let s2 := if !bit fl 1 then s1
      else
        let w := s1.modOp k.func l.msg (fun o => { o with flags := o.flags ||| 8, prunedOf := max o.prunedOf pruned })
        if pruned > c.pruned then w.noteLoss k.func cm l.msg 0 c.members (pruned - c.pruned) else w
    s2.sealChunk k.func l.msg ch

/-- COLL_REPAIR: the chunk is sent again from the retained slot (R284). -/
def State.collRepair (s : State) (n : Nat) (k : Conn) (c : Comm) (l : RxLast) : State :=
  match s.collOp k.func l.msg with
  | none => s
  | some o =>
    let size := dtSize o.dtOut
    let ch := l.offset / 2 ^ 32
    let u := o.unitAt c ch (l.offset % 2 ^ 32) size
    match tget o.slots u.key with
    | none => s
    | some sl => match sl.result with
      | some r => s.collData n 0x41 k.func l.msg u.key ch ((u.lo - ch * o.perChunk) * size) r.length
      | none => s.modSlot k.func l.msg u.key (fun v => { v with sentDown := false })

/-- A collective packet with LAST has been passed by VPSN: the node acts on it (R258). -/
def State.collArrive (s : State) (n : Nat) (l : RxLast) : State :=
  match s.edgeComm n with
  | none => s
  | some (k, cm, c) =>
    let ring := n == c.ringPrev && (match s.collOp k.func l.msg with
      | some o => o.ring
      | none => true)
    let s1 :=
      if l.type = 0x40 then s.collUp n k c l
      else if l.type = 0x41 then s.collDown n k c l
      else if l.type = 0x42 then s.collReport n k cm c l
      else if l.type = 0x43 then s.collSeal k cm c ring l
      else if l.type = 0x44 then s.collRepair n k c l
      else if l.type = 0x45 then
        (if (s.collOp k.func l.msg).isNone && decide (l.msg ≤ (s.func k.func).lastGseq) then s
         else s.modComm k.func cm (fun v => { v with grants := tset v.grants l.msg (max (tgetD v.grants l.msg 0) (l.imm.getD 0 / 2 ^ 32)) }))
      else s
    s1.collPump k.func

/-- Acts on the collective packets passed, in order. -/
def State.collArrivals (s : State) (n : Nat) (ls : List RxLast) : State := forEach ls s (fun st l => st.collArrive n l)

/-! ### Lost edges (R285 to R287) -/

/-- An edge is lost: its subtree is pruned from each operation that no longer needs it, and the others are aborted; an edge to
the parent cuts this node off (R285, R286). REASON 1 FENCED, 2 EDGE_FAILED. -/
def State.edgeLost (s : State) (n reason : Nat) : State :=
  match s.edgeComm n with
  | none => s
  | some (k, cm, c) =>
    let f := k.func
    let mine := (s.func f).ops.filter (fun o => o.comm == cm)
    match c.children.find? (fun x => x.conn == n) with
    | some x =>
      if x.lost then s
      else
        let s1 := s.modComm f cm (fun v => { v with children := v.children.map (fun y => if y.conn = n then { y with lost := true } else y) })
        let hit := mine.filter (fun o => !o.ring)
        let first := (hit.map (fun o => o.gseq)).foldl min (2 ^ 32)
        let s2 := s1.degradeComm f cm (if first = 2 ^ 32 then 0 else first) reason x.first x.count
        (forEach hit s2 (fun st o => if o.lacks c x then st.collLost f cm false o.gseq x.count
          else st.modOp f o.gseq (fun v => { v with flags := v.flags ||| 8 }))).collPump f
    | none =>
      let onRing := n == c.ringNext || n == c.ringPrev
      let hit := mine.filter (fun o => o.ring == onRing)
      let first := (hit.map (fun o => o.gseq)).foldl min (2 ^ 32)
      let g := if first = 2 ^ 32 then 0 else first
      let t := c.subtree
      let s1 :=
        if c.degraded then s
        else if onRing then
          let p := if n = c.ringNext then (c.ringPos + 1) % max 1 c.ringNodes else (c.ringPos + c.ringNodes - 1) % max 1 c.ringNodes
          s.degradeComm f cm g reason (c.hosted p).1 (c.hosted p).2
        else
          let a := if t.1 = 0 then s else s.degradeComm f cm g reason 0 t.1
          if t.1 + t.2 ≥ c.members then a else a.degradeComm f cm g reason (t.1 + t.2) (c.members - t.1 - t.2)
      (forEach hit s1 (fun st o => (st.sendAbort f cm onRing o.gseq (if onRing then 0 else c.members - t.2)).abortOp f o.gseq)).collPump f

end Sys2Proof.Machine
end

