-- ==== Sys2Proof/Machine/Tx.lean ====
section
/-! DEFINITION. Machine/Tx.lean: the sending half of a connection: packets of requests (R148 to R151, R168 to R171, R197), their
gates (R209, R210, R215 to R217), records and retransmission (R179 to R183), acknowledgements and the congestion window (R172,
R207), path failure (R190 to R193), epochs (R370, R371) and the ERROR state (R146, R182). -/

namespace Sys2Proof.Machine

/-! ### Fields of a network request (R149, R150) -/

/-- VALUE of a NOTIFY extension. -/
def Job.notify (j : Job) : Option Nat := (j.ext 5).map (fun x => leAt x 4 4)

/-- A WRITE or SEND, whose source is read packet by packet. -/
def Job.sends (j : Job) : Bool := entOp j.ent == 0x10 || entOp j.ent == 0x12

/-- A READ or an atomic, which awaits a response. -/
def Job.awaits (j : Job) : Bool := !j.sends

/-- Packets with data of a WRITE or SEND. -/
def Conn.dataPackets (c : Conn) (j : Job) : Nat := c.packets (netLen j.ent)

/-- All PSNs of a request: a FLAG adds one; a READ takes one for each packet of its response (R171). -/
def Conn.allPackets (c : Conn) (j : Job) : Nat :=
  if j.sends then c.dataPackets j + b2n (j.ext 4).isSome else if entOp j.ent = 0x11 then c.dataPackets j else 1

/-- Bytes of packet `i`. -/
def Conn.packetLen (c : Conn) (j : Job) (i : Nat) : Nat := min c.pmtuBytes (netLen j.ent - i * c.pmtuBytes)

/-! ### Status (R187, R345) -/

/-- Rank of a status: the higher wins. -/
def statusRank (st : Nat) : Nat :=
  if st = stTransport then 6 else if st = stMemoryError then 5 else if st = stRemoteAccess then 4
  else if st = stPathFenced then 3 else if st = stOk then 0 else 2

/-- The status that stands of two. -/
def worseStatus (a b : Nat) : Nat := if statusRank b > statusRank a then b else a

/-- Notes a status for a started request. -/
def State.noteStatus (s : State) (f : FuncId) (r slot st : Nat) : State :=
  s.modJob f r slot (fun j => { j with status := worseStatus j.status st })

/-! ### Packets -/

/-- A packet to send. -/
structure OutPkt where
  type : Nat
  first : Bool
  last : Bool
  key : Nat
  off : Nat
  imm : Option Nat
  payload : Bytes
  /-- LENGTH of the whole request, for RoCE v2. -/
  total : Nat
  /-- PSNs taken. -/
  count : Nat
  deriving DecidableEq, Repr

/-- Packet `i` of a WRITE or SEND with these bytes; `broken`: replaced by a WRITE with KEY 0, OFFSET 0 and no payload (R171,
R345). -/
def Conn.outData (c : Conn) (j : Job) (i : Nat) (broken : Bool) (bytes : Bytes) : OutPkt :=
  let k := c.dataPackets j
  let last := i + 1 == c.allPackets j
  let imm := if last then j.notify else none
  if broken then ⟨0x01, i == 0, last, 0, 0, none, [], 0, 1⟩
  else if i ≥ k then
    let x := (j.ext 4).getD []
    ⟨0x02, false, true, leAt x 4 4, leAt x 8 8, imm, beBytes 8 (leAt x 16 8), 8, 1⟩
  else if entOp j.ent = 0x12 then
    ⟨0x03, i == 0, last, j.msg, netLen j.ent * 2 ^ 32 + i * c.pmtuBytes, imm, bytes, netLen j.ent, 1⟩
  else ⟨0x01, i == 0, last, netRKey j.ent, netROff j.ent + i * c.pmtuBytes, imm, bytes, netLen j.ent, 1⟩

/-- A READ_REQ for `n` bytes from byte `at_` of the request (R171, R183). -/
def Conn.outRead (c : Conn) (j : Job) (at_ n : Nat) : OutPkt :=
  ⟨0x04, true, true, netRKey j.ent, netROff j.ent + at_, none, beBytes 4 n ++ zeros 4, n, c.packets n⟩

/-- OP of an atomic's opcode (R171). -/
def atomicOp (e : Bytes) : Nat := entOp e - 0x14

/-- An ATOMIC_REQ (R150, R171). -/
def outAtomic (j : Job) : OutPkt :=
  let x := (j.ext 6).getD []
  ⟨0x06, true, true, netRKey j.ent, netROff j.ent, none,
    leBytes 1 (atomicOp j.ent) ++ zeros 7 ++ beBytes 8 (leAt x 8 8) ++ beBytes 8 (leAt x 16 8), 8, 1⟩

/-- The key and KEY_PHASE of a PSN: the older ones for a PSN sent before the rotation (R199, R200). -/
def Conn.keyFor (c : Conn) (psn : Nat) : Option Nat × Bool :=
  if c.oldTx.isSome ∧ c.psnSub psn c.tx.phasePsn ≥ 2 ^ 31 then (c.oldTx, !c.tx.keyPhase) else (c.txKey, c.tx.keyPhase)

/-- The RoCE v2 operation of a packet (R164, R165). -/
def OutPkt.roceOp (k : OutPkt) : RoceOp :=
  let imm := k.imm.isSome
  if k.type = 0x04 then .readReq
  else if k.type = 0x06 then (if k.payload.headD 0 = 1 then .cmpSwap else .fetchAdd)
  else if k.type = 0x03 then
    (if k.first && k.last then (if imm then .sendOnlyImm else .sendOnly) else if k.first then .sendFirst
      else if k.last then (if imm then .sendLastImm else .sendLast) else .sendMiddle)
  else if k.first && k.last then (if imm then .writeOnlyImm else .writeOnly) else if k.first then .writeFirst
  else if k.last then (if imm then .writeLastImm else .writeLast) else .writeMiddle

/-- The frame of a packet of a connection (R168 to R171, R197). -/
def State.dataFrame (s : State) (n : Nat) (c : Conn) (p : LPort) (path : Nat) (epoch retx : Bool) (psn : Nat) (k : OutPkt) : TxFrame :=
  if c.native then
    let key := c.keyFor psn
    let flags := flagBit 6 epoch + flagBit 5 k.first + flagBit 4 k.last + flagBit 3 retx + flagBit 2 k.imm.isSome +
      flagBit 1 (c.encrypt && key.2)
    let fr := s.nativeFrame n c p path k.type flags psn k.key k.off k.imm none k.payload
    .native (match key.1.bind (fun i => tget s.keys i) with
      | some v => if c.encrypt && decide (k.type ≤ 7) then fr.encrypted v else fr
      | none => fr)
  else
    s.roceFrame c p k.roceOp psn k.off k.key k.total (beNat ((k.payload.drop 8).take 8)) (beNat ((k.payload.drop 16).take 8))
      (k.imm.getD 0) .ack (if k.type = 0x04 ∨ k.type = 0x06 then [] else k.payload)

/-! ### Gates (R209, R210, R215 to R217) -/

/-- The path may take a packet now: inflight below cwnd, its pacing gap elapsed (R209). -/
def State.pathOpen (s : State) (c : Conn) (p : Nat) : Bool :=
  let v := c.pathCc p
  decide (v.paceUntil ≤ s.time) && (!c.native || decide (v.inflight * 256 < v.cwnd))

/-- The path for a packet: the present one of a pinned connection; of a sprayed one the emptiest candidate, ties after the path
used last; with no live path the next in turn (R191, R192, R209). -/
def State.choosePath (s : State) (c : Conn) (new : Bool) : Option Nat :=
  if c.mode != .sprayed then
    (if s.pathOpen c c.tx.path && !(new && (c.pathCc c.tx.path).draining) && !(new && (c.pathCc c.tx.path).failed) then some c.tx.path
      else none)
  else
    let live := c.livePaths
    if live.isEmpty then (if new then none else some ((c.tx.path + 1) % max 1 c.npaths))
    else
      let cand := live.filter (fun p => s.pathOpen c p && !(c.pathCc p).draining)
      let room := fun (p : Nat) => (c.pathCc p).cwnd - (c.pathCc p).inflight * 256
      let turn := fun (p : Nat) => (p + c.npaths - (c.tx.path + 1) % max 1 c.npaths) % max 1 c.npaths
      cand.foldl (fun b p => match b with
        | none => some p
        | some q =>
          let x := room p * (c.pathCc q).cwnd
          let y := room q * (c.pathCc p).cwnd
          if x > y ∨ (x = y ∧ turn p < turn q) then some p else some q) none

/-- The path a packet is sent again on: one that drains keeps its packets, and the old epoch with them (R370); what is left of a READ's
runs follows on the path of the first; else as R191, R192 and R209 choose, among paths that do not drain. -/
def State.resendPath (s : State) (c : Conn) (r : SendRec) : Option Nat :=
  let q := c.pathCc r.path
  if 0 < r.runAt ∨ (q.draining ∧ !q.failed ∧ r.epoch = q.epoch) then (if s.pathOpen c r.path then some r.path else none) else s.choosePath c false

/-- Sender records held by a die (R179). -/
def State.dieRecords (s : State) (d : DieId) : Nat :=
  ((s.conns.filter (fun (q : Nat × Conn) => dieOf q.2.func == d)).map (fun q => q.2.tx.records.length)).sum

/-- Sends a packet of the sending half on a path if it may start there; one whose path has no port that is up is sent in vain. The path's
inflight advances. Whether it was sent (R190, R207). -/
def State.transmit (s : State) (n : Nat) (c : Conn) (ring : Option Nat) (path : Nat) (epoch : Bool) (mk : LPort → TxFrame) : State × Bool :=
  match s.startOn n c ring path epoch mk with
  | (s1, .waits) => (s1, false)
  | (s1, _) => (s1.modConn n (fun v =>
      let q := v.pathCc path
      ({ v with tx := { v.tx with path := if v.mode = ConnMode.sprayed then path else v.tx.path } }).setPath path
        { q with inflight := q.inflight + 1 }), true)

/-! ### Source reads (R22) -/

/-- Reads the source of the next packet of a WRITE or SEND, once the transmit staging has room (R180). -/
def State.readNext (s : State) (f : FuncId) (r slot : Nat) (c : Conn) : State :=
  match s.job f r slot with
  | none => s
  | some j =>
    let n := c.packetLen j j.psns
    if !j.sends ∨ j.psns ≥ c.dataPackets j ∨ n = 0 ∨ !j.data.isEmpty ∨ s.inFlight (.sendSrc f r slot) ∨ !s.stageRoom (dieOf f) n then s
    else s.startRead f (netKey j.ent) (netOff j.ent + j.psns * c.pmtuBytes) n (.sendSrc f r slot)

/-- The source bytes of the next packet have been read, or could not be (R345). -/
def State.sendSrcDone (s : State) (f : FuncId) (r slot : Nat) (x : XResult) : State :=
  match x with
  | .ok bytes => s.modJob f r slot (fun j => { j with data := bytes })
  | _ => (s.noteStatus f r slot x.status).modJob f r slot (fun j => { j with broken := true })

/-- The next packet of a started request is ready to be built. -/
def State.nextReady (s : State) (f : FuncId) (r : Nat) (c : Conn) (j : Job) : Bool :=
  !j.sends || j.broken || (decide (j.psns ≥ c.dataPackets j)) ||
  (j.data.length == c.packetLen j j.psns && !s.inFlight (.sendSrc f r j.slot))

/-! ### Completion at the sender (R151, R187) -/

/-- Completes a request whose every packet is acknowledged and every response placed. -/
def State.checkSend (s : State) (n : Nat) (f : FuncId) (r slot : Nat) : State :=
  match s.job f r slot, s.conn n with
  | some j, some c =>
    if j.built && j.waiting.isEmpty && !j.done && !c.tx.records.any (fun w => w.ring == r && w.slot == slot) then
      (s.modJob f r slot (fun v => { v with bytes := netLen j.ent })).finishJob f r slot j.status
    else s
  | _, _ => s

/-! ### The ERROR state (R146, R182) -/

/-- Whether a transfer belongs to a connection's traffic. -/
def Purpose.ofConn (n : Nat) : Purpose → Bool
  | .resend k _ => k == n
  | .packet k _ => k == n
  | .placing k _ => k == n
  | .flag k _ => k == n
  | .readResp k _ => k == n
  | .atomicResp k _ => k == n
  | .respond k _ => k == n
  | .atomicTarget k _ => k == n
  | _ => false

/-- Drops the transfers of a connection, and what they left to do. -/
def State.dropConnXfers (s : State) (n : Nat) : State :=
  let ids := (s.xfers.filter (fun (q : Nat × Xfer) => q.2.purpose.ofConn n)).map Prod.fst
  let s1 := forEach ids s (fun st x => st.dropXfer x)
  { s1 with agenda := s1.agenda.filter (fun a => !a.1.ofConn n) }

/-- The started requests of a connection: (ring, slot), in ring order; posted RECVs among them. -/
def State.connJobs (s : State) (n : Nat) (c : Conn) : List (Nat × Nat) :=
  (c.sendRing.toList ++ c.recvRing.toList).flatMap (fun r => match s.ring c.func r with
    | some g => (g.jobs.filter (fun j => !j.done && !j.ent.isEmpty && leAt j.ent 16 4 % 2 ^ 24 == n)).map (fun j => (r, j.slot))
    | none => [])

/-- Ends every started request and posted RECV of a connection with a status; what they were to write is undefined (R19, R146). -/
def State.endConnJobs (s : State) (n : Nat) (c : Conn) (status : Nat) : State :=
  forEach (s.connJobs n c) s (fun st p =>
    let ids := (st.xfers.filter (fun (q : Nat × Xfer) => q.2.purpose == .sendSrc c.func p.1 p.2)).map Prod.fst
    let w := match st.job c.func p.1 p.2 with
      | some j => st.undefineRuns (st.jobTargets .send j)
      | none => st
    (forEach ids w (fun w x => w.dropXfer x)).finishJob c.func p.1 p.2 status)

/-- A connection moves to ERROR: its started requests and posted RECVs complete with TRANSPORT_ERROR, a fault record is posted,
ERROR_SOURCE is signalled, and an edge is lost. What its unfinished messages have placed is undefined (R19, R146, R285, R439). -/
def State.toError (s : State) (n : Nat) : State :=
  match s.conn n with
  | none => s
  | some c =>
    if c.state = .error then s
    else
      let held := c.rx.buffered
      let s1 := ((s.dropConnXfers n).undefineRuns (s.rxTargets c)).modConn n (fun v => { v with
        state := .error
        tx := { v.tx with records := [], queue := [], resend := [], reread := [], refused := [], rnrPause := false, coll := [] }
        rx := { v.rx with buffered := [], flags := [], work := [], arrived := [], owed := [] } })
      let s2 := forEach held s1 (fun st (b : Nat × LPort × Nat × Nat) => st.rxFree b.2.1 b.2.2.1 b.2.2.2)
      let s3 := s2.endConnJobs n c stTransport
      ((s3.fault 4 1 (some c.func) n 0 0).signalBound c.func c.errSource).edgeLost n 2

/-- A READY connection moves to ERROR (R146). -/
def State.connError (s : State) (n : Nat) : State := if (s.conn n).any (fun c => c.state == .ready) then s.toError n else s

/-! ### Settings in force (R15) -/

/-- The transport and congestion parameters of the request a packet belongs to: those in force when it started; of a collective packet,
and of anything else, the connection's (R15). -/
def State.ruleOf (s : State) (c : Conn) (r : SendRec) : Xport × Cc :=
  if r.coll.isSome then (c.xport, c.cc)
  else match s.job c.func r.ring r.slot with
    | some j => j.settings.getD (c.xport, c.cc)
    | none => (c.xport, c.cc)

/-- The transport parameters that bound rto: those of the oldest request still in flight (R15, R181). -/
def State.rtoRule (s : State) (c : Conn) : Xport :=
  match c.tx.records with
  | r :: _ => (s.ruleOf c r).1
  | [] => c.xport

/-- A request in flight, or still being sent, started under settings that have been replaced since (R15). -/
def State.oldSettings (s : State) (c : Conn) : Bool :=
  c.tx.records.any (fun r => s.ruleOf c r != (c.xport, c.cc)) ||
  c.tx.queue.any (fun q => (s.job c.func q.1 q.2).any (fun j => j.settings.any (fun w => w != (c.xport, c.cc))))

/-- rto and the windows brought within the limits in force (R203, R208). -/
def Conn.clamped (c : Conn) : Conn :=
  { c with
    clampDue := false
    tx := { c.tx with
      rto := min (max c.tx.rto (c.xport.rtoMinUs * 1000)) (c.xport.rtoMaxMs * 1000000)
      paths := c.tx.paths.map (fun p => (p.1, { p.2 with cwnd := max (c.cc.cwndMin * 256) (min (c.cc.cwndMax * 256) p.2.cwnd) })) } }

/-- After a set command: at once where no request of the connection is being sent, else once no request of the old settings is left (R15, log entry 68). -/
def State.clampSoon (s : State) (n : Nat) : State :=
  match s.conn n with
  | none => s
  | some c => if c.tx.records.isEmpty && c.tx.queue.isEmpty then s.modConn n Conn.clamped else s.modConn n (fun v => { v with clampDue := true })

/-! ### Retransmission (R181 to R183, R191) -/

/-- New limits bind a connection once no request of the old settings is left (R15). -/
def State.clampDone (s : State) (n : Nat) : State :=
  match s.conn n with
  | none => s
  | some c => if c.clampDue && !s.oldSettings c then s.modConn n Conn.clamped else s

/-- Schedules PSNs for retransmission, each once, oldest first. -/
def Conn.scheduleResend (c : Conn) (l : List Nat) : Conn :=
  { c with tx := { c.tx with resend := c.tx.resend ++ l.filter (fun p => !c.tx.resend.contains p) } }

/-- A record's packets leave its path: so many fewer in flight (R207). -/
def Conn.leave (c : Conn) (r : SendRec) : Conn :=
  let v := c.pathCc r.path
  let c1 := c.setPath r.path { v with inflight := v.inflight - r.inAir }
  { c1 with tx := { c1.tx with records := c1.tx.records.map (fun w => if w.psn = r.psn then { w with inAir := 0 } else w) } }

/-- Declares packets lost: they leave their paths and are scheduled (R181). -/
def State.lose (s : State) (n : Nat) (psns : List Nat) : State :=
  s.modConn n (fun c =>
    let new := (c.tx.records.filter (fun r => psns.contains r.psn && !r.sacked && !c.tx.resend.contains r.psn))
    (new.foldl Conn.leave c).scheduleResend (new.map (fun r => r.psn)))

/-- Reads the source of the packets scheduled for retransmission that have none in hand, as far as the transmit staging has room (R22,
R180). -/
def State.rereadAll (s : State) (n : Nat) : State :=
  match s.conn n with
  | none => s
  | some c =>
    forEach (c.tx.records.filter (fun r => c.tx.resend.contains r.psn && r.coll.isNone && (r.type == 0x01 || r.type == 0x03) &&
        decide (0 < r.len) && !thas c.tx.reread r.psn && !s.inFlight (.resend n r.psn))) s (fun st r =>
      match st.job c.func r.ring r.slot with
      | none => st
      | some j =>
        if st.stageRoom (dieOf c.func) r.len then st.startRead c.func (netKey j.ent) (netOff j.ent + r.off) r.len (.resend n r.psn) else st)

/-- The source bytes of a retransmission have been read, or could not be (R345). -/
def State.resendDone (s : State) (n psn : Nat) (x : XResult) : State :=
  match s.conn n with
  | none => s
  | some c => match c.tx.records.find? (fun r => r.psn == psn) with
    | none => s
    | some r => match x with
      | .ok bytes => s.modTx n (fun t => { t with reread := tset t.reread psn bytes })
      | _ => (s.noteStatus c.func r.ring r.slot x.status).modTx n (fun t => { t with
          records := t.records.map (fun w => if w.psn = psn then { w with type := 0xFF } else w) })

/-- Runs of consecutive missing PSNs of a request: (first index, count). -/
def missingRuns (c : Conn) (base : Nat) (l : List Nat) : List (Nat × Nat) :=
  (extentsOf (l.map (fun p => c.psnSub p base)))
where
  extentsOf (l : List Nat) : List (Nat × Nat) :=
    (l.foldl linsert []).foldr (fun k acc => match acc with
      | (a, n) :: r => if k + 1 = a then (k, n + 1) :: r else (k, 1) :: (a, n) :: r
      | [] => [(k, 1)]) []

/-- A READ_REQ or ATOMIC_REQ, whose record stays until its response is placed (R183). -/
def SendRec.awaits (r : SendRec) : Bool := r.coll.isNone && (r.type == 0x04 || r.type == 0x06)

/-- The PSNs of a record whose response is still awaited. -/
def State.missing (s : State) (c : Conn) (r : SendRec) : List Nat :=
  match s.job c.func r.ring r.slot with
  | some j => j.waiting.filter (fun p => decide (c.psnSub p r.psn < r.count))
  | none => []

/-- The packets that send a record again: for a READ, one READ_REQ for each missing run (R181, R183). -/
def State.resendPkts (s : State) (c : Conn) (r : SendRec) : List (Nat × OutPkt) :=
  match s.job c.func r.ring r.slot with
  | none => []
  | some j =>
    let i := r.off / c.pmtuBytes
    let idx := if r.type = 0x02 then c.dataPackets j else i
    if r.type = 0x04 then
      (missingRuns c r.psn (s.missing c r)).map (fun w =>
        (c.psnAdd r.psn w.1, c.outRead j (r.off + w.1 * c.pmtuBytes) (min (w.2 * c.pmtuBytes) (r.len - w.1 * c.pmtuBytes))))
    else if r.type = 0x06 then [(r.psn, outAtomic j)]
    else [(r.psn, c.outData j idx (r.type == 0xFF) (tgetD c.tx.reread r.psn []))]

/-- Whether a scheduled retransmission has its bytes. -/
def Conn.resendReady (c : Conn) (r : SendRec) : Bool :=
  r.coll.isSome || r.type == 0xFF || r.len == 0 || (r.type != 0x01 && r.type != 0x03) || thas c.tx.reread r.psn

/-- The packet of a collective, its data read from its slot; bytes of a slot since freed are free (R22, R25, R258). -/
def State.collPkt (s : State) (t : CollPkt) : State × OutPkt :=
  let d := s.collBytes t
  (d.1, ⟨t.fr.type.toNat, bit t.fr.flags.toNat 5, bit t.fr.flags.toNat 4, t.fr.key.toNat, t.fr.offset.toNat, none, d.2, 0, 1⟩)

/-- Sends the next packet of a record again: of a READ, one READ_REQ for each missing run, each when its path and shapers let it start
(R181, R183, R209, R216). Past RETRY_LIMIT transmissions the connection fails (R182). -/
def State.sendAgain (s : State) (n : Nat) (c : Conn) (r : SendRec) : State :=
  if r.runAt = 0 ∧ r.tries + 1 > (s.ruleOf c r).1.retryLimit then s.connError n
  else match s.resendPath c r with
    | none => s
    | some path =>
      let epoch := if (c.pathCc path).draining then (c.pathCc path).epoch else s.relay.epoch
      let pk := match r.coll with
        | some t => (fun (d : State × OutPkt) => (d.1, [(r.psn, d.2)])) (s.collPkt t)
        | none => (s, s.resendPkts c r)
      match pk.2.filter (fun w => decide (r.runAt ≤ c.psnSub w.1 r.psn)) with
      | [] => s.modTx n (fun t => { t with
          resend := t.resend.filter (fun p => p != r.psn)
          records := t.records.map (fun w => if w.psn = r.psn then { w with runAt := 0 } else w) })
      | q :: rest =>
        let mk := fun (st : State) (w : Nat × OutPkt) (p : LPort) => st.dataFrame n c p path epoch true w.1 w.2
        let d := pk.1.transmit n c (if r.coll.isSome then none else some r.ring) path epoch (mk pk.1 q)
        if !d.2 then d.1
        else
          let next := match rest with
            | [] => 0
            | w :: _ => c.psnSub w.1 r.psn
          ((d.1.modConn n (fun v => { v with
              stats := { v.stats with retransmissions := satAdd max64 v.stats.retransmissions 1 }
              tx := { v.tx with
                resend := if rest.isEmpty then v.tx.resend.filter (fun p => p != r.psn) else v.tx.resend
                reread := tdel v.tx.reread r.psn
                records := v.tx.records.map (fun w => if w.psn = r.psn then
                  { w with path := path, sentAt := s.time, tries := if r.runAt = 0 then w.tries + 1 else w.tries, passed := 0, epoch := epoch,
                           inAir := w.inAir + 1, runAt := next } else w) } })).count
            c.func cntRetransmissions 1).count c.func cntNetTx q.2.payload.length

/-! ### New packets (R171, R179, R199, R209) -/

/-- The congestion window of a native connection has room: what is in flight is below the sum of cwnd over its live paths (R209). -/
def Conn.windowOpen (c : Conn) : Bool :=
  !c.native || decide ((c.tx.paths.map (fun p => p.2.inflight)).sum * 256 < (c.livePaths.map (fun p => (c.pathCc p).cwnd)).sum)

/-- How many new PSNs may be sent: none while paused or without a record free; within CREDIT, 2^20, the window and the PSNs a key has left
(R24, R172, R178, R179, R184, R199, R209). -/
def State.newRoom (s : State) (c : Conn) : Nat :=
  let d := c.psnSub c.tx.next c.tx.una
  if c.tx.rnrPause || decide (s.dieRecords (dieOf c.func) ≥ 1048576) || !c.windowOpen || (c.encrypt && c.txKey.isNone) then 0
  else min (min (c.tx.credit - d) (2 ^ 20 - d)) (if c.encrypt then 2 ^ 31 - c.tx.keyPsns else 2 ^ 20)

/-- A packet took its PSNs: its record is kept (R179). -/
def State.recordNew (s : State) (n : Nat) (c : Conn) (ring slot off len path : Nat) (epoch : Bool) (k : OutPkt) (coll : Option CollPkt) : State :=
  let d := dieOf c.func
  let s1 := s.peakGlobal 4 (4 * d.val + 2) (s.dieRecords d + 1)
  s1.modTx n (fun t => { t with
    next := c.psnAdd c.tx.next k.count
    keyPsns := t.keyPsns + (if c.encrypt then k.count else 0)
    lastNew := s.time
    records := t.records ++ [⟨c.tx.next, k.count, ring, slot, off, len, path, s.time, 1,
      (if k.type = 0x01 ∧ k.key = 0 ∧ k.payload.isEmpty ∧ 0 < len then 0xFF else k.type), k.first, k.last, false, epoch, 0, coll, false, 1, 0⟩] })

/-- Sends the first waiting collective packet of an edge (R258, R278). -/
def State.sendColl (s : State) (n : Nat) (c : Conn) (t : CollPkt) : State :=
  match s.choosePath c true with
  | none => s
  | some path =>
    let epoch := (c.pathCc path).epoch
    let k := s.collPkt t
    let d := k.1.transmit n c none path epoch (fun p => s.dataFrame n c p path epoch false c.tx.next k.2)
    if !d.2 then d.1
    else ((d.1.modTx n (fun v => { v with coll := v.coll.drop 1 })).recordNew n c 0 0 0 0 path epoch k.2 (some t)).count c.func cntNetTx
      k.2.payload.length

/-- The next packet of a request with room for `room` PSNs: a READ asks for as many response packets as there is room for (R171, R178, log
entry 60). -/
def Conn.nextPacket (c : Conn) (j : Job) (room : Nat) : OutPkt :=
  if j.sends then c.outData j j.psns j.broken j.data
  else if entOp j.ent = 0x11 then
    let at_ := j.psns * c.pmtuBytes
    c.outRead j at_ (min (netLen j.ent - at_) (max 1 room * c.pmtuBytes))
  else outAtomic j

/-- Sends the next packet of the request at the head of a connection's queue (R171). -/
def State.sendNew (s : State) (n : Nat) (c : Conn) (r slot : Nat) (j : Job) : State :=
  match s.choosePath c true with
  | none => s
  | some path =>
    let j1 := if j.psns = 0 then { j with msg := c.tx.msgNo } else j
    let room := s.newRoom c
    let k := c.nextPacket j1 room
    if room = 0 then s
    else
      let epoch := (c.pathCc path).epoch
      let d := s.transmit n c (some r) path epoch (fun p => s.dataFrame n c p path epoch false c.tx.next k)
      if !d.2 then d.1
      else
        let last := decide (j.psns + k.count = c.allPackets j)
        let off := if j.sends ∧ j.psns ≥ c.dataPackets j then 0 else j.psns * c.pmtuBytes
        let len := if j.sends then (if j.psns < c.dataPackets j then c.packetLen j j.psns else 0) else k.total
        let s1 := d.1.recordNew n c r slot off len path epoch k none
        let s2 := (s1.modJob c.func r slot (fun v => { v with
          msg := j1.msg
          psn0 := if v.psns = 0 then c.tx.next else v.psn0
          psns := v.psns + k.count
          sent := v.sent + len
          broken := false
          data := []
          phase := .sending
          waiting := if j.sends then [] else v.waiting ++ (List.range k.count).map (fun i => c.psnAdd c.tx.next i)
          built := last })).modTx n (fun t => { t with
            msgNo := if last ∧ entOp j.ent = 0x12 then add32 t.msgNo 1 else t.msgNo
            queue := if last then t.queue.drop 1 else t.queue })
        let s3 := s2.count c.func cntNetTx k.payload.length
        if last then s3 else s3.readNext c.func r slot c

/-- The retransmission that goes next: on a sprayed connection any that has its bytes, else the oldest, which the others wait for (R175,
R192). -/
def Conn.nextResend (c : Conn) : Option SendRec :=
  let due := c.tx.records.filter (fun r => c.tx.resend.contains r.psn)
  if c.mode = .sprayed then due.find? (fun r => c.resendReady r) else due.head?.filter (fun r => c.resendReady r)

/-- PACKET_SEND: a connection sends one packet: one that waits to start, a retransmission, a collective packet, or the next new one, in
that order. Source and target reads that the transmit staging had no room for are tried again (R180). -/
def State.packetSend (s0 : State) (n : Nat) : State :=
  match s0.conn n with
  | none => s0
  | some c =>
    let live := c.state == .ready && c.ctx == .cached
    let h := (if live then (s0.rereadAll n).beginWork n else s0).sendHeld n c.tx.held
    let s := h.1
    if h.2 || !live then s
    else match c.nextResend with
      | some r => if r.sacked then s.modTx n (fun t => { t with resend := t.resend.filter (fun p => p != r.psn) }) else s.sendAgain n c r
      | none =>
        if c.mode ≠ .sprayed ∧ !c.tx.resend.isEmpty then s
        else match c.tx.coll with
        | t :: _ => if s.newRoom c = 0 then s else s.sendColl n c t
        | [] => match c.tx.queue with
          | [] => s
          | (r, slot) :: _ => match s.job c.func r slot with
            | none => s.modTx n (fun t => { t with queue := t.queue.drop 1 })
            | some j => if s.nextReady c.func r c j then s.sendNew n c r slot j else s.readNext c.func r slot c

/-! ### Paths (R190 to R193, R370) -/

/-- A path is live again: its window and RTT start anew (R193, R207). -/
def State.pathLive (s : State) (n p : Nat) : State :=
  s.modConn n (fun c =>
    let v := c.pathCc p
    c.setPath p { v with failed := false, timeouts := 0, probeOk := 0, probing := false, cwnd := c.cc.cwndInit * 256, srtt := c.cc.srttInitNs })

/-- Path `p` fails: a sprayed connection resends what is recorded on it over the live paths; a pinned one moves on and resends
everything unacknowledged (R190 to R192). -/
def State.pathFail (s : State) (n p : Nat) : State :=
  match s.conn n with
  | none => s
  | some c =>
    if (c.pathCc p).failed then s
    else
      let c1 := c.setPath p { c.pathCc p with failed := true, probeOk := 0, probing := false }
      let s1 := { s with conns := tset s.conns n c1 }
      if c.mode = .sprayed then
        (if c1.livePaths.isEmpty then s1
          else s1.lose n ((c.tx.records.filter (fun r => r.path == p)).map (fun r => r.psn))).rereadAll n
      else
        let nextLive := ((lrange 1 c.npaths).map (fun i => (c.tx.path + i) % max 1 c.npaths)).find? (fun q => !(c1.pathCc q).failed)
        match (if c.tx.path = p then nextLive else none) with
        | none => s1
        | some q => ((s1.modTx n (fun t => { t with path := q })).lose n (c.tx.records.map (fun r => r.psn))).rereadAll n

/-- Paths that have no unacknowledged packet left of the old epoch switch to the current one (R370). -/
def State.switchPaths (s : State) (n : Nat) : State :=
  s.modConn n (fun c => (List.range c.npaths).foldl (fun v p =>
    let q := v.pathCc p
    if q.draining ∧ !(v.tx.records.any (fun r => r.path == p && r.epoch == q.epoch && !r.sacked && !r.acked)) then
      v.setPath p { q with draining := false, epoch := s.relay.epoch }
    else v) c)

/-! ### Acknowledgements (R172, R181, R207) -/

/-- cwnd, alpha and RTT of a path on an acknowledgement (R207). Units: cwnd 1/256 packet, alpha 1/65,536. -/
def PathCc.onAck (v : PathCc) (cc : Cc) (now newly : Nat) (ce : Bool) (sample : Option Nat) : PathCc :=
  let v1 := { v with acked := v.acked + newly, marked := v.marked + b2n ce }
  let v2 := match sample with
    | none => v1
    | some t =>
      let keep := (v1.samples.filter (fun q => decide (now < q.1 + cc.baseWindowMs * 1000000))) ++ [(now, t)]
      { v1 with srtt := (7 * v1.srtt + t) / 8, samples := keep, baseRtt := some ((keep.map Prod.snd).foldl min t) }
  if now < v2.nextUpdate then v2
  else
    let g := 2 ^ cc.gShift
    let alpha := ((g - 1) * v2.alpha + v2.marked * 65536 / max v2.acked 1) / g
    let base := v2.baseRtt.getD v2.srtt
    let w :=
      if v2.marked > 0 then v2.cwnd - v2.cwnd * alpha / 131072
      else if v2.srtt > base + cc.delayTargetNs then
        v2.cwnd - v2.cwnd * cc.betaPct * (v2.srtt - base - cc.delayTargetNs) / (100 * max 1 v2.srtt)
      else v2.cwnd + cc.ai * 256
    { v2 with
      alpha := alpha, cwnd := max (cc.cwndMin * 256) (min (cc.cwndMax * 256) w)
      acked := 0, marked := 0, nextUpdate := now + v2.srtt }

/-- srtt, rttvar and rto of a connection by a sample, within the limits `x` (R15, R181); the first sample sets srtt, and rttvar to its
half (log entry 14). -/
def Conn.onSample (c : Conn) (x : Xport) (t : Nat) : Conn :=
  let d := match c.tx.srtt with
    | none => (t, t / 2)
    | some m => ((7 * m + t) / 8, (3 * c.tx.rttvar + (if m ≥ t then m - t else t - m)) / 4)
  { c with tx := { c.tx with
    srtt := some d.1, rttvar := d.2
    rto := min (max (d.1 + 4 * d.2) (x.rtoMinUs * 1000)) (x.rtoMaxMs * 1000000) } }

/-- rto by the present estimate, once an expiry's doubling no longer applies. That is whenever ACK_PSN advances: DESIGN CHOICE, R181 does
not say when the doubling ends (log entry 149). -/
def Conn.baseRto (c : Conn) (x : Xport) : Nat :=
  match c.tx.srtt with
  | none => x.rtoMinUs * 1000
  | some m => min (max (m + 4 * c.tx.rttvar) (x.rtoMinUs * 1000)) (x.rtoMaxMs * 1000000)

/-- Destroys the old transmit key once every PSN sent under it is acknowledged (R200). -/
def State.dropOldTx (s : State) (n : Nat) : State :=
  match s.conn n with
  | none => s
  | some c => match c.oldTx with
    | none => s
    | some k =>
      if c.psnSub c.tx.una c.tx.phasePsn < 2 ^ 31 then
        { s.modConn n (fun v => { v with oldTx := none }) with keys := tdel s.keys k, keySeries := s.keySeries.give k }
      else s

/-- What an acknowledgement reports. -/
structure AckInfo where
  psn : Nat
  sack : Nat
  xsack : Nat
  credit : Option Nat
  echo : Option Nat
  retx : Bool
  ce : Bool
  failedCopy : Bool
  /-- An ACK, which alone gives a sample of the round trip (R181). -/
  ack : Bool
  /-- The PSN a NAK_ACCESS names (R185). -/
  nak : Option Nat
  /-- The path of the packet it answers, from its ROUTE (R177, R207). -/
  path : Option Nat
  deriving DecidableEq, Repr

/-- Whether an acknowledgement reports a PSN as placed and visible by SACK (R172). -/
def AckInfo.shows (a : AckInfo) (c : Conn) (psn : Nat) : Bool :=
  let d := c.psnSub psn a.psn
  decide (1 ≤ d) && ((decide (d ≤ 64) && bit a.sack (d - 1)) || (decide (65 ≤ d) && decide (d ≤ 1024) && bit a.xsack (d - 65)))

/-- Every PSN of a record lies before ACK_PSN. -/
def AckInfo.covers (a : AckInfo) (c : Conn) (r : SendRec) : Bool := decide (c.psnSub a.psn r.psn ≥ r.count) && decide (c.psnSub a.psn r.psn ≤ 2 ^ 20)

/-- A NAK_ACCESS names a PSN of the record. -/
def AckInfo.names (a : AckInfo) (c : Conn) (r : SendRec) : Bool := a.nak.any (fun p => decide (c.psnSub p r.psn < r.count)) && r.coll.isNone

/-- A PSN lies before ACK_PSN, or SACK shows it placed (R172). -/
def AckInfo.seen (a : AckInfo) (c : Conn) (psn : Nat) : Bool :=
  (decide (1 ≤ c.psnSub a.psn psn) && decide (c.psnSub a.psn psn ≤ 2 ^ 20)) || a.shows c psn

/-- An acknowledgement acknowledges a record's packet: every PSN of it is seen, or a NAK_ACCESS names it. -/
def AckInfo.reports (a : AckInfo) (c : Conn) (r : SendRec) : Bool :=
  a.covers c r || (decide (r.count ≤ 1024 + c.psnSub a.psn r.psn % 2 ^ 31) && (List.range r.count).all (fun i => a.seen c (c.psnAdd r.psn i))) ||
  a.names c r

/-- Packet `x` was sent after `r`, on the same path (R181). -/
def Conn.sentLater (c : Conn) (x r : SendRec) : Bool :=
  x.path == r.path && (decide (x.sentAt > r.sentAt) ||
    (x.sentAt == r.sentAt && decide (c.psnSub x.psn r.psn < 2 ^ 20) && x.psn != r.psn))

/-- A record as an acknowledgement leaves it: shown placed, acknowledged while its response is awaited, or passed by later packets of its
path that SACK shows placed (R172, R181, R183). -/
def AckInfo.update (a : AckInfo) (c : Conn) (newly : List SendRec) (r : SendRec) : SendRec :=
  if a.reports c r then { r with sacked := r.sacked || !r.awaits, acked := r.awaits, inAir := 0 }
  else if r.sacked || r.acked then r
  else { r with passed := r.passed + (newly.filter (fun x => !a.covers c x && a.reports c x && c.sentLater x r)).length }

/-- A path on an acknowledgement: the packets it reports leave it; one that carried a packet now acknowledged counts no timeouts, and is
in service again where no path was (R190 to R192, R207). -/
def Conn.pathAcked (c : Conn) (a : AckInfo) (cc : Cc) (now : Nat) (newly : List SendRec) (hadLive : Bool) (cePath : Option Nat)
    (sample : Option (Nat × Nat)) (p : Nat) : Conn :=
  let mine := newly.filter (fun r => r.path == p)
  let q := c.pathCc p
  let q1 := { q with
    inflight := q.inflight - (mine.map (fun r => r.inAir)).sum
    timeouts := if mine.isEmpty then q.timeouts else 0
    failed := q.failed && !(!hadLive && !mine.isEmpty) }
  c.setPath p (if c.native then q1.onAck cc now mine.length (a.ce && cePath == some p)
    (match sample with | some t => if t.1 = p then some t.2 else none | none => none) else q1)

/-- The request of a packet that a NAK_ACCESS names fails; nothing more of that packet is awaited (R185, R187). -/
def State.nakRecord (s : State) (c : Conn) (r : SendRec) : State :=
  (s.noteStatus c.func r.ring r.slot stRemoteAccess).modJob c.func r.ring r.slot (fun j => { j with
    waiting := j.waiting.filter (fun p => decide (c.psnSub p r.psn ≥ r.count)) })

/-- An acknowledgement or NAK arrives: records are freed, SACK noted, RTT and windows updated, losses found, requests completed (R172,
R181, R185, R188, R207). A READ or atomic keeps its record until its response is placed (R183), an atomic also until its request is
acknowledged (R151); the ACK of one sent again counts for its path although it was acknowledged before (R190 to R192). One that lies
behind an earlier acknowledgement still gives what it echoes and shows. -/
def State.onAck (s0 : State) (n : Nat) (a : AckInfo) : State :=
  match s0.conn n with
  | none => s0
  | some c =>
    let old := decide (c.psnSub a.psn c.tx.una > c.psnSub c.tx.next c.tx.una)
    if old && decide (c.psnSub c.tx.una a.psn > 2 ^ 20) then s0
    else
      let una := if old then c.tx.una else a.psn
      let named := c.tx.records.filter (fun r => a.names c r)
      let s := forEach named s0 (fun st r => st.nakRecord c r)
      let newly := c.tx.records.filter (fun r => a.reports c r && !r.sacked && !r.acked)
      let covered := c.tx.records.filter (fun r => a.covers c r && !({ a with psn := c.tx.una } : AckInfo).covers c r)
      let again := c.tx.records.filter (fun r => r.acked && decide (0 < r.inAir) && a.ack && a.echo.any (fun e => decide (c.psnSub e r.psn < r.count)))
      let gone := fun (r : SendRec) => a.names c r || (if r.awaits then a.reports c r && (s.missing c r).isEmpty else a.covers c r)
      let echoed := a.echo.bind (fun e => c.tx.records.find? (fun r => r.psn == e))
      let sample := if a.retx || !a.ack then none else echoed.map (fun r => (r.path, s.time - r.sentAt))
      let cePath := match a.path with
        | some p => some p
        | none => echoed.map (fun r => r.path)
      let recs := (c.tx.records.filter (fun r => !gone r)).map (a.update c newly)
      let moved := una != c.tx.una
      let c1 := { c with tx := { c.tx with
        una := una, records := recs
        credit := if old then c.tx.credit else a.credit.getD c.tx.credit
        refused := c.tx.refused.filter (fun p => decide (c.psnSub p una < 2 ^ 20) && a.nak != some p)
        resend := c.tx.resend.filter (fun p => recs.any (fun r => r.psn == p && !r.sacked && !r.acked))
        backoff := if moved then (0, 0) else c.tx.backoff
        rto := if moved then c.baseRto (s0.rtoRule c) else c.tx.rto } }
      let c2 := match sample with
        | some q => if c.native then c1.onSample (s0.rtoRule c) q.2 else c1
        | none => c1
      let rule := fun (r : SendRec) => s0.ruleOf c r
      let paths := ((newly ++ again).map (fun r => r.path) ++ cePath.toList).foldl linsert []
      let c3 := paths.foldl (fun v p =>
        let cc := match newly.find? (fun r => r.path == p) with
          | some r => (rule r).2
          | none => c.cc
        v.pathAcked a cc s.time (newly ++ again) (!c.livePaths.isEmpty) cePath sample p) c2
      let lost := (recs.filter (fun r => !r.sacked && !r.acked && decide (r.passed ≥ (rule r).1.reorder))).map (fun r => r.psn)
      let s1 := (({ s with conns := tset s.conns n c3 } : State).lose n lost).modTx n (fun t => { t with
        records := t.records.map (fun r => if lost.contains r.psn then { r with passed := 0 } else r) })
      let own := fun (l : List SendRec) => (l.filter (fun r => r.coll.isNone)).map (fun r => (r.ring, r.slot))
      let s2 := if a.failedCopy then forEach (own covered) (s1.rereadAll n) (fun st p =>
          st.modJob c.func p.1 p.2 (fun j => { j with failedCopy := true }))
        else s1.rereadAll n
      let s3 := forEach (own (newly ++ c.tx.records.filter gone)) s2 (fun st p => st.checkSend n c.func p.1 p.2)
      ((s3.switchPaths n).dropOldTx n).clampDone n

/-- A NAK_RNR: no new PSN until the pause ends, and the refused packet is resent then; the retry does not count (R182, R184). -/
def State.onNakRnr (s : State) (n psn reason : Nat) : State :=
  match s.conn n with
  | none => s
  | some c =>
    let s1 := s.modConn n (fun v => { v with
      stats := { v.stats with rnrReceived := satAdd max32 v.stats.rnrReceived 1 }
      tx := { v.tx with
        rnrPause := true
        rnrReason := reason
        rnrAt := if v.tx.rnrPause then v.tx.rnrAt else s.time
        refused := if v.tx.records.any (fun r => decide (v.psnSub psn r.psn < r.count)) && !v.tx.refused.contains psn then v.tx.refused ++ [psn] else v.tx.refused
        records := v.tx.records.map (fun r => if v.psnSub psn r.psn < r.count then { r with tries := r.tries - 1 } else r) } })
    s1.count c.func cntRnrReceived 1

/-- The packets of a connection that PSNs belong to: a READ_REQ takes several (R171). -/
def Conn.packetsOf (c : Conn) (psns : List Nat) : List Nat :=
  (c.tx.records.filter (fun r => psns.any (fun p => decide (c.psnSub p r.psn < r.count)))).map (fun r => r.psn)

/-- RNR_RETRY_EXPIRY: the pause ends and every refused packet is resent (R184). -/
def State.rnrRetry (s : State) (n : Nat) : State :=
  match s.conn n with
  | none => s
  | some c =>
    if c.state != .ready || !c.tx.rnrPause then s
    else
      let s1 := s.traceRecord (dieOf c.func) c.func 0x07 n c.peer c.tx.rnrReason (s.time - c.tx.rnrAt)
      ((s1.modTx n (fun t => { t with rnrPause := false, refused := [] })).lose n (c.packetsOf c.tx.refused)).rereadAll n

/-- A NAK with sequence error: everything unacknowledged from a PSN on is sent again, in PSN order (R175). -/
def State.resendFrom (s : State) (n psn : Nat) : State :=
  match s.conn n with
  | none => s
  | some c =>
    let after := fun (r : SendRec) => decide (c.psnSub r.psn psn < 2 ^ 20)
    let s1 := s.modTx n (fun t => { t with records := t.records.map (fun r => if after r && !r.acked then { r with sacked := false } else r) })
    (s1.lose n ((c.tx.records.filter (fun r => after r && !r.acked)).map (fun r => r.psn))).rereadAll n

/-- RTO_EXPIRY: the oldest packet whose acknowledgement or response is missing is sent again; its path counts a timeout (R181 to R183,
R190, R207). -/
def State.rtoExpiry (s : State) (n : Nat) : State :=
  match s.conn n with
  | none => s
  | some c =>
    if c.state != .ready then s
    else match c.tx.records.find? (fun r => !r.sacked) with
      | none => s
      | some r =>
        let x := s.ruleOf c r
        if r.tries + 1 > x.1.retryLimit then s.connError n
        else
          let v := c.pathCc r.path
          let again := c.tx.backoff.1 = r.psn ∧ c.tx.backoff.2 > 0
          let c1 := (c.setPath r.path { v with timeouts := v.timeouts + 1, cwnd := if c.native then x.2.cwndMin * 256 else v.cwnd })
          let c2 := { c1 with
            stats := { c1.stats with timeouts := satAdd max32 c1.stats.timeouts 1 }
            tx := { c1.tx with
              backoff := (r.psn, if again then c.tx.backoff.2 + 1 else 1)
              rto := min (2 * c.tx.rto) (x.1.rtoMaxMs * 1000000) } }
          let s1 := ({ s with conns := tset s.conns n c2 }.lose n [r.psn]).rereadAll n
          if v.timeouts + 1 ≥ x.1.pathFail ∧ c.native then s1.pathFail n r.path else s1

/-- Sends a PROBE on each failed path; one before it that had no reply breaks the row of replies (R193, R370). -/
def State.probePaths (s : State) (n : Nat) : State :=
  match s.conn n with
  | none => s
  | some c =>
    if c.state != .ready || !c.native then s
    else forEach ((List.range c.npaths).filter (fun p => (c.pathCc p).failed)) s (fun st p =>
      ((st.modConn n (fun v =>
        let q := v.pathCc p
        v.setPath p { q with probing := true, probeOk := if q.probing then 0 else q.probeOk })).sendOn n c p st.relay.epoch (fun q =>
        .native (st.nativeFrame n c q p 0x20 (flagBit 6 st.relay.epoch) 0 0 st.time none none []))).1)

/-- A PROBE_REPLY: after PROBE_OK in a row the path is live (R193). -/
def State.probeReply (s : State) (n p : Nat) : State :=
  match s.conn n with
  | none => s
  | some c =>
    let v := c.pathCc p
    if !v.failed then s
    else if v.probeOk + 1 ≥ c.xport.probeOk then s.pathLive n p
    else { s with conns := tset s.conns n (c.setPath p { v with probing := false, probeOk := v.probeOk + 1 }) }

/-- DRAIN_MAX_EXPIRY: what a path has left of the old epoch is resent under the new one, and it switches (R371). -/
def State.drainMax (s : State) (n p : Nat) : State :=
  match s.conn n with
  | none => s
  | some c =>
    let v := c.pathCc p
    if !v.draining then s
    else
      let old := (c.tx.records.filter (fun r => r.path == p && r.epoch == v.epoch && !r.sacked)).map (fun r => r.psn)
      (({ s with conns := tset s.conns n (c.setPath p { v with draining := false, epoch := s.relay.epoch }) }).lose n old).rereadAll n

/-! ### Responses at the requester (R151, R155, R183) -/

/-- The request whose record covers a PSN, if it awaits it. -/
def State.awaiting (s : State) (c : Conn) (psn type : Nat) : Option (SendRec × Job) :=
  match c.tx.records.find? (fun r => r.type == type && decide (c.psnSub psn r.psn < r.count)) with
  | none => none
  | some r => match s.job c.func r.ring r.slot with
    | none => none
    | some j => if j.waiting.contains psn then some (r, j) else none

/-- A response is placed and visible in its local region, or could not be. A READ is done with its record then, an atomic once its request
is acknowledged too (R151, R187). -/
def State.responsePlaced (s : State) (n psn type : Nat) (x : XResult) : State :=
  match s.conn n with
  | none => s
  | some c => match s.awaiting c psn type with
    | none => s
    | some (r, j) =>
      let s1 := match x with
        | .ok _ => s
        | _ => s.noteStatus c.func r.ring r.slot x.status
      let s2 := s1.modJob c.func r.ring r.slot (fun v => { v with waiting := j.waiting.filter (fun p => p != psn) })
      if (s2.missing c r).isEmpty && (type == 0x04 || r.acked) then
        (((s2.modConn n (fun v =>
          let w := v.leave r
          { w with tx := { w.tx with
            records := w.tx.records.filter (fun q => q.psn != r.psn), resend := w.tx.resend.filter (fun p => p != r.psn) } })).checkSend n
          c.func r.ring r.slot).switchPaths n)
      else s2

end Sys2Proof.Machine
end

