-- ==== Sys2Proof/Machine/Work.lean ====
section
/-! DEFINITION. Machine/Work.lean: the work-ring arbiter (R110), the entries of a ring and their chains (R102 to R105, R109, R469),
the readiness of a request (R106, R117, R142, R156, R161, R179, R209, R265), the copy engine (R119 to R127), and the start of
network and raw requests (R148 to R151, R247, R249). -/

namespace Sys2Proof.Machine

/-! ### The context cache (R138, R140, R142) -/

/-- Contexts cached or on their way. -/
def State.cachedConns (s : State) : List (Nat × Conn) :=
  s.conns.filter (fun (q : Nat × Conn) => q.2.ctx == .cached || q.2.ctx == .fetching)

/-- The least recently used unpinned context begins its write-back (R138). -/
def State.evictOne (s : State) : State :=
  match (s.conns.filter (fun (q : Nat × Conn) => q.2.ctx == .cached && !q.2.pin)).foldl (fun b q => match b with
    | none => some q
    | some (w : Nat × Conn) => if q.2.used < w.2.used then some q else some w) none with
  | none => s
  | some q => s.modConn q.1 (fun c => { c with ctx := .writingBack })

/-- With more contexts in the cache than it has room for, so many of the least recently used begin their write-back (R138). -/
def State.evict (s : State) : State := (List.range (s.cachedConns.length - s.mem.cacheRoom)).foldl (fun st _ => st.evictOne) s

/-- Notes a use of a connection's context. -/
def State.touchConn (s : State) (n : Nat) : State :=
  let (u, s1) := s.newId
  s1.modConn n (fun c => { c with used := u })

/-- Has an absent context fetched, at most 256 at once per die; a write-back in progress is cancelled (R141, R142). -/
def State.fetchContext (s : State) (n : Nat) : State :=
  match s.conn n with
  | none => s
  | some c => match c.ctx with
    | .cached => s
    | .fetching => s
    | .writingBack =>
      let (u, s1) := s.newId
      (s1.modConn n (fun v => { v with ctx := .cached, used := u })).evict
    | .backing =>
      if (s.conns.filter (fun (q : Nat × Conn) => q.2.ctx == .fetching && dieOf q.2.func == dieOf c.func)).length ≥ 256 then s
      else ((s.modConn n (fun v => { v with ctx := .fetching })).countGlobal 4 (4 * (dieOf c.func).val) 1).evict

/-! ### Chains (R102, R105) -/

/-- What the entries read so far make. -/
inductive Chain where
  | incomplete
  | complete
  /-- Malformed: so many entries are consumed. -/
  | bad (consumed : Nat)
  deriving DecidableEq, Repr

/-- Judges a chain (R105). -/
def chainOf (held : List Bytes) : Chain :=
  match held with
  | [] => .incomplete
  | e :: rest =>
    if !entFirst e then .bad 1
    else match rest.findIdx? entFirst with
      | some i => .bad (i + 1)
      | none =>
        if (held.getLast?.map entLast).getD false then .complete
        else if held.length ≥ 8 then .bad 8 else .incomplete

/-- Whether a ring's kind takes an opcode (R148, R262). -/
def kindTakes (k : RingKind) (op : Nat) : Bool :=
  match k with
  | .copy => op == 0x01
  | .send => decide (0x10 ≤ op) && decide (op ≤ 0x16)
  | .coll => decide (0x80 ≤ op) && decide (op ≤ 0x84)

/-- A new job from a ring's held entries. -/
def jobOf (slot : Nat) (ent : Bytes) (exts : List Bytes) : Job where
  slot := slot
  ent := ent
  exts := exts
  phase := .reading
  status := stOk
  bytes := 0
  aux := 0
  failedCopy := false
  nonce := []
  srcAt := []
  settings := none
  data := []
  psn0 := 0
  psns := 0
  sent := 0
  waiting := []
  built := false
  msg := 0
  broken := false

/-- Takes `k` entries of a ring as a started request, with its completion reserved if it posts one; none when no entry is free
(R117). -/
def State.takeJob (s : State) (f : FuncId) (r : Nat) (g : Ring) (j : Job) (k : Nat) : Option State :=
  let add := fun (st : State) => st.modRing f r (fun v => { v with
    jobs := v.jobs ++ [j], started := (v.started + k) % (2 * v.n), held := v.held.drop k, fetching := none })
  match g.cq with
  | some c => if j.postsCqe g then (s.reserveCq f c 1).map add else some (add s)
  | none => some (add s)

/-- Ends a request at once with a status that puts its ring in ERROR; `slot` names it. -/
def State.badRequest (s : State) (f : FuncId) (r : Nat) (g : Ring) (slot : Nat) (ent : Bytes) (exts : List Bytes) (k status : Nat) : State :=
  match s.takeJob f r g (jobOf slot ent exts) k with
  | none => s
  | some s1 => (s1.finishJob f r slot status).ringError f r slot

/-- Refuses the held entries where they make no valid request: a broken chain, or an opcode its ring does not take (R105,
R148, R262). -/
def State.judgeHeld (s : State) (f : FuncId) (r : Nat) : State :=
  match s.ring f r with
  | none => s
  | some g =>
    if g.error then s
    else match chainOf g.held with
      | .incomplete => s
      | .bad k => s.badRequest f r g g.started (g.held.headD []) ((g.held.take k).drop 1) k stBadChain
      | .complete =>
        if kindTakes g.kind (entOp (g.held.headD [])) then s
        else s.badRequest f r g g.started (g.held.headD []) (g.held.drop 1) g.held.length stBadEntry

/-! ### Readiness (R106, R110, R117) -/

/-- A raw queue's requests name connection 0 (R247). -/
def isRaw (g : Ring) (e : Bytes) : Bool := g.rawq.isSome && leAt e 16 4 % 2 ^ 24 == 0

/-- The connection of a network request, if it is bound to the ring in the direction its opcode needs (R144, R148). -/
def State.boundConn (s : State) (f : FuncId) (r : Nat) (e : Bytes) : Option (Nat × Conn) :=
  let n := leAt e 16 4 % 2 ^ 24
  match s.conn n with
  | none => none
  | some c =>
    if c.func = f ∧ (if entOp e = 0x13 then c.recvRing else c.sendRing) = some r then some (n, c) else none

/-- The wait of a request is over (R161). -/
def State.waitMet (s : State) (f : FuncId) (exts : List Bytes) : Bool :=
  match waitOf exts with
  | none => true
  | some (k, th) => match tget (s.func f).trigs k with
    | none => true
    | some t => decide (t.value ≥ th)

/-- READs and atomics of a connection that have started and are not complete (R106, R156). -/
def State.readsOpen (s : State) (n : Nat) (c : Conn) : Nat :=
  match c.sendRing with
  | none => 0
  | some r => match s.ring c.func r with
    | none => 0
    | some g => (g.jobs.filter (fun j => !isRaw g j.ent && j.awaits && leAt j.ent 16 4 % 2 ^ 24 == n)).length

/-- A network request of a connection can start: context loaded, keys left, READ_DEPTH and a path free (R142, R156, R199, R209). A
request on a connection in RESET waits (log entry 15). -/
def State.connReady (s : State) (n : Nat) (c : Conn) (op : Nat) : Bool :=
  c.ctx == .cached && (op == 0x13 || (match c.state with
    | .reset => false
    | .frozen => false
    | .error => true
    | .ready => (!c.encrypt || decide (c.tx.keyPsns < 2 ^ 31)) &&
        ((op == 0x10 || op == 0x12) || decide (s.readsOpen n c < c.readDepth)) && (s.choosePath c true).isSome))

/-- Bytes of frames that a die stages for raw queues and answers: raw frames being placed, raw SENDs being read or waiting for their
queue, answer frames waiting for theirs (R180). -/
def State.rawStage (s : State) (d : DieId) : Nat :=
  (s.xfers.map (fun (q : Nat × Xfer) => match q.2.purpose with
    | .rawRecv f _ _ => if dieOf f = d then q.2.spanBytes else 0
    | _ => 0)).sum +
  ((allFuncs.filter (fun f => dieOf f == d)).map (fun f => ((s.func f).rings.map (fun (g : Nat × Ring) =>
    ((g.2.jobs.filter (fun j => isRaw g.2 j.ent && entOp j.ent == 0x12 && (j.phase == .reading || j.phase == .sending))).map (fun j =>
      netLen j.ent)).sum)).sum)).sum +
  (((List.finRange 32).filter (fun p => dieOfPort p == d)).map (fun p => ((s.port p).own.map (fun w => w.2.len)).sum)).sum

/-- The staging of relayed, raw and answer frames of a die, 3 MiB, has room (R180). -/
def State.rawRoom (s : State) (d : DieId) (len : Nat) : Bool := decide (s.rawStage d + len ≤ 0x300000)

/-- ready(r) of R110. While a die's record store is full no send ring of it is ready; a RECV keeps no record (R179). A COPY takes no
WAIT: with one it is refused, not held (R119). -/
def State.ringReady (s : State) (f : FuncId) (r : Nat) (g : Ring) : Bool :=
  let e := g.held.headD []
  !g.error && chainOf g.held == .complete && (!entFence e || (g.jobs.isEmpty && g.posts.isEmpty && g.postWait.isNone)) &&
  (g.kind == .copy || s.waitMet f (g.held.drop 1)) &&
  (match g.kind with
    | .copy => true
    | .coll => decide ((allFuncs.map (fun h => ((s.func h).ops.filter (fun o => o.launched)).length)).sum < 16384)
    | .send => (entOp e == 0x13 || decide (s.dieRecords (dieOf f) < 1048576)) && (if isRaw g e then entOp e != 0x12 ||
        s.rawRoom (dieOf f) (netLen e) else match s.boundConn f r e with
        | none => true
        | some (n, c) => s.connReady n c (entOp e)))

/-- reserve_slot would succeed (R117). -/
def State.canReserve (s : State) (f : FuncId) (g : Ring) : Bool :=
  match g.cq with
  | none => true
  | some c => !(entCqe (g.held.headD [])) || (match s.cq f c with
    | none => true
    | some q => decide (q.free > 0))

/-! ### The arbiter (R110) -/

/-- The work rings of a die, by module-wide number: owning function × 2^18 + function-local number. -/
def State.dieRings (s : State) (d : DieId) : List (FuncId × Nat × Ring) :=
  (allFuncs.filter (fun f => dieOf f == d && !s.fenced f)).flatMap (fun f => (s.func f).rings.map (fun q => (f, q.1, q.2)))

/-- Rings join and leave the active set (R110). -/
def State.refreshSet (s : State) (d : DieId) : State :=
  let seen := tgetD s.refills d.val 0
  forEach (s.dieRings d) s (fun st q =>
    let g := q.2.2
    let blocked := chainOf g.held == .complete && !st.canReserve q.1 g
    let member := !g.error && g.started != g.prod && !blocked
    if member = g.inSet then st
    else if member then st.modRing q.1 q.2.1 (fun v => { v with
        inSet := true
        credit := if v.joined = some seen then v.credit else v.weight })
    else st.leaveSet d q.1 q.2.1 g)

/-- A refill: WEIGHT and BURST changes take effect, and every active ring has credit WEIGHT. -/
def State.refillRings (s : State) (d : DieId) : State :=
  forEach (s.dieRings d) { s with refills := tset s.refills d.val (tgetD s.refills d.val 0 + 1) } (fun st q =>
    st.modRing q.1 q.2.1 (fun v =>
      let w := match v.nextWeightBurst with
        | some p => p
        | none => (v.weight, v.burst)
      { v with weight := w.1, burst := w.2, nextWeightBurst := none, credit := if v.inSet then w.1 else v.credit }))

/-- A refill would change something: the credit of an active ring, a WEIGHT or BURST, or the credit with which a ring rejoins. -/
def State.refillDue (s : State) (d : DieId) : Bool :=
  let seen := tgetD s.refills d.val 0
  (s.dieRings d).any (fun q => q.2.2.nextWeightBurst.isSome ||
    (if q.2.2.inSet then q.2.2.credit != q.2.2.weight else q.2.2.joined == some seen && q.2.2.credit != q.2.2.weight))

/-- A ring can start its next request: active, ready and with a completion entry to reserve (R110, R117). -/
def State.ringCan (s : State) (q : FuncId × Nat × Ring) : Bool := q.2.2.inSet && s.ringReady q.1 q.2.1 q.2.2 && s.canReserve q.1 q.2.2

/-- The ring served next: the first with credit that can start, from the one after the last served, in ring order (R110). -/
def State.pickRing (s : State) (d : DieId) : Option (FuncId × Nat) :=
  let el := (s.dieRings d).filter (fun q => s.ringCan q && decide (q.2.2.credit > 0))
  let last := tgetD s.lastRing d.val 0
  match el.find? (fun q => decide (ringNumber q.1 q.2.1 ≥ last)) with
  | some q => some (q.1, q.2.1)
  | none => el.head?.map (fun q => (q.1, q.2.1))

/-- The ring that may start a request now, after turns have ended and, where no ring can be served, a refill (R110). -/
def State.arbiter (s : State) (d : DieId) : State × Option (FuncId × Nat) :=
  let s0 := s.refreshSet d
  let done := (s0.dieRings d).filter (fun q => decide (q.2.2.turn > 0) && (decide (q.2.2.turn ≥ q.2.2.burst) || !s0.ringCan q))
  let s1 := forEach done s0 (fun st q => st.endTurn d q.1 q.2.1)
  match (s1.dieRings d).find? (fun q => decide (q.2.2.turn > 0)) with
  | some q => (s1, some (q.1, q.2.1))
  | none =>
    match s1.pickRing d with
    | some q => (s1, some q)
    | none => if s1.refillDue d then (let s2 := s1.refillRings d; (s2, s2.pickRing d)) else (s1, none)

/-- Refills a die whose turns are over and in which no ring can be served (R110). -/
def State.refillIdle (s : State) (d : DieId) : State :=
  if (s.dieRings d).any (fun q => decide (q.2.2.turn > 0)) || (s.pickRing d).isSome || !s.refillDue d then s else s.refillRings d

/-! ### The copy engine (R119 to R127) -/

/-- The fields of a COPY are valid (R119, R120, R125, R126). -/
def copyBad (s : State) (f : FuncId) (g : Ring) (j : Job) : Bool :=
  let len := copyLen j.ent
  let kinds := j.exts.map entOp
  let a := copySide j 4
  let b := copySide j 16
  let side := fun (p : Nat × Nat × Nat) => p.1 == 0 || p.2.2 == 0 || decide (p.2.2 > 65536) || p.1 * p.2.2 != len
  len == 0 || decide (len > 2 ^ 32) || kinds.any (fun k => k != 1 && k != 2) || !kinds.Nodup ||
  ((j.ext 1).isSome && (side a || side b || (decide (b.2.2 > 1) && decide (b.2.1 < b.1)))) ||
  (match j.ext 2 with
    | none => false
    | some x =>
      let mode := leAt x 4 1
      (mode != 1 && mode != 2) || decide (leAt x 5 1 > 16) ||
      (match tget s.keys (leAt x 8 4) with
        | none => true
        | some k => k.func != f || k.use != .copy) ||
      (mode == 1 && (leAt x 12 12 != 0 || g.c4)))

/-- A request that ends at once: the region check of R86 failed. -/
def State.accessFault (s : State) (f : FuncId) (r slot : Nat) : State :=
  (s.count f cntRegionFault 1).finishJob f r slot stAccessFault

/-- Reads the source of a COPY. -/
def State.copyRead (s : State) (f : FuncId) (r : Nat) (j : Job) : State :=
  s.startXfer f (keyIndex (BitVec.ofNat 32 (leAt j.ent 16 4))) (copySrcRuns j) false [] (.copySrc f r j.slot)

/-- Starts a COPY: its checks, the nonce of an encrypt job, and its first reads (R119 to R126). No nonce is used
twice: once the per-key counter has given its last value, an encrypt job is refused with BAD_ENTRY, DESIGN CHOICE, since R126 does not say
what follows (log entry 51). -/
def State.startCopy (s : State) (f : FuncId) (r : Nat) (g : Ring) (j : Job) : State :=
  if copyBad s f g j then s.finishJob f r j.slot stBadEntry
  else
    let src := s.accessOk f (BitVec.ofNat 32 (leAt j.ent 16 4)) accLocalRead (leAt j.ent 24 8) (copySpan (copySide j 4))
    let dst := s.accessOk f (BitVec.ofNat 32 (leAt j.ent 20 4)) accLocalWrite (leAt j.ent 32 8) (copySpan (copySide j 16))
    if src.isNone || dst.isNone then s.accessFault f r j.slot
    else match j.ext 2 with
      | none => s.copyRead f r j
      | some x =>
        let enc := leAt x 4 1 == 1
        let tk : Word32 := BitVec.ofNat 32 (leAt x 24 4)
        if (s.accessOk f tk (if enc then accLocalWrite else accLocalRead) (leAt x 32 8) 16).isNone then s.accessFault f r j.slot
        else if enc then
          match tget s.keys (leAt x 8 4) with
          | none => s
          | some k =>
            let s1 : State := { s with keys := tset s.keys (leAt x 8 4) { k with count := k.count + 1 } }
            if k.count ≥ 2 ^ 64 then s.finishJob f r j.slot stBadEntry
            else (s1.modJob f r j.slot (fun v => { v with nonce := fit 4 k.fixed ++ leBytes 8 k.count })).copyRead f r j
        else s.startRead f tk (leAt x 32 8) 16 (.copyTag f r j.slot)

/-- Reads the source of a COPY again, for a destination write that was fenced or lost (R81, R94). -/
def State.copyAgain (s : State) (f : FuncId) (r slot : Nat) : State :=
  match s.job f r slot with
  | none => s
  | some j => if j.phase = .writing then s.copyRead f r j else s

/-- Every transfer of a copy's destination has ended: it completes (R122, R127). -/
def State.checkCopy (s : State) (f : FuncId) (r slot : Nat) : State :=
  match s.job f r slot with
  | none => s
  | some j =>
    if j.phase != .writing || s.inFlight (.copyDst f r slot) || s.inFlight (.copyTagOut f r slot) then s
    else (s.modJob f r slot (fun v => { v with bytes := copyLen j.ent })).finishJob f r slot j.status

/-- Ends a copy early with a status: what it has outstanding is dropped, and after MEMORY_ERROR its destination is undefined (R345). -/
def State.failCopy (s : State) (f : FuncId) (r slot status : Nat) : State :=
  let mine := fun (p : Purpose) => p == .copySrc f r slot || p == .copyTag f r slot || p == .copyDst f r slot || p == .copyTagOut f r slot ||
    p == .copyAgain f r slot
  let ids := (s.xfers.filter (fun (q : Nat × Xfer) => mine q.2.purpose)).map Prod.fst
  let s1 := forEach ids s (fun st x => st.dropXfer x)
  let dst := match s.job f r slot with
    | some j => (copyDstRuns j).flatMap (fun q => s.localRuns (BitVec.ofNat 32 (leAt j.ent 20 4)) q.1 q.2)
    | none => []
  let s2 := if status = stMemoryError then s1.undefineRuns dst else s1
  { s2 with agenda := s2.agenda.filter (fun a => !mine a.1) }.finishJob f r slot status

/-- The tag of a decrypt job has been read: now its source (R125). -/
def State.copyTagRead (s : State) (f : FuncId) (r slot : Nat) (x : XResult) : State :=
  match s.job f r slot with
  | none => s
  | some j => match x with
    | .ok bytes => (s.modJob f r slot (fun v => { v with data := bytes })).copyRead f r j
    | _ => s.failCopy f r slot x.status

/-- The source bytes of a copy are here: they go, encrypted or decrypted, to the destination; those read again, to the destination write
that waits for them (R81, R94, R122, R125 to R127). -/
def State.copySrcRead (s : State) (f : FuncId) (r slot : Nat) (x : XResult) : State :=
  match s.job f r slot with
  | none => s
  | some j => match x with
    | .ok bytes =>
      let dst := keyIndex (BitVec.ofNat 32 (leAt j.ent 20 4))
      let again := (s.xfers.find? (fun (q : Nat × Xfer) => q.2.purpose == .copyDst f r slot && q.2.phase == .reread)).map Prod.fst
      let place := fun (st : State) (data : Bytes) (status : Nat) =>
        let s1 := st.modJob f r slot (fun v => { v with phase := .writing, status := status })
        match again with
        | some x => (s1.modXfer x (fun v => { v with data := data, phase := .parked })).tryXfer x
        | none => s1.startXfer f dst (copyDstRuns j) true data (.copyDst f r slot)
      match j.ext 2 with
      | none => place s bytes stOk
      | some c => match tget s.keys (leAt c 8 4) with
        | none => s.failCopy f r slot stBadEntry
        | some k =>
          let aad := (c.drop 40).take (leAt c 5 1)
          if leAt c 4 1 = 1 then
            let e := gcmEncrypt k.key j.nonce aad bytes
            if again.isSome then place s e.1 stOk
            else (place s e.1 stOk).startWrite f (BitVec.ofNat 32 (leAt c 24 4)) (leAt c 32 8) e.2 (.copyTagOut f r slot)
          else
            let e := gcmDecrypt k.key ((c.drop 12).take 12) aad bytes j.data
            place s e.1 (if e.2 then stOk else stAuthFail)
    | _ => s.failCopy f r slot x.status

/-- A destination transfer of a copy has ended. -/
def State.copyPlaced (s : State) (f : FuncId) (r slot : Nat) (x : XResult) : State :=
  match x with
  | .ok _ => s.checkCopy f r slot
  | _ => s.failCopy f r slot x.status

/-! ### Network and raw requests (R148 to R151, R247, R249) -/

/-- The extensions an opcode allows (R148). -/
def allowedExts (op : Nat) : List Nat :=
  if op = 0x10 then [3, 4, 5] else if op = 0x11 then [3] else if op = 0x12 then [3, 5] else if op = 0x13 then []
  else [3, 6]

/-- The fields and extensions of a network request are not valid (R148 to R150, R165). -/
def netBad (c : Conn) (j : Job) : Bool :=
  let op := entOp j.ent
  let kinds := j.exts.map entOp
  let atomic := decide (op ≥ 0x14)
  kinds.any (fun k => !(allowedExts op).contains k) || !kinds.Nodup || (atomic && !kinds.contains 6) ||
  decide (netLen j.ent > 2 ^ 31) || (atomic && netLen j.ent != 8) ||
  (match j.ext 4 with | some x => leAt x 8 8 % 8 != 0 | none => false) ||
  (!c.native && (op == 0x16 || kinds.contains 4))

/-- TX_CTRL of a raw SEND (R249). -/
def rawCtrl (e : Bytes) : Nat := netRKey e

/-- A raw SEND is not valid on its port (R249). -/
def rawBad (maxFrame : Nat) (e : Bytes) : Bool :=
  let len := netLen e + (if bit (rawCtrl e) 16 then 4 else 0)
  decide (netLen e < 14) || decide (len + 4 > maxFrame) || netROff e != 0

/-- The logical port of a raw queue number. -/
def rawPort (q : Nat) : LPort := ⟨q / 16 % 32, by omega⟩

/-- Puts the module's own frames and the raw frames that have their bytes into their class queues, while those have room and the shapers
of their ring allow (R215, R217, R249). -/
def State.rawFlush (s : State) : State :=
  let s0 := forEach (List.finRange 32) s (fun st p => if (st.port p).own.isEmpty then st else st.flushOwn p)
  let jobs := allFuncs.flatMap (fun f => (s0.func f).rings.flatMap (fun q => match q.2.rawq with
    | none => []
    | some n => (q.2.jobs.filter (fun j => j.phase == .sending && isRaw q.2 j.ent)).map (fun j => (f, q.1, n, j))))
  forEach jobs s0 (fun st (w : FuncId × Nat × Nat × Job) =>
    let (f, r, n, j) := w
    let p := rawPort n
    let x := rawCtrl j.ent
    let cls := bits x 20 18
    let sh := match st.ring f r with
      | some g => g.shapers
      | none => []
    if !st.canEnqueue p cls then st
    else if !st.shapersOpen f sh then st.shapersHold f sh
    else
      let b := if bit x 16 then j.data.take 12 ++ beBytes 2 0x8100 ++ beBytes 2 (bits x 15 0) ++ j.data.drop 12 else j.data
      let fr : TxFrame := .raw (b ++ zeros (60 - b.length))
      let st1 := (st.shapersCharge f sh (wireBytes fr.len)).enqueue p cls ⟨fr, fr.len, some f, some (f, r, j.slot), bit x 17, false⟩
      st1.modJob f r j.slot (fun v => { v with phase := .writing, data := [] }))

/-- The bytes of a raw frame have been read. -/
def State.rawSrcDone (s : State) (f : FuncId) (r slot : Nat) (x : XResult) : State :=
  match x with
  | .ok bytes => (s.modJob f r slot (fun j => { j with data := bytes, phase := .sending })).rawFlush
  | _ => s.finishJob f r slot x.status

/-- Starts a RECV or SEND of a raw queue (R247, R249). -/
def State.startRaw (s : State) (f : FuncId) (r q : Nat) (j : Job) : State :=
  let p := rawPort q
  let key := netKey j.ent
  if entOp j.ent = 0x13 then
    if !j.exts.isEmpty then s.finishJob f r j.slot stBadEntry
    else if (s.accessOk f key accLocalWrite (netOff j.ent) (netLen j.ent)).isNone then s.accessFault f r j.slot
    else s.modJob f r j.slot (fun v => { v with phase := .posted })
  else if entOp j.ent = 0x12 then
    if rawBad (s.port p).maxFrame j.ent || j.exts.any (fun x => entOp x != 3) || j.exts.length > 1 then s.finishJob f r j.slot stBadEntry
    else if (s.accessOk f key accLocalRead (netOff j.ent) (netLen j.ent)).isNone then s.accessFault f r j.slot
    else s.startRead f key (netOff j.ent) (netLen j.ent) (.rawSrc f r j.slot)
  else s.finishJob f r j.slot stBadEntry

/-- Starts a network request; it keeps the parameters now in force (R15, R148 to R151). -/
def State.startNet (s : State) (f : FuncId) (r : Nat) (g : Ring) (j : Job) : State :=
  if isRaw g j.ent then s.startRaw f r (g.rawq.getD 0) j
  else match s.boundConn f r j.ent with
    | none => s.finishJob f r j.slot stBadEntry
    | some (n, c) =>
      let op := entOp j.ent
      let right := if op = 0x10 ∨ op = 0x12 then accLocalRead else accLocalWrite
      if g.rawq.isSome || netBad c j then s.finishJob f r j.slot stBadEntry
      else if c.state = .error then s.finishJob f r j.slot stTransport
      else if (s.accessOk f (netKey j.ent) right (netOff j.ent) (netLen j.ent)).isNone then s.accessFault f r j.slot
      else if op = 0x13 then s.modJob f r j.slot (fun v => { v with phase := .posted })
      else
        let s1 := (((s.touchConn n).modConn n (fun v => if v.clampDue && !s.oldSettings v then v.clamped else v)).modTx n (fun t => { t with
          queue := t.queue ++ [(r, j.slot)] })).modJob f r j.slot (fun v => { v with phase := .sending, settings := some (c.xport, c.cc) })
        s1.readNext f r j.slot c

/-- Starts a collective request: exactly one COLL_ARGS and at most a WAIT beside it (R264). -/
def State.startColl (s : State) (f : FuncId) (r : Nat) (j : Job) : State :=
  let kinds := j.exts.map entOp
  match j.ext 8 with
  | none => s.finishJob f r j.slot stBadEntry
  | some x =>
    if kinds.any (fun k => k != 8 && k != 3) || !kinds.Nodup then s.finishJob f r j.slot stBadEntry
    else s.launch f r j x

/-! ### Starting a request (R106, R110, R161) -/

/-- What every request must have right: TRIGGER and its counter, CQE, the counter of a WAIT (R102, R103, R128, R163). -/
def State.requestBad (s : State) (f : FuncId) (g : Ring) (j : Job) : Bool :=
  let t := entTrigger j.ent
  let gone := fun (n : Nat) => !thas (s.func f).trigs n
  trigKind t == 3 || (trigKind t == 1 && gone (bits t 15 0)) || (match waitOf j.exts with | some w => gone w.1 | none => false) ||
  (if g.c4 then trigKind t == 0 || entCqe j.ent else entCqe j.ent && g.cq.isNone)

/-- Starts the held request of a ring. -/
def State.startHeld (s : State) (f : FuncId) (r : Nat) (g : Ring) : State :=
  let j := jobOf g.started (g.held.headD []) (g.held.drop 1)
  match s.takeJob f r g j g.held.length with
  | none => s
  | some s1 =>
    let wait := s.time - g.waitSince
    let s1a := match (if g.kind = .copy then none else waitOf j.exts) with
      | some w => s1.traceRecord (dieOf f) f 0x04 r w.1 w.2 wait
      | none => s1
    let s1b := if entFence j.ent then s1a.traceRecord (dieOf f) f 0x05 r (indexOf g.n g.lastDone) (indexOf g.n j.slot) wait else s1a
    let s2 := s1b.modRing f r (fun v => { v with turn := v.turn + 1 })
    if s.requestBad f g j then s2.finishJob f r j.slot stBadEntry
    else match g.kind with
      | .copy => s2.startCopy f r g j
      | .send => s2.startNet f r g j
      | .coll => s2.startColl f r j

/-- A start row: the ring's next request starts when the arbiter picks the ring and the request is one the row names (R106,
R110). A context that the request needs is fetched (R142). -/
def State.startRow (s : State) (f : FuncId) (r : Nat) (is : Ring → Bytes → List Bytes → Bool) : State :=
  match s.ring f r with
  | none => s
  | some g0 =>
    if !s.power.on || s.stop.stopped then s
    else
      let s0 := s.judgeHeld f r
      match s0.ring f r with
      | none => s0
      | some g =>
        let e := g.held.headD []
        if g0.error || chainOf g.held != .complete || !is g e (g.held.drop 1) then s0
        else
          let s1 := match (if g.kind = .send ∧ !isRaw g e then s0.boundConn f r e else none) with
            | some (n, c) => if c.ctx = CtxState.cached then s0 else s0.fetchContext n
            | none => s0
          match s1.arbiter (dieOf f) with
          | (s2, some (h, k)) =>
            if h = f ∧ k = r then (match s2.ring f r with
              | some g2 => (s2.startHeld f r g2).refreshSet (dieOf f)
              | none => s2) else s2
          | (s2, none) => s2

/-! ### Entry reads (R104, R109, R469) -/

/-- The slot whose entry is read next: the linear index after the entries held. -/
def Ring.nextRead (g : Ring) : Nat := (g.started + g.held.length) % (2 * g.n)

/-- An entry read is due: the producer index covers the slot, and the request is not yet whole. R109 lets the module read up to eight
entries ahead, even beyond the producer; this one reads one at a time and none before a doorbell covers it: DESIGN CHOICE (log entry
52). -/
def Ring.wantsRead (g : Ring) : Bool := !g.error && chainOf g.held == .incomplete && g.nextRead != g.prod

/-- Begins the entry reads that are due and not outstanding: through the ring's region, with its translation, its fence and its place in
HBM as for every access (R86, R89, R91, R98, R104). A function in D3hot issues none (R419). -/
def State.readEntries (s : State) : State :=
  if !s.power.on || s.stop.stopped then s
  else forEach s.funcs s (fun st (q : Nat × Func) =>
    if h : q.1 < 256 then
      let f : FuncId := ⟨q.1, h⟩
      if st.fenced f || q.2.cfg.d3hot then st
      else forEach (q.2.rings.filter (fun (g : Nat × Ring) => g.2.wantsRead)) st (fun w (g : Nat × Ring) =>
        if w.xfers.any (fun x => match x.2.purpose with
          | .ringEntry a b _ => a == f && b == g.1
          | _ => false) then w
        else w.startXfer f (keyIndex g.2.key) [(g.2.offset + 64 * (g.2.nextRead % g.2.n), 64)] false [] (.ringEntry f g.1 false))
    else st)

/-- A transfer reads an entry of a ring. -/
def Xfer.readsEntry (t : Xfer) (f : FuncId) (r : Nat) : Bool :=
  match t.purpose with
  | .ringEntry a b _ => a == f && b == r
  | _ => false

/-- The outstanding read of a ring's entry, once it is issued. -/
def State.entryXfer (s : State) (f : FuncId) (r : Nat) : Option (Nat × Xfer) :=
  s.xfers.find? (fun (q : Nat × Xfer) => q.2.phase == .issued && q.2.readsEntry f r)

/-- A ring-entry read has ended. An entry with OWNER and the right LAP is accepted; another is read again, up to four times, and then the
request completes with BAD_ENTRY (R104, R109). A read that failed in itself ends the request with MEMORY_ERROR or TRANSLATION_FAULT
(R344, R469). The completion of an entry that no copy of which passed R104 takes USER_DATA, OPCODE and CQE from the last copy read: DESIGN
CHOICE, R109 names none (log entry 53). -/
def State.entryTaken (s : State) (f : FuncId) (r : Nat) (last : Bool) (x : XResult) : State :=
  match s.ring f r with
  | none => s
  | some g =>
    if !g.wantsRead || s.fenced f then s
    else
      let l := g.nextRead
      match x with
      | .ok b =>
        if entOwner b ∧ entLap b = l / g.n % 2 then
          let held := g.held ++ [b]
          let since := if chainOf held = .complete then s.time else g.waitSince
          let s1 := s.modRing f r (fun v => { v with held := held, fetching := none, waitSince := since })
          (s1.judgeHeld f r).refreshSet (dieOf f)
        else
          let k := g.fetching.getD 0
          if k ≥ 4 ∨ last then
            s.badRequest f r g g.started ((g.held ++ [b]).headD []) ((g.held ++ [b]).drop 1) (g.held.length + 1) stBadEntry
          else s.modRing f r (fun v => { v with fetching := some (k + 1) })
      | .memError => s.badRequest f r g l [] [] (g.held.length + 1) stMemoryError
      | .xlateFault => s.badRequest f r g l [] [] (g.held.length + 1) stTranslationFault
      | .fenced => s.badRequest f r g l [] [] (g.held.length + 1) stTranslationFault
      | .pageWait => s.badRequest f r g l [] [] (g.held.length + 1) stTranslationFault
      | .gone => s.badRequest f r g l [] [] (g.held.length + 1) stTranslationFault

/-- A ring-entry read returns its bytes; those of a ring in module memory are what its block holds. `last`: no reread follows (R104,
R109). -/
def State.entryRead (s : State) (f : FuncId) (r : Nat) (bytes : Bytes) (last : Bool) (obs : BlockObs) : State :=
  match s.entryXfer f r with
  | none => s
  | some (x, t) =>
    let s1 := s.modXfer x (fun v => { v with purpose := .ringEntry f r last })
    if t.pieces.any (fun p => p.host) then s1.hostReadDone x bytes else s1.memReadDone x [obs]

/-- A ring-entry read fails in itself: its block is uncorrectable, or its translation fails (R344, R469). -/
def State.entryFault (s : State) (f : FuncId) (r : Nat) (cause : EntryFault) : State :=
  match s.xfers.find? (fun (q : Nat × Xfer) => q.2.readsEntry f r) with
  | none => s
  | some (x, t) =>
    match cause with
    | .memory => if t.phase = .issued ∧ !t.pieces.any (fun p => p.host) then s.memReadDone x [.uncorrectable] else s.endXfer x .memError
    | .translation => s.endXfer x .xlateFault

end Sys2Proof.Machine
end

