-- ==== Sys2Proof/Machine/Runs.lean ====
section
/-! DEFINITION. Machine/Runs.lean: drill-program runs: what a program's operations compute (R291 to R312), the start of a run
(R322, R323, R332), its inputs and outputs (R323 to R329), deterministic schedules (R330), gleans (R444), aborts (R321, R326,
R388, R389, R415). -/

namespace Sys2Proof.Machine

/-! ### Local stores, exchange buffers, flag words (R291, R311, R312) -/

/-- Number of a tine: (furrow × 16 + core) × 16 + logical tine. -/
def tineNo (fur core tine : Nat) : Nat := (fur * 16 + core) * 16 + tine

/-- Number of the tine a location is of, or of the tine that makes the access. -/
def locTine (l : Loc) : Nat := tineNo l.furrow.val l.core.val l.tine.val

/-- Address of a location in the local stores or the exchange buffers. -/
def locAddr (l : Loc) : Nat :=
  if l.exchange then (l.furrow.val * 16 + l.core.val) * 65536 + l.addr else locTine l * 32768 + l.addr

/-- A byte of an exchange buffer, free where it is undefined. -/
def State.exByte (s : State) (a : Nat) : Byte := if inRanges s.tines.exUndef a then Config.freeByte s.free a else mget s.tines.exchange a

/-- `n` bytes at a location: those where a load put code and weights are undefined, since the manual gives their places to the library
(R313, R316; log entry 25). A byte of an exchange buffer that another tine has written since the last core barrier is the old or the new
one, which a free value decides (R292). -/
def State.tineRead (s : State) (l : Loc) (n : Nat) : Bytes :=
  (List.range n).map (fun i =>
    let a := (locAddr l) + i
    if l.exchange then
      (match tget s.tines.fresh a with
      | some w => if w.2 ≠ locTine l ∧ (Config.freeByte s.free a).toNat % 2 = 1 then w.1 else s.exByte a
      | none => s.exByte a)
    else if inRanges s.tines.undef a then Config.freeByte s.free a else mget s.tines.localStore a)

/-- Bytes into a local store or an exchange buffer. -/
def State.storeWrite (s : State) (l : Loc) (bs : Bytes) : State :=
  let t := s.tines
  let a := locAddr l
  if l.exchange then { s with tines := { t with exchange := mwrite t.exchange a bs, exUndef := cutRanges t.exUndef a bs.length } }
  else { s with tines := { t with localStore := mwrite t.localStore a bs, undef := cutRanges t.undef a bs.length } }

/-- Bytes that nothing determines. -/
def freeBytes (use slot n : Nat) : Bytes := (List.range n).map (fun i => Config.freeByte use (slot * 2 ^ 32 + i))

/-- The stream engine writes aligned 64-byte blocks at a location: what fills the last one is free, and a tine that reads the blocks later
finds them whole (R292). -/
def State.streamWrite (s : State) (l : Loc) (bs : Bytes) : State :=
  let n := roundUp bs.length 64
  let s1 := s.storeWrite l (bs ++ freeBytes s.free (locAddr l) (n - bs.length))
  if l.exchange then { s1 with tines := { s1.tines with
    fresh := s1.tines.fresh.filter (fun w => !(decide (locAddr l ≤ w.1) && decide (w.1 < locAddr l + n))) } }
  else s1

/-- A tine writes bytes at a location; in an exchange buffer the others see them for certain behind the next core barrier only (R292). -/
def State.tineWrite (s : State) (l : Loc) (bs : Bytes) : State :=
  let s1 := s.storeWrite l bs
  if !l.exchange then s1
  else
    let fresh := (List.range bs.length).foldl (fun t i =>
      let a := locAddr l + i
      tset t a ((match tget t a with | some w => w.1 | none => s.exByte a), locTine l)) s.tines.fresh
    { s1 with tines := { s1.tines with fresh := fresh } }

/-- Every write to a core's exchange buffer is visible (R292). -/
def State.barrier (s : State) (core : Nat) : State :=
  { s with tines := { s.tines with fresh := s.tines.fresh.filter (fun w => decide (w.1 / 65536 ≠ core)) } }

/-- The stores of one cycle, in the order of the tines: of a byte that two write, the higher one's is kept (R292). -/
def State.sameCycle (s : State) (l : List (Loc × Bytes)) : State :=
  forEach (List.range 16) s (fun st k => forEach (l.filter (fun w => w.1.tine.val == k)) st (fun v w => v.tineWrite w.1 w.2))

/-- Sets flags of a tine; they are sticky (R311). -/
def State.tineFlags (s : State) (n fl : Nat) : State :=
  if fl = 0 then s
  else { s with tines := { s.tines with flags := tset s.tines.flags n (tgetD s.tines.flags n 0 ||| BitVec.ofNat 32 fl) } }

/-- The tines that a program binds: TINES logical tines of each of its cores (R319, R321). -/
def Prog.tineList (p : Prog) : List Nat := p.coreList.flatMap (fun k => (List.range p.tines).map (fun t => k * 16 + t))

/-- Clears the flag words of a program's tines (R312). -/
def State.clearFlags (s : State) (p : Prog) : State :=
  { s with tines := { s.tines with flags := s.tines.flags.filter (fun q => !p.tineList.contains q.1) } }

/-- The run flag word: OR over the program's tines (R312). -/
def State.runFlags (s : State) (p : Prog) : Word32 :=
  (s.tines.flags.filter (fun q => p.tineList.contains q.1)).foldl (fun a q => a ||| q.2) 0

/-! ### Operations (R296 to R310) -/

/-- `n` elements of a format from packed bytes (R300). -/
def unpack (f : Fmt) (n : Nat) (bs : Bytes) : List Nat :=
  let v := leNat bs
  let w := fmtBits f
  (List.range n).map (fun i => v / 2 ^ (w * i) % 2 ^ w)

/-- Bytes of `n` packed elements. -/
def packedLen (f : Fmt) (n : Nat) : Nat := f.packed n

/-- Elements packed into bytes (R300). -/
def pack (f : Fmt) (l : List Nat) : Bytes :=
  leBytes (packedLen f l.length) ((l.zipIdx).map (fun p => p.1 * 2 ^ (fmtBits f * p.2))).sum

/-- An integer element: two's complement (R304). -/
def intElem (f : Fmt) (n : Nat) : Int := if n ≥ 2 ^ (fmtBits f - 1) then (n : Int) - 2 ^ fmtBits f else n

/-- The rounding of an arithmetic instruction: RNE under DEFAULT or DEFAULT_RND STOCHASTIC (R306). -/
def arithMode (p : Prog) (r : Rnd) : Mode :=
  match r with
  | .rtz => .rtz
  | .dflt => if p.rnd = 2 then .rtz else .rne
  | .rne => .rne
  | .stochastic => .rne

/-- u of R308 for an element. -/
def drawU (r : Run) (stream : BitVec 16) (index : Nat) : Nat :=
  philox r.seed.toNat r.num (index % 2 ^ 32) (index / 2 ^ 32 % 2 ^ 32) stream.toNat 0

/-- The rounding of a conversion (R306 to R308). -/
def convMode (p : Prog) (r : Run) (rnd : Rnd) (stream : BitVec 16) (index : Nat) : Mode :=
  let sto : Mode := .sr (drawU r stream index)
  match rnd with
  | .rne => .rne
  | .rtz => .rtz
  | .stochastic => sto
  | .dflt => if p.rnd = 2 then .rtz else if p.rnd = 3 then sto else .rne

/-- SAT of a conversion (R306): the default is ON. -/
def convSat (p : Prog) (sat : Sat) : Bool :=
  match sat with
  | .on => true
  | .off => false
  | .dflt => p.sat != 1

/-- The value of an FP32 word in the array. -/
def State.fp32At (s : State) (l : Loc) : FVal := decodeF .fp32 (leNat (s.tineRead l 4))

/-- A signed number of 20 bytes, little-endian (R301). -/
def gridAt (b : Bytes) : Int := let n := leNat b; if n ≥ 2 ^ 159 then (n : Int) - 2 ^ 160 else n

/-- A grid value as 20 bytes. -/
def gridBytes (v : Int) : Bytes := leBytes 20 (v % 2 ^ 160).toNat

/-- An operation of a run: its result and its flags (R301 to R310). -/
def State.tineOp (s : State) (p : Prog) (r : Run) (o : TineOp) : State :=
  match o with
  | .fma rnd a b c d =>
    let v := dotSum (arithMode p rnd) [(s.fp32At a, s.fp32At b)] 0 (s.fp32At c)
    (s.tineWrite d (leBytes 4 v.1)).tineFlags (locTine d) v.2
  | .dot rnd fa fb n a b c d =>
    let xs := (unpack fa n (s.tineRead a (packedLen fa n))).map (decodeF fa)
    let ys := (unpack fb n (s.tineRead b (packedLen fb n))).map (decodeF fb)
    let v := dotSum (arithMode p rnd) (xs.zip ys) 0 (s.fp32At c)
    (s.tineWrite d (leBytes 4 v.1)).tineFlags (locTine d) v.2
  | .idot f n a b c d =>
    let xs := (unpack f n (s.tineRead a (packedLen f n))).map (intElem f)
    let ys := (unpack f n (s.tineRead b (packedLen f n))).map (intElem f)
    let c0 := leNat (s.tineRead c 4)
    let v := idotSum (xs.zip ys) (if c0 ≥ 2 ^ 31 then (c0 : Int) - 2 ^ 32 else c0)
    (s.tineWrite d (leBytes 4 (v.1 % 2 ^ 32).toNat)).tineFlags (locTine d) v.2
  | .mxDot rnd fa fb a sa b sb c d =>
    let xa := leNat (s.tineRead sa 1)
    let xb := leNat (s.tineRead sb 1)
    let v :=
      if xa = 255 ∨ xb = 255 then (0x7FC00000, fNanIn)
      else
        let xs := (unpack fa 32 (s.tineRead a (packedLen fa 32))).map (decodeF fa)
        let ys := (unpack fb 32 (s.tineRead b (packedLen fb 32))).map (decodeF fb)
        dotSum (arithMode p rnd) (xs.zip ys) ((xa : Int) + xb - 254) (s.fp32At c)
    (s.tineWrite d (leBytes 4 v.1)).tineFlags (locTine d) v.2
  | .convert rnd sat src dst n stream index a d =>
    let xs := (unpack src n (s.tineRead a (packedLen src n))).map (decodeF src)
    let vs := xs.zipIdx.map (fun x =>
      let mode := convMode p r rnd stream (index.toNat + x.2)
      if dst = .e8m0 then toE8m0 mode ((Config.freeResult s.free).toNat / 2 ^ (12 * x.2) % 2 ^ 12) x.1
      else convertTo dst mode (convSat p sat) x.1)
    (s.tineWrite d (pack dst (vs.map Prod.fst))).tineFlags (locTine d) (vs.foldl (fun a v => a ||| v.2) 0)
  | .mxToFp32 rnd sat src n stream index a sc d =>
    let x := leNat (s.tineRead sc 1)
    let scaled := fun (v : FVal) => if x = 0xFF then FVal.nan else match v with
      | .fin neg m e => FVal.fin neg m (e + x - 127)
      | w => w
    let xs := (unpack src n (s.tineRead a (packedLen src n))).map (fun w => scaled (decodeF src w))
    let vs := xs.zipIdx.map (fun v => convertTo .fp32 (convMode p r rnd stream (index.toNat + v.2)) (convSat p sat) v.1)
    (s.tineWrite d (pack .fp32 (vs.map Prod.fst))).tineFlags (locTine d) (vs.foldl (fun a v => a ||| v.2) 0)
  | .mxConvert rnd dst stream index a d sc =>
    let xs := (unpack .fp32 32 (s.tineRead a 128)).map (decodeF .fp32)
    let v := mxConvertBlock dst (fun i => convMode p r rnd stream (index.toNat + i)) xs
    ((s.tineWrite d (pack dst v.1)).tineWrite sc (leBytes 1 v.2.1)).tineFlags (locTine d) v.2.2
  | .toGrid sc a d =>
    let v := gridOf sc (s.fp32At a)
    (s.tineWrite d (gridBytes v.1)).tineFlags (locTine d)
      ((if v.2.1 then fClipped else 0) + (if v.2.2.1 then fNanIn else 0) + (if v.2.2.2 then fInexact else 0))
  | .gridAdd a b d => s.tineWrite d (gridBytes (gridAt (s.tineRead a 20) + gridAt (s.tineRead b 20)))
  | .fromGrid sc rnd dst n stream index a d =>
    let vs := (List.range n).map (fun i =>
      let x := gridAt ((s.tineRead a (20 * n)).drop (20 * i) |>.take 20)
      let mode := convMode p r rnd stream (index.toNat + i)
      let v := gridRound dst mode sc x
      let q := roundMag dst mode x.natAbs (sc - 120)
      (v.1, (if v.2 then fOverflow else 0) ||| (if q.inexact || q.ovf then fInexact else 0) ||| (if q.inexact && q.tiny then fUnderflow else 0)))
    (s.tineWrite d (pack dst (vs.map Prod.fst))).tineFlags (locTine d) (vs.foldl (fun a v => a ||| v.2) 0)
  | .put d bytes => s.tineWrite d bytes
  | .puts l => s.sameCycle l
  | .coreBarrier f c => s.barrier (f.val * 16 + c.val)
  | .memCorrected l => s.tineFlags (locTine l) fMemCorrected
  | .streamIn _ _ _ _ => s
  | .streamOut _ _ _ => s
  | .memFailed _ _ => s

/-- The module memory that a furrow's stream reaches: the program's Tilth there, its HBM, or what a descriptor names; none past its end
(R291, R327, R355). -/
def Prog.streamRuns (p : Prog) (fur : Nat) (e : StreamEnd) (len : Nat) : Option (List (Nat × Nat)) :=
  let cut := fun (l : List (Nat × Nat)) (off : Nat) => if off + len ≤ (l.map Prod.snd).sum then some (cutRuns l off len) else none
  let own := fun (tilth : Bool) => (p.storage.filter (fun q => inTilth q.1 == tilth && (!tilth || sliceOf q.1 == fur))).map (fun q => (q.1, roundUp q.2 64))
  match e with
  | .tilth off => cut (own true) off
  | .hbm off => cut (own false) off
  | .descriptor k off => match p.descs[k]? with
    | none => none
    | some d => if d.addr % 64 = 0 then cut [(d.addr, d.len)] off else none

/-- A program's weights in Tilth and HBM (R327). -/
def State.weightsOf (s : State) (p : Prog) : List (Nat × Nat) :=
  if p.weightsKey = 0 then [] else match s.region p.weightsKey with
    | some r => r.runs
    | none => []

/-- The stream engine moves blocks from Tilth or HBM into a store; an uncorrectable block ends the run (R291, R326, R327). -/
def State.streamIn (s : State) (p : Prog) (src : StreamEnd) (d : Loc) (len : Nat) (obs : List BlockObs) : State × Option (Option Loc × Bool) :=
  match p.streamRuns d.furrow.val src len with
  | none => (s, none)
  | some l =>
    let s0 := forEach l s (fun st q => (st.fabSend (.furrow d.furrow.val) (st.unitOfAddr q.1) .dreq 0).fabSend (st.unitOfAddr q.1) (.furrow d.furrow.val) .drsp q.2)
    let e := s0.readRuns l obs
    if !e.2.2 then (e.1.streamWrite d e.2.1, none)
    else
      let bad := (l.flatMap (fun q => blocksOf q.1 q.2)).filter (fun b => e.1.mem.poison.contains b || e.1.mem.fallowAt (b * 64))
      (e.1, some (none, bad.any (fun b => (s.weightsOf p).any (fun w => overlap w.1 w.2 (b * 64) 64))))

/-- The stream engine moves blocks from a store to Tilth or HBM (R291, R327). -/
def State.streamOut (s : State) (n : Nat) (p : Prog) (a : Loc) (dst : StreamEnd) (len : Nat) : State :=
  match p.streamRuns a.furrow.val dst len with
  | none => s
  | some l =>
    let s0 := forEach l s (fun st q => st.fabSend (.furrow a.furrow.val) (st.unitOfAddr q.1) .dreq q.2)
    s.ownWrite (s0.writeRuns l (s.tineRead a len)) n

/-- What a program carries out, up to the first uncorrectable error: the store it was in, if one, and whether in weights (R292,
R326). -/
def State.tineOps (s : State) (n : Nat) (p : Prog) (r : Run) : List TineOp → State × Option (Option Loc × Bool)
  | [] => (s, none)
  | .memFailed l w :: _ => (s, some (l, w))
  | .streamIn src d len obs :: rest =>
    let e := s.streamIn p src d len obs
    (match e.2 with
    | some x => (e.1, some x)
    | none => e.1.tineOps n p r rest)
  | .streamOut a dst len :: rest => let t := s.streamOut n p a dst len; { t with free := t.free + 1 }.tineOps n p r rest
  | o :: rest => let t := s.tineOp p r o; { t with free := t.free + 1 }.tineOps n p r rest

/-- `n` bytes in the stores of a program's own tines: its cores and TINES (R291, R314). -/
def Prog.reaches (p : Prog) (l : Loc) (n : Nat) : Bool :=
  l.holds n && p.coreList.contains (l.furrow.val * 16 + l.core.val) && decide (l.tine.val < p.tines)

/-- An operation a program can carry out: every byte of its operands lies in the stores of the program's own tines, and but for the stores
of several tines one tine carries it out, which reaches its own local store and its core's exchange buffer (R291, R295); a stream stays in
what the program may reach (R355). -/
def Prog.can (p : Prog) (o : TineOp) : Bool :=
  o.wf && o.spans.all (fun q => p.reaches q.1 q.2) &&
  (match o with
   | .puts _ => true
   | .coreBarrier f c => p.coreList.contains (f.val * 16 + c.val)
   | .streamIn src d len _ => (p.streamRuns d.furrow.val src len).isSome
   | .streamOut a dst len => (p.streamRuns a.furrow.val dst len).isSome
   | _ => o.spans.all (fun q => o.spans.all (fun k => locTine k.1 == locTine q.1)))

/-- A piece that a program's stream engines move (R291, R292). -/
def Prog.canMove (p : Prog) (w : Piece) : Bool := w.wf && p.reaches w.loc w.len

/-- A run goes on past the operation: it is no uncorrectable error (R292). -/
def TineOp.goesOn (o : TineOp) : Bool :=
  match o with
  | .memFailed _ _ => false
  | _ => true

/-- Corrected local-store errors of a tine over 24 hours (R386). -/
def State.noteStore (s : State) (o : TineOp) : State :=
  match o with
  | .memCorrected l =>
    if l.exchange then s
    else { s with tines := { s.tines with
      storeErrors := tset s.tines.storeErrors (locTine l) (lastDay s.uptime (tgetD s.tines.storeErrors (locTine l) []) ++ [s.uptime]) } }
  | _ => s

/-! ### Furrows (R332, R333) -/

/-- A program keeps its furrows warm from load to unload (R333). -/
def Prog.keepsWarm (p : Prog) : Bool := p.deterministic || p.keepWarm

/-- The program bound to a furrow. -/
def State.progAt (s : State) (fur : Nat) : Option (Nat × Prog) := s.progs.find? (fun q => q.2.furrows.contains fur)

/-- Warms furrows (R332). -/
def State.warm (s : State) (l : List Nat) : State := { s with tines := { s.tines with warm := l.foldl linsert s.tines.warm } }

/-- Whether a furrow clock is lowered (R330, R454, R457). -/
def State.slowed (s : State) (p : Prog) : Bool := p.furrows.any (fun f => tgetD s.tines.clock f 1000 < 1000)

/-- Every run that a lowered furrow serves counts as DET_LATE (R330, R454, R457). -/
def State.markLate (s : State) : State :=
  { s with progs := s.progs.map (fun q => (q.1, { q.2 with current := q.2.current.map (fun (r : Run) =>
    { r with late := r.late || (q.2.deterministic && s.slowed q.2) }) })) }

/-! ### The end of a run (R323 to R326, R329, R334) -/

/-- Drops the transfers of a run. -/
def State.dropRunXfers (s : State) (n : Nat) : State :=
  let ids := (s.xfers.filter (fun (q : Nat × Xfer) => q.2.purpose.ofRun n)).map Prod.fst
  let s1 := forEach ids s (fun st x => st.dropXfer x)
  { s1 with agenda := s1.agenda.filter (fun a => !a.1.ofRun n) }

/-- A binding of an output of a kind. -/
def Prog.outputsOf (p : Prog) (kind : Nat) : List Binding := p.bindings.filter (fun b => b.output && b.kind == kind)

/-- An input binding by slot. -/
def Prog.input (p : Prog) (i : Nat) : Option Binding := p.bindings.find? (fun b => !b.output && b.index == i)

/-- Bytes of a run's outputs, frames included (R324). -/
def Prog.outputBytes (p : Prog) : Nat :=
  ((p.bindings.filter (fun b => b.output && b.kind != 2)).map (fun b => if b.kind = 1 then b.c + b.bytes else b.bytes)).sum

/-- Changes the current run of a program. -/
def State.modRun (s : State) (n : Nat) (g : Run → Run) : State := s.modProg n (fun q => { q with current := q.current.map g })

/-- Marks the REGION outputs of a program undefined, where they lie in module memory (R19, R325, R329). -/
def State.undefineOutputs (s : State) (p : Prog) : State :=
  s.undefineRuns ((p.outputsOf 0).flatMap (fun b => s.localRuns (BitVec.ofNat 32 b.a) b.b b.bytes))

/-- The results of a run whose inputs or weights were written over are undefined: outputs, counter values and flags (R325, R327). -/
def Run.resolved (r : Run) (use : Nat) : Run :=
  if !r.spoilt then r
  else { r with
    outputs := r.outputs.map (fun q => (q.1, freeBytes use q.1 q.2.length))
    added := r.added.zipIdx.map (fun q => (Config.freeWord (use + 1 + q.2)).toNat % 2 ^ 32)
    flags := (Config.freeWord use).setWidth 32 &&& 0x7F }

/-- The current run with its results as they are to be used. -/
def State.resolveRun (s : State) (n : Nat) : State :=
  { (s.modRun n (fun r => r.resolved s.free)) with free := s.free + 1 + ((s.prog n).bind (fun p => p.current.map (fun r => r.added.length))).getD 0 }

/-- The last step of a run: the program is READY, or FAILED, again; a glean that did not come is MISSED (R322, R326, R332, R444). -/
def State.closeRun (s0 : State) (n : Nat) (p : Prog) (r : Run) : State :=
  let s := if r.spoilt then s0.undefineOutputs p else s0
  let missed := p.glean.state == 1 && p.glean.run == r.num
  let s1 := s.modProg n (fun q => { q with
    current := none
    state := if r.fails then .failed else if q.state = .running then .ready else q.state
    waitSince := s.time
    lastFlags := r.flags
    detLate := if p.deterministic && r.late then satAdd max32 q.detLate 1 else q.detLate
    runs := satAdd max64 q.runs 1
    glean := if missed then { q.glean with state := 3 } else q.glean })
  let t := { s1.tines with ramps := lerase s1.tines.ramps n, ranAt := p.furrows.foldl (fun a f => tset a f s.time) s1.tines.ranAt }
  (({ s1 with tines := t }.count p.func cntRuns 1).count p.func cntTineCycles (p.tineList.length * r.cycles))

/-- The completion entry of a run (R324). -/
def Run.cqe (r : Run) (n : Nat) (p : Prog) : Cqe :=
  ⟨n * 2 ^ 32 + r.num, if r.status = stOk then p.outputBytes else 0, 0, 0, 0xA0, r.status, 0, r.flags.toNat, false, false⟩

/-- Step 7: the completion entry, once an entry is reserved for it (R323, R324). -/
def State.postRun (s0 : State) (n : Nat) : State :=
  let s := s0.resolveRun n
  match s.prog n with
  | none => s
  | some p => match p.current with
    | none => s
    | some r => match p.cq with
      | none => s.closeRun n p r
      | some c => if (s.cq p.func c).isNone then s.closeRun n p r else match s.reserveCq p.func c 1 with
        | none => s.modRun n (fun q => { q with phase := .reserving })
        | some s1 => (s1.postCqe p.func c (r.cqe n p) true).closeRun n p r

/-- An unload ends a run that waits at step 7: its completion entry is owed until one can be reserved (R117, R334). -/
def State.oweRun (s0 : State) (n : Nat) : State :=
  let s := s0.resolveRun n
  match s.prog n with
  | none => s
  | some p => match p.current with
    | none => s
    | some r =>
      let r1 := { r with status := if r.status = stOk then stRunAborted else r.status }
      (match p.cq with
      | none => s
      | some c => ({ s with owed := s.owed ++ [(p.func, c, r1.cqe n p)] } : State)).closeRun n p r1

/-- Ends a run for an unload: its completion entry is posted, or owed (R334). -/
def State.postNow (s : State) (n : Nat) : State :=
  let t := s.postRun n
  if (t.prog n).any (fun p => p.current.isSome) then t.oweRun n else t

/-- The sections of a kind in a program image: (offset, length) (R314). -/
def imageSections (img : Bytes) (kind : Nat) : List (Nat × Nat) :=
  ((List.range (leAt img 48 2)).filter (fun i => leAt img (64 + 16 * i) 1 == kind)).map (fun i =>
    (leAt img (68 + 16 * i) 4, leAt img (72 + 16 * i) 8))

/-- The answer frame of a FRAME output: the template and the output bytes, sent raw; it waits where its queue has no room (R215, R329). -/
def State.sendAnswer (s : State) (p : Prog) (r : Run) (b : Binding) : State :=
  let port : LPort := ⟨b.a % 32, by omega⟩
  let base := ((imageSections p.image 5).headD (0, 0)).1
  let body := (p.image.drop (base + b.b)).take b.c ++ fit b.bytes (tgetD r.outputs b.index [])
  let fr : TxFrame := .raw (body ++ zeros (60 - body.length))
  s.enqueueOwn port (bits b.a 10 8) ⟨fr, fr.len, some p.func, none, bit b.a 11, false⟩

/-- The amounts that the COUNTER outputs add: 1, or the value the program wrote, in order (R317). -/
def counterAdds : List Binding → List Nat → List (Nat × Nat)
  | [], _ => []
  | b :: rest, l => if bit b.b 0 then (b.a, l.headD 0 % 2 ^ 32) :: counterAdds rest (l.drop 1) else (b.a, 1) :: counterAdds rest l

/-- Steps 5 to 7 of R323. -/
def State.releaseRun (s0 : State) (n : Nat) : State :=
  let s := s0.resolveRun n
  match s.prog n with
  | none => s
  | some p => match p.current with
    | none => s
    | some r =>
      let s1 := forEach (p.outputsOf 1) s (fun st b => st.sendAnswer p r b)
      let s2 := forEach (counterAdds (p.outputsOf 2) r.added) s1 (fun st (w : Nat × Nat) => st.advanceTrig p.func w.1 w.2)
      s2.postRun n

/-- A run that an unjudged frame started: what follows waits for the frame's verdict (R329). -/
def Run.unjudged (r : Run) : Bool := r.frame.isSome && r.verdict.isNone

/-- Outputs visible, or one of them failed: what follows comes at once, or with the verdict on the input frame (R329). -/
def State.outputsVisible (s : State) (n : Nat) : State :=
  match s.prog n with
  | none => s
  | some p => match p.current with
    | none => s
    | some r =>
      if r.phase != .writing || (p.outputsOf 0).any (fun b => s.inFlight (.runOut n b.index)) then s
      else if r.unjudged then s.modRun n (fun q => { q with phase := .verdict })
      else if r.status ≠ stOk then s.postRun n
      else s.releaseRun n

/-- Step 4: writes the REGION outputs (R323, R326). -/
def State.writeOutputs (s0 : State) (n : Nat) : State :=
  let s := s0.resolveRun n
  match s.prog n with
  | none => s
  | some p => match p.current with
    | none => s
    | some r =>
      let s1 := s.modRun n (fun q => { q with phase := .writing })
      (forEach (p.outputsOf 0) s1 (fun st b =>
        let k : Word32 := BitVec.ofNat 32 b.a
        if (st.accessOk p.func k accLocalWrite b.b b.bytes).isSome then
          st.startWrite p.func k b.b (fit b.bytes (tgetD r.outputs b.index [])) (.runOut n b.index)
        else
          let st1 := st.count p.func cntRegionFault 1
          { st1 with agenda := st1.agenda ++ [(.runOut n b.index, .gone)] })).outputsVisible n

/-- A REGION output has been placed, or could not be. -/
def State.runOutDone (s : State) (n : Nat) (x : XResult) : State :=
  let s1 := match x with
    | .ok _ => s
    | _ => s.modRun n (fun r => { r with status := if r.status = stOk then x.status else r.status })
  s1.outputsVisible n

/-- What an unfinished run left in the local stores and exchange buffers of its cores is undefined: its operations are known only with its
end (R19). -/
def State.scatter (s : State) (p : Prog) : State :=
  let t := s.tines
  let ls := p.tineList.map (fun k => (k * 32768, 32768))
  let xb := p.coreList.map (fun k => (k * 65536, 65536))
  { s with tines := { t with
    undef := ls.foldl (fun l q => cutRanges l q.1 q.2) t.undef ++ ls
    exUndef := xb.foldl (fun l q => cutRanges l q.1 q.2) t.exUndef ++ xb
    fresh := t.fresh.filter (fun w => !p.coreList.contains (w.1 / 65536)) } }

/-- The flags of a run at its early end: those its tines hold; a run that was computing has set others before, which its end would have
told, and each is free (R312). -/
def State.flagsNow (s : State) (p : Prog) (r : Run) : Word32 :=
  let open_ := r.phase == .computing || r.phase == .gleaning
  let late := r.phase == .waiting || r.phase == .writing || r.phase == .verdict || r.phase == .reserving
  if late then r.flags else s.runFlags p ||| (if open_ then (Config.freeWord s.free).setWidth 32 &&& 0x7F else 0)

/-- Ends a run early with a status: nothing more is released; bytes of REGION outputs not yet visible are undefined, and so is what a run
left in its stores while it computed (R19, R326). `fails`: the program enters FAILED, with ERROR_SOURCE and its fault record (R326, R439).
A run whose input frame is not judged yet waits for the verdict with its completion (R329), unless `now`: an unload waits no longer, not
even for a completion entry (R334). -/
def State.abortRun (s : State) (n status : Nat) (fails now : Bool) : State :=
  match s.prog n with
  | none => s
  | some p =>
    let fault := fun (st : State) => if fails then ((st.fault 5 2 (some p.func) n 0 0).signalBound p.func p.errSource) else st
    match p.current with
    | none => (fault s).modProg n (fun q => { q with state := if fails then .failed else q.state })
    | some r =>
      if r.phase = .reserving ∨ (r.phase = .verdict ∧ r.status ≠ stOk) then
        let s1 := ((if r.fails then s else fault s)).modRun n (fun q => { q with fails := q.fails || fails })
        if now then s1.postNow n else s1
      else
        let s1 := fault (if status = stRunAborted then s.fault 5 1 (some p.func) n 0 0 else s)
        let s2 := s1.dropRunXfers n
        let fl := s2.flagsNow p r
        let s3 := if r.phase = .computing ∨ r.phase = .gleaning then s2.scatter p else s2
        let s4 := { s3 with free := s3.free + 1 }.modRun n (fun q => { q with
          status := if q.status = stOk then status else q.status, fails := q.fails || fails, flags := fl, phase := .verdict })
        if now then s4.postNow n else if r.unjudged then s4 else s4.postRun n

/-! ### The course of a run (R322, R323, R328 to R332) -/

/-- A start event is there (R161, R322). -/
def State.runDue (s : State) (p : Prog) : Bool := decide (0 < s.startsDue p)

/-- Puts the fed bytes where the program's streams put them; an input shorter than its declaration leaves the rest free (R323 step 2). -/
def State.feedRun (s : State) (r : Run) : State :=
  forEach r.feed s (fun st w =>
    let b := ((tgetD r.got w.slot.val []).drop w.off).take w.len
    { st.streamWrite w.loc (b ++ freeBytes st.free w.slot.val (w.len - b.length)) with free := st.free + 1 })

/-- Every input is there: the program computes. -/
def State.inputsReady (s : State) (n : Nat) : State :=
  match s.prog n with
  | none => s
  | some p => match p.current with
    | none => s
    | some r => if r.phase = .feeding ∧ r.inputs.isEmpty then (s.feedRun r).modRun n (fun q => { q with phase := .computing }) else s

/-- Step 2 of R323: the reads of the REGION inputs; the features of FRAME inputs are there. -/
def State.streamInputs (s : State) (n : Nat) : State :=
  match s.prog n with
  | none => s
  | some p => match p.current with
    | none => s
    | some _ =>
      let regs := p.bindings.filter (fun b => !b.output && b.kind == 0)
      let s1 := s.modRun n (fun q => { q with phase := .feeding, inputs := regs.map (fun b => b.index) })
      (forEach regs s1 (fun st b =>
        let k : Word32 := BitVec.ofNat 32 b.a
        if (st.accessOk p.func k accLocalRead b.b b.bytes).isSome then st.startRead p.func k b.b b.bytes (.runIn n b.index)
        else
          let st1 := st.count p.func cntRegionFault 1
          { st1 with agenda := st1.agenda ++ [(.runIn n b.index, .gone)] })).inputsReady n

/-- A REGION input has been read, or could not be: the run ends with the status (R326, R345). -/
def State.runInDone (s : State) (n slot : Nat) (x : XResult) : State :=
  match x with
  | .ok bytes => (s.modRun n (fun r => { r with got := tset r.got slot bytes, inputs := r.inputs.filter (fun i => i != slot) })).inputsReady n
  | _ => s.abortRun n x.status false false

/-- The oldest frame of an input. -/
def Prog.frameOf (p : Prog) (i : Nat) : Option EFrame := (p.frames.find? (fun q => q.1 == i)).map Prod.snd

/-- The waiting frames without the oldest one of an input. -/
def takeFrame (i : Nat) : List (Nat × EFrame) → List (Nat × EFrame)
  | [] => []
  | q :: rest => if q.1 = i then rest else q :: takeFrame i rest

/-- The FRAME inputs of a program (R317). -/
def Prog.frameInputs (p : Prog) : List Binding := p.bindings.filter (fun b => !b.output && b.kind == 1)

/-- The features that a run finds at its FRAME inputs: of the oldest frame of each (R328). -/
def Prog.features (p : Prog) : Tbl Bytes :=
  p.frameInputs.foldl (fun t b => match p.frameOf b.index with
    | some fr => tset t b.index ((fr.bytes.drop (bits b.b 15 0)).take (bits b.b 31 16))
    | none => t) []

/-- A run's record at its start; its verdict is that of the frame that started it. -/
def Run.fresh (p : Prog) (feed : List Piece) : Run where
  phase := .ramping
  frame := if p.startKind = 2 then p.frameOf p.startInput else none
  verdict := none
  feed := feed
  inputs := []
  outputs := []
  added := []
  cycles := 0
  flags := 0
  status := stOk
  scheduleEnded := false
  late := false
  num := p.run
  seed := p.seed
  got := p.features
  fails := false
  spoilt := decide (0 < p.spoil)

/-- RUN_START: a READY program with a start event begins a run: RUN and the flag words, then its inputs; on cold furrows it waits for the
governor (R322, R323, R332). The oldest frame of each FRAME input goes to the run: DESIGN CHOICE for inputs other than START_INPUT (log
entry 160). -/
def State.startRun (s : State) (n : Nat) (feed : List Piece) : State :=
  match s.prog n with
  | none => s
  | some p =>
    if !s.power.on || s.stop.stopped || p.state != .ready || p.loading || p.unloading || p.current.isSome || !s.runDue p || !feed.all p.canMove then s
    else
      let r := Run.fresh p feed
      let late := s.slowed p
      let s1 := (s.modProg n (fun q => { q with
        state := .running
        pending := if p.startKind = 0 then q.pending - 1 else q.pending
        threshold := if p.startKind = 1 then satAdd max64 q.threshold q.step else q.threshold
        frames := p.frameInputs.foldl (fun l b => takeFrame b.index l) q.frames
        spoil := q.spoil - 1
        run := add32 q.run 1
        glean := if q.glean.state = 1 ∧ q.glean.run = 0xFFFFFFFF then { q.glean with run := p.run } else q.glean
        current := some { r with late := late } })).clearFlags p
      let d : DieId := ⟨(p.furrows.headD 0) / 20 % 2, by omega⟩
      let s2 := s1.traceRecord d p.func 0x09 n (if p.startKind = 1 then p.startCounter else p.startInput) p.run (s.time - p.waitSince)
      if p.furrows.all (fun f => s.tines.warm.contains f) then s2.streamInputs n
      else { s2 with tines := { s2.tines with ramps := s2.tines.ramps ++ [n] } }

/-- RAMP_GRANTED: the power for the cold furrows is granted, in the order of the requests, and never while the hold-up store is below 54.0
V (R332, R453). -/
def State.rampGranted (s : State) (n : Nat) : State :=
  match s.prog n with
  | none => s
  | some p => match p.current with
    | none => s
    | some r =>
      if r.phase = .ramping ∧ s.tines.ramps.head? = some n ∧ s.power.reading.storeMv ≥ 54000 then
        ({ s with tines := { s.tines with ramps := lerase s.tines.ramps n } }.warm p.furrows).streamInputs n
      else s

/-- A furrow's program does not run on it or keep it warm, and WARM_HOLD has passed since the last run there, 1 ms for one without a
program (R332). -/
def State.mayCool (s : State) (fur : Nat) : Bool :=
  let held := match tget s.tines.ranAt fur with
    | some t => decide (s.time < t + ((s.progAt fur).map (fun q => q.2.warmHold)).getD 1000000)
    | none => false
  !held && (match s.progAt fur with
    | some q => !(q.2.keepsWarm || q.2.current.isSome)
    | none => true)

/-- WARM_HOLD_EXPIRY: a furrow ramps down (R332). -/
def State.warmExpiry (s : State) (fur : Nat) : State :=
  if !s.mayCool fur then s
  else { s with tines := { s.tines with warm := lerase s.tines.warm fur, ranAt := tdel s.tines.ranAt fur } }

/-- Every core of a program's furrows comes to a barrier (R293). -/
def State.endBarriers (s : State) (p : Prog) : State :=
  forEach (p.furrows.flatMap (fun f => (List.range 16).map (fun c => f * 16 + c))) s (fun st k => st.barrier k)

/-- The bytes of the outputs, gathered from where the program left them; what no piece moves is undefined. -/
def State.gatherOutputs (s : State) (p : Prog) (outs : List Piece) : Tbl Bytes :=
  (p.bindings.filter (fun b => b.output && b.kind != 2)).foldl (fun t b =>
    let base := freeBytes s.free b.index b.bytes
    let full := (outs.filter (fun w => w.slot.val == b.index)).foldl (fun acc w => overlay acc w.off (s.tineRead w.loc w.len)) base
    tset t b.index (fit b.bytes full)) []

/-- RUN_SCHEDULE_END: the schedule of a deterministic run ends: results held are released; else the run is late (R330). -/
def State.scheduleEnd (s : State) (n : Nat) : State :=
  match s.prog n with
  | none => s
  | some p => match p.current with
    | none => s
    | some r =>
      if s.stop.stopped || !p.deterministic || r.scheduleEnded then s
      else if r.phase = .waiting then (s.modRun n (fun q => { q with scheduleEnded := true })).writeOutputs n
      else s.modRun n (fun q => { q with scheduleEnded := true, late := true })

/-- DRILL_FRAME_VERDICT: a good frame releases the answer, when the outputs are visible, or the completion of a run that failed; a bad one
ends the run without completion, counter or frame, its region outputs undefined (R329). -/
def State.frameVerdict (s : State) (n : Nat) (good : Bool) : State :=
  match s.prog n with
  | none => s
  | some p => match p.current with
    | none => s
    | some r =>
      if !r.unjudged || r.phase == .reserving then s
      else if good then
        let s1 := s.modRun n (fun q => { q with verdict := some true })
        if r.phase ≠ .verdict then s1 else if r.status = stOk then s1.releaseRun n else s1.postRun n
      else
        let s1 := ((s.dropRunXfers n).undefineOutputs p).modProg n (fun q => { q with badInput := satAdd max32 q.badInput 1 })
        let s2 := if r.phase = .computing ∨ r.phase = .gleaning then s1.scatter p else s1
        match s2.prog n with
        | some p1 => { s2 with free := s2.free + 1 }.closeRun n p1 { r with flags := s.flagsNow p r }
        | none => s2

/-! ### Gleans (R444) -/

/-- GLEAN_STEP_REACHED: the run named holds at a furrow barrier while the tensor is copied out (R444). -/
def State.gleanReached (s : State) (n : Nat) (step : Nat) (data : Bytes) : State :=
  match s.prog n with
  | none => s
  | some p => match p.current with
    | none => s
    | some r =>
      if s.stop.stopped || r.phase != .computing || p.glean.state != 1 || p.glean.run != r.num || p.glean.step != step then s
      else
        let s1 := s.modRun n (fun q => { q with phase := .gleaning })
        if (s1.accessOk p.func p.glean.key accLocalWrite p.glean.offset p.glean.bytes).isSome then
          s1.startWrite p.func p.glean.key p.glean.offset (fit p.glean.bytes data) (.glean n)
        else
          let s2 := s1.count p.func cntRegionFault 1
          { s2 with agenda := s2.agenda ++ [(.glean n, .gone)] }

/-- The copy of a glean is visible: SOURCE is signalled and the run released; one that could not be placed is MISSED (log entry
26). -/
def State.gleanDone (s : State) (n : Nat) (x : XResult) : State :=
  match s.prog n with
  | none => s
  | some p =>
    let s1 := s.modProg n (fun q => { q with
      glean := { q.glean with state := (match x with | .ok _ => 2 | _ => 3) }
      current := q.current.map (fun r => if r.phase = .gleaning then { r with phase := .computing } else r) })
    match x with
    | .ok _ => s1.signalBound p.func p.glean.source
    | _ => s1

/-! ### Tine faults and resets (R321, R388, R389, R415) -/

/-- The local store of a tine is rebuilt, or code and weights loaded into it: what it holds is the library's (R313, R388). -/
def State.loadStore (s : State) (n bytes : Nat) : State :=
  let t := s.tines
  { s with tines := { t with
    localStore := mzero t.localStore (n * 32768) 32768
    undef := cutRanges t.undef (n * 32768) 32768 ++ (if bytes = 0 then [] else [(n * 32768, bytes)]) } }

/-- LS_BYTES of a loaded image (R314). -/
def Prog.lsBytes (p : Prog) : Nat := leAt p.image 12 4

/-- The functions that hold a furrow (R395). -/
def State.furrowHolders (s : State) (fur : Nat) : List FuncId :=
  allFuncs.filter (fun f => bit (s.func f).furrows.toNat fur || s.progs.any (fun q => q.2.func == f && q.2.furrows.contains fur))

/-- Tines that a core has, 16 less those lost; none in a furrow whose test was skipped (R389, R406). -/
def State.tinesLeft (s : State) (core : Nat) : Nat := if s.tines.skipped.contains (core / 16) then 0 else 16 - tgetD s.tines.lost core 0

/-- Tines a core runs on: those left, or none below 8 (R389). -/
def State.tinesOf (s : State) (core : Nat) : Nat := if s.tinesLeft core < 8 then 0 else s.tinesLeft core

/-- Error records by tine once a tine of its core is gone: those above it take its number and the next (R386, R389). -/
def shiftTines (gone : Nat) (t : Tbl (List Nat)) : Tbl (List Nat) :=
  (t.filter (fun q => q.1 != gone)).map (fun q => if q.1 / 16 = gone / 16 ∧ q.1 > gone then (q.1 - 1, q.2) else q)

/-- Takes a tine out of service: TINE is reported fallow and its core degraded, or fallow below 8 tines; a program that needs more tines
of that core than remain is aborted and FAILED (R321, R389, R395). The tines left keep numbers 0 upward; a number that the core no longer
has names no tine. -/
def State.loseTine (s : State) (fur core tine : Nat) : State :=
  let k := fur * 16 + core
  if tine ≥ s.tinesLeft k then s
  else
  let before := s.tinesOf k
  let s1 : State := { s with degraded := true, tines := { s.tines with
    lost := tset s.tines.lost k (tgetD s.tines.lost k 0 + 1), storeErrors := shiftTines (tineNo fur core tine) s.tines.storeErrors } }
  let after := s1.tinesOf k
  let hs := s1.furrowHolders fur
  let s2 := (s1.postFallow 1 3 (fur * 65536 + core * 256 + tine) 0 0 (s.tinesLeft k) (s1.tinesLeft k) hs).postFallow 2 (if after = 0 then 3 else 2)
    (fur * 256 + core) 0 0 before after hs
  match s2.progAt fur with
  | some (n, p) => if p.coreList.contains k ∧ after < p.tines ∧ p.state ≠ .failed then s2.abortRun n stRunAborted true false else s2
  | none => s2

/-- Draws the spare of a core for a tine (R386, R387, R388). -/
def State.drawSpare (s : State) (fur core tine : Nat) : State :=
  { s with tines := { s.tines with
    drawn := tset s.tines.drawn (fur * 16 + core) tine
    storeErrors := tdel s.tines.storeErrors (tineNo fur core tine) } }.postFallow 1 1 (fur * 65536 + core * 256 + tine) 0 0
      (s.tinesLeft (fur * 16 + core)) (s.tinesLeft (fur * 16 + core)) (s.furrowHolders fur)

/-- A tine faults: the run ends with RUN_ABORTED and the spare is drawn and rebuilt, or the tine is taken out of service (R388,
R389). -/
def State.tineFault (s : State) (fur core tine : Nat) : State :=
  let k := fur * 16 + core
  if thas s.tines.drawn k || decide (tine ≥ s.tinesLeft k) then s.loseTine fur core tine
  else
    let s1 := s.drawSpare fur core tine
    match s1.progAt fur with
    | some (n, p) =>
      let s2 := if p.current.isSome then s1.abortRun n stRunAborted false false else s1
      if p.coreList.contains k ∧ tine < p.tines then s2.loadStore (tineNo fur core tine) p.lsBytes else s2
    | none => s1.loadStore (tineNo fur core tine) 0

/-- An uncorrectable error of a local store draws its tine's spare, as a fault does (R386). -/
def State.storeFailed (s : State) (l : Option Loc) : State :=
  match l with
  | none => s
  | some w => if w.exchange then s else s.tineFault w.furrow.val w.core.val w.tine.val

/-- TINE_THRESHOLD_DRAW: at a core barrier a tine with 64 corrected errors is copied into the spare, state and flags (R386,
R388). -/
def State.thresholdDraw (s : State) (fur core tine : Nat) : State :=
  if (lastDay s.uptime (tgetD s.tines.storeErrors (tineNo fur core tine) [])).length < 64 then s
  else if thas s.tines.drawn (fur * 16 + core) then s.loseTine fur core tine
  else s.drawSpare fur core tine

/-- RUN_END: the program has finished: its operations are applied; a deterministic run holds its results until its schedule ends, or is
late when its cycles are more (R323 steps 3 and 4, R330); an uncorrectable error aborts it (R326). -/
def State.finishRun (s : State) (n : Nat) (ops : List TineOp) (outs : List Piece) (added : List Nat) (cycles : Nat) : State :=
  match s.prog n with
  | none => s
  | some p => match p.current with
    | none => s
    | some r =>
      if s.stop.stopped || r.phase != .computing || !ops.all p.can || !outs.all p.canMove then s
      else
        let d := s.tineOps n p r ops
        let s1 := forEach (ops.takeWhile TineOp.goesOn) d.1 (fun st o => st.noteStore o)
        let s2 := { s1 with free := s1.free + 1 }.modRun n (fun q => { q with cycles := cycles })
        match d.2 with
        | some (l, w) => (s2.abortRun n stRunAborted w false).storeFailed l
        | none =>
          let late := p.deterministic && decide (cycles > p.schedule)
          let hold := p.deterministic && !r.scheduleEnded && !late
          let s3 := s2.modRun n (fun q => { q with
            outputs := (d.1.endBarriers p).gatherOutputs p outs, added := added, flags := d.1.runFlags p
            phase := if hold then .waiting else .computing
            cycles := if p.deterministic then max cycles p.schedule else cycles
            late := q.late || late || s.slowed p })
          if hold then s3 else s3.writeOutputs n

/-- TINE_RESET on furrows: runs end with RUN_ABORTED; stores and flags are cleared, and those of bound programs rebuilt (R415). -/
def State.resetTines (s : State) (mask : Nat) : State :=
  let l := (List.range 40).filter (fun f => bit mask f)
  let hit := (s.progs.filter (fun q => q.2.furrows.any (fun f => l.contains f)))
  let s1 := forEach hit s (fun st q => if q.2.current.isSome then st.abortRun q.1 stRunAborted false false else st)
  let t := s1.tines
  let inFur := fun (per a : Nat) => l.contains (a / per)
  let s2 : State := { s1 with tines := { t with
    localStore := t.localStore.filter (fun c => !inFur 8388608 c.1)
    exchange := t.exchange.filter (fun c => !inFur 1048576 c.1)
    undef := t.undef.filter (fun r => !inFur 8388608 r.1)
    exUndef := t.exUndef.filter (fun r => !inFur 1048576 r.1)
    fresh := t.fresh.filter (fun w => !inFur 1048576 w.1)
    flags := t.flags.filter (fun q => !inFur 256 q.1) } }
  forEach hit s2 (fun st q => { st with tines := { st.tines with
    undef := st.tines.undef ++ ((q.2.tineList.filter (fun n => inFur 256 n)).map (fun n => (n * 32768, q.2.lsBytes))).filter (fun r => r.2 != 0) } })

/-- Posts the completion entries that unloaded runs are owed, as entries can be reserved; a ring that is gone takes none (R117, R334). -/
def State.payOwed (s : State) : State :=
  forEach s.owed { s with owed := [] } (fun st w =>
    if (st.cq w.1 w.2.1).isNone then st
    else match st.reserveCq w.1 w.2.1 1 with
      | none => { st with owed := st.owed ++ [w] }
      | some s1 => s1.postCqe w.1 w.2.1 w.2.2 true)

/-- Gives runs that wait at step 7 another chance, and the entries that are owed (R324, R334). -/
def State.pumpRuns (s : State) : State :=
  forEach ((s.progs.filter (fun q => (match q.2.current with | some r => r.phase == .reserving | none => false))).map Prod.fst) s.payOwed
    (fun st n => st.postRun n)

end Sys2Proof.Machine
end

