-- ==== Sys2Proof/Machine/Objects.lean ====
section
/-! DEFINITION. Machine/Objects.lean: what a function holds of each resource (R376), the destruction of each kind of object (R95,
R132, R133, R146, R201, R261, R334), teardown (R383, R384), and attachment (R375, R382). -/

namespace Sys2Proof.Machine

/-! ### Shares and use (R376, R385) -/

/-- 2 MiB host pages that a region touches (R97). -/
def pagesTouched (base len : Nat) : Nat := if len = 0 then 0 else (base + len - 1) / 0x200000 - base / 0x200000 + 1

/-- COUNTER_PAGES of a region (R88). -/
def Region.counterPages (r : Region) : Nat := if r.grants accCount then pagesTouched r.base r.length else 0

/-- Regions a function holds (R376); a program's weights region is the program's. -/
def State.regionsOf (s : State) (f : FuncId) : List (Nat × Region) := s.regions.filter (fun r => r.2.func == f)

/-- Access counters a function holds (R97, R376). -/
def State.countersOf (s : State) (f : FuncId) : Nat := ((s.regionsOf f).map (fun r => r.2.counterPages)).sum

/-- Connections a function holds. -/
def State.connsOf (s : State) (f : FuncId) : List (Nat × Conn) := s.conns.filter (fun c => c.2.func == f)

/-- Programs a function holds. -/
def State.progsOf (s : State) (f : FuncId) : List (Nat × Prog) := s.progs.filter (fun p => p.2.func == f)

/-- Furrows bound to loaded programs of a function, as a mask. -/
def State.boundFurrows (s : State) (f : FuncId) : Nat := (((s.progsOf f).flatMap (fun p => p.2.furrows)).map (fun k => 2 ^ k)).sum

/-- Sum of the reduction slots reserved by a function's operations. -/
def State.slotsHeld (s : State) (f : FuncId) : Nat := (((s.func f).ops.filter (fun o => o.admitted)).map (fun o => o.slotSet)).sum

/-- USED of a resource (R385): objects held; VECTORS in full. -/
def State.used (s : State) (f : FuncId) (code : Nat) : Nat :=
  let v := s.func f
  match code with
  | 0 => (v.hbm.filter (fun k => s.granuleInUse (k * hbmGranule) hbmGranule)).length
  | 1 => (v.tilth.filter (fun k => s.granuleInUse (k * tilthGranule) tilthGranule)).length
  | 2 => s.boundFurrows f
  | 3 => (s.connsOf f).length
  | 4 => ((s.connsOf f).filter (fun c => c.2.pin)).length
  | 5 => v.rings.length
  | 6 => v.cqs.length
  | 7 => (v.cqs.map (fun q => q.2.windrowEntries)).sum
  | 8 => (s.regionsOf f).length
  | 9 => s.countersOf f
  | 10 => v.trigs.length
  | 11 => v.shapers.length
  | 12 => v.comms.length
  | 13 => s.slotsHeld f
  | 14 => s.vectors f
  | 15 => (s.keys.filter (fun k => k.2.func == f)).length
  | _ => 0

/-- SHARE of a resource (R385). -/
def State.shareOf (s : State) (f : FuncId) (code : Nat) : Nat :=
  let v := s.func f
  match code with
  | 0 => v.hbm.length
  | 1 => v.tilth.length
  | 2 => v.furrows.toNat
  | _ => s.share f code

/-- Replaces a counted share. -/
def State.setShare (s : State) (f : FuncId) (code n : Nat) : State :=
  s.modFunc f (fun v => { v with shares := if n = 0 then tdel v.shares code else tset v.shares code n })

/-! ### Rings (R132, R133) -/

/-- Whether a transfer belongs to a work ring. -/
def Purpose.ofRing (p : Purpose) (f : FuncId) (r : Nat) : Bool :=
  match p with
  | .copySrc g k _ => g == f && k == r
  | .copyTag g k _ => g == f && k == r
  | .copyDst g k _ => g == f && k == r
  | .copyTagOut g k _ => g == f && k == r
  | .sendSrc g k _ => g == f && k == r
  | .rawSrc g k _ => g == f && k == r
  | .rawRecv g k _ => g == f && k == r
  | .copyAgain g k _ => g == f && k == r
  | .writeBack g k => g == f && k == r
  | .writtenBack g k => g == f && k == r
  | _ => false

/-- Whether a transfer belongs to a completion ring. -/
def Purpose.ofCq (f : FuncId) (c : Nat) : Purpose → Bool
  | .cqEntry g k _ _ => g == f && k == c
  | .cqPosted g k _ _ => g == f && k == c
  | .tsEntry g k _ _ => g == f && k == c
  | .tsPosted g k _ _ => g == f && k == c
  | _ => false

/-- Drops the transfers of a kind, and what they left to do. -/
def State.dropWhere (s : State) (mine : Purpose → Bool) : State :=
  let ids := (s.xfers.filter (fun (q : Nat × Xfer) => mine q.2.purpose)).map Prod.fst
  let s1 := forEach ids s (fun st x => st.dropXfer x)
  { s1 with agenda := s1.agenda.filter (fun a => !mine a.1) }

/-- Whether a transfer carries the input or output of a collective member whose entry a ring holds (R132, R265). -/
def State.ofCollRing (s : State) (f : FuncId) (r : Nat) (p : Purpose) : Bool :=
  let mine := fun (g : FuncId) (gseq m : Nat) => g == f && (s.func f).ops.any (fun o =>
    o.gseq == gseq && o.entries.any (fun e => e.ring == r && e.member == m))
  match p with
  | .collIn g gseq m _ => mine g gseq m
  | .collOut g gseq m _ => mine g gseq m
  | _ => false

/-- Completion entries of a ring still reserved: of its started requests, and of one that is completing. -/
def Ring.reservedEntries (g : Ring) : Nat :=
  (g.jobs.filter (fun (j : Job) => j.phase != .retiring && j.postsCqe g)).length +
  (g.posts.filter (fun p => match p with | .entry _ => true | .back _ _ _ => false)).length

/-- Abandons every started request of a ring: fenced, without completion, write-back or pulse, reservations dropped, what they were to
write undefined (R82, R132). -/
def State.abandonRing (s : State) (f : FuncId) (r : Nat) : State :=
  match s.ring f r with
  | none => s
  | some g =>
    let s1 := (s.dropWhere (fun p => p.ofRing f r || s.ofCollRing f r p)).dropEntryRead f r
    let s2 := match g.cq with
      | some c => s1.unreserveCq f c g.reservedEntries
      | none => s1
    let coll := (s.func f).ops.flatMap (fun o => match s.comm f o.comm with
      | some c => (o.entries.filter (fun e => e.ring == r)).flatMap (s.entryTargets o c)
      | none => [])
    let s3 := (s2.undefineRuns (g.jobs.flatMap (s.jobTargets g.kind) ++ coll)).modRing f r
        (fun v => { v with jobs := [], posts := [], postWait := none, held := [], fetching := none, inSet := false, turn := 0 })
    let fin := fun (o : CollOp) => { o with
      entries := o.entries.map (fun (e : CollEntry) => if e.ring = r then { e with finished := true } else e) }
    s3.modFunc f (fun v => { v with ops := v.ops.map fin })

/-- Destroys a work ring or collective ring (R132). -/
def State.destroyRing (s : State) (f : FuncId) (r : Nat) : State :=
  let s1 := s.abandonRing f r
  s1.modFunc f (fun v => { v with
    rings := tdel v.rings r
    ringSeries := v.ringSeries.give r
    shapers := v.shapers.map (fun h => (h.1, { h.2 with rings := lerase h.2.rings r })) })

/-- Destroys a completion ring: its windrow is discarded, a time-stamp queue bound to it unbound (R133, R253, R383). -/
def State.destroyCq (s : State) (f : FuncId) (c : Nat) : State :=
  let s1 := s.dropWhere (Purpose.ofCq f c)
  let s2 := s1.modFunc f (fun v => { v with cqs := tdel v.cqs c, cqSeries := v.cqSeries.give c })
  { s2 with phys := s2.phys.map (fun p => (p.1, if p.2.tsCq = some (f, c) then { p.2 with tsCq := none } else p.2)) }

/-! ### Connections and keys (R146, R201) -/

/-- Destroys a key. -/
def State.destroyKey (s : State) (k : Nat) : State :=
  if thas s.keys k then { s with keys := tdel s.keys k, keySeries := s.keySeries.give k } else s

/-- The keys a connection has. -/
def Conn.keyList (c : Conn) : List Nat :=
  c.txKey.toList ++ c.rxKey.toList ++ c.nextTx.toList ++ c.nextRx.toList ++ c.oldTx.toList ++ c.oldRx.toList

/-- Gives up what a connection's traffic holds: transfers, credit reservations, frames in the receive buffer. -/
def State.quietConn (s : State) (n : Nat) (c : Conn) : State :=
  let s1 := s.dropConnXfers n
  let s2 := match s1.creditCq c with
    | some q => s1.unreserveCq c.func q c.rx.reservedCq
    | none => s1
  forEach c.rx.buffered s2 (fun st (b : Nat × LPort × Nat × Nat) => st.rxFree b.2.1 b.2.2.1 b.2.2.2)

/-- Destroys a connection: its started requests end without completion; its keys go, shapers and policers are unbound; an edge is
lost (R146, R201, R285). -/
def State.destroyConn (s : State) (n : Nat) : State :=
  match s.conn n with
  | none => s
  | some c =>
    let s1 := ((s.endConnJobs n c stSilent).undefineRuns (s.rxTargets c)).quietConn n c
    let s2 := s1.edgeLost n 2
    let s3 := forEach c.keyList s2 (fun st k => st.destroyKey k)
    let s4 := s3.modFunc c.func (fun v => { v with shapers := v.shapers.map (fun h => (h.1, { h.2 with conns := lerase h.2.conns n })) })
    { s4 with
      conns := tdel s4.conns n
      connSeries := s4.connSeries.give n
      policers := s4.policers.map (fun p => (p.1, if p.2.conn = some n then { p.2 with conn := none } else p.2)) }

/-- A connection is frozen: outgoing work is abandoned, the receiver goes back to VPSN (R146, R194). -/
def State.freezeConn (s : State) (n : Nat) : State :=
  match s.conn n with
  | none => s
  | some c =>
    if c.state != .ready then s
    else
      let s1 := (s.undefineRuns (c.rx.spans.flatMap (fun w => s.localRuns w.key w.off w.len))).quietConn n c
      s1.modConn n (fun v => { v with
        state := .frozen
        missed := [], missedRoce := []
        ctx := if v.ctx = CtxState.fetching then .backing else v.ctx
        tx := { v.tx with records := [], queue := [], resend := [], reread := [], refused := [], rnrPause := false, coll := [], held := [],
                          paths := v.tx.paths.map (fun p => (p.1, { p.2 with inflight := 0 })) }
        rx := { v.rx with epsn := v.rx.vpsn, bitmap := [], visible := [], marks := [], epsnMark := none, lasts := [], spans := [],
                          sends := [], owed := [], arrived := [], flags := [], work := [], buffered := [], credit := 0,
                          reservedCq := 0, nakSeqSent := false } })

/-! ### Communicators (R261) -/

/-- Destroys a communicator: its operations in flight are fenced, without completion, and its edges are unbound (R261). -/
def State.destroyComm (s : State) (f : FuncId) (cm : Nat) : State :=
  let mine := (s.func f).ops.filter (fun o => o.comm == cm)
  let s1 := forEach mine s (fun st o =>
    (forEach (o.entries.filter (fun e => !e.finished)) st (fun w e => w.finishJob f e.ring e.slot stSilent)).removeOp f o.gseq)
  let s2 := s1.modFunc f (fun v => { v with comms := tdel v.comms cm, commSeries := v.commSeries.give cm })
  { s2 with conns := s2.conns.map (fun c => (c.1, if c.2.func = f ∧ c.2.edge = some cm then { c.2 with edge := none } else c.2)) }

/-! ### Programs (R333, R334) -/

/-- Unloads a program: its run is over; held starts are discarded, storage and numbers freed, filter entries unbound, its
weights region destroyed (R334). -/
def State.freeProg (s : State) (n : Nat) : State :=
  match s.prog n with
  | none => s
  | some p =>
    let s1 := s.dropRunXfers n
    let slot := keyIndex p.weightsKey
    let s2 := if p.weightsKey ≠ 0 ∧ thas s1.regions slot then (s1.destroyRegion slot false p.func).2 else s1
    let s3 := s2.modFunc p.func (fun v => { v with pulses := v.pulses.filter (fun q => q.2.1 != n) })
    { s3 with
      progs := tdel s3.progs n
      progSeries := s3.progSeries.give n
      tines := { s3.tines with warm := s3.tines.warm.filter (fun f => !(p.keepsWarm && p.furrows.contains f)), ramps := lerase s3.tines.ramps n }
      ports := s3.ports.map (fun q => (q.1, { q.2 with filters := q.2.filters.map (fun e =>
        (e.1, if e.2.action = 2 ∧ e.2.program = n then { e.2 with program := 0xFFFFFFFF } else e.2)) })) }

/-! ### Teardown and destruction (R383, R384) -/

/-- Steps 1 to 6 of R383. -/
def State.teardownObjects (s : State) (f : FuncId) : State :=
  let s1 := forEach ((s.progsOf f).map Prod.fst) s (fun st n => st.freeProg n)
  let s2 := forEach ((s1.connsOf f).map Prod.fst) s1 (fun st n => st.destroyConn n)
  let s3 : State := { s2 with ports := s2.ports.map (fun q => (q.1, { q.2 with rawqs := q.2.rawqs.map (fun w =>
    (w.1, if w.2.func = f then { w.2 with recv := none, send := none } else w.2)) })) }
  let s4 := forEach ((s3.keys.filter (fun k => k.2.func == f)).map Prod.fst) s3 (fun st k => st.destroyKey k)
  let s5 := forEach (tkeys (s4.func f).rings) s4 (fun st r => st.destroyRing f r)
  let s6 := forEach (tkeys (s5.func f).cqs) s5 (fun st c => st.destroyCq f c)
  let s7 := forEach ((s6.regionsOf f).map Prod.fst) s6 (fun st slot => (st.destroyRegion slot false f).2)
  s7.modFunc f (fun v => { v with
    trigSeries := (tkeys v.trigs).foldl (fun q n => q.give n) v.trigSeries
    trigs := []
    shaperSeries := (tkeys v.shapers).foldl (fun q n => q.give n) v.shaperSeries
    shapers := [], pulses := [], tearing := true })

/-- Step 7 of R383. -/
def State.scrubShares (s : State) (f : FuncId) : State :=
  (s.scrubGranules hbmGranule (s.func f).hbm).scrubGranules tilthGranule (s.func f).tilth

/-- FENCED is cleared: the function is ACTIVE (R375). -/
def State.activate (s : State) (f : FuncId) : State := s.modFunc f (fun v => { v with state := .active, tearing := false })

/-- Scrubbed granules go back to the pool; a fallow one is retired instead (R378, R391, R392). -/
def State.poolReturn (s : State) (tilth : Bool) (l : List Nat) : State :=
  let s1 := s.scrubGranules (if tilth then tilthGranule else hbmGranule) l
  let m := s1.mem
  if tilth then
    { s1 with mem := { m with
        fallow := m.fallow.filter (fun k => !l.contains k)
        retired := (m.fallow.filter (fun k => l.contains k)).foldl linsert m.retired } }
  else
    { s1 with mem := { m with
        hbmFallow := m.hbmFallow.filter (fun k => !l.contains k)
        hbmLost := (m.hbmFallow.filter (fun k => l.contains k)).foldl linsert m.hbmLost } }

/-- Posts SHARE_CHANGED to a function (R377, R379). -/
def State.shareChanged (s : State) (f : FuncId) (code old new : Nat) : State :=
  s.post f 0x0007 0 (leBytes 2 code ++ zeros 6 ++ leBytes 8 old ++ leBytes 8 new)

/-- Every share of a function is taken from it but its one vector, each change with its record; its granules go back to the pool, scrubbed
(R375, R377, R378, R384). -/
def State.clearShares (s : State) (f : FuncId) : State :=
  let v := s.func f
  let s1 := ((s.poolReturn false v.hbm).poolReturn true v.tilth).modFunc f (fun w => { w with hbm := [], tilth := [], furrows := 0, shares := [] })
  forEach (List.range 16) s1 (fun st k =>
    if s.shareOf f k = s1.shareOf f k then st else st.shareChanged f k (s.shareOf f k) (s1.shareOf f k))

/-- The end of a destruction: granules return to the pool, shares and scheduler values to their defaults (R384); DISABLED if VF
Enable no longer covers the function (R375). -/
def State.finishDestroy (s : State) (f : FuncId) : State :=
  let v := s.func f
  if v.state != .destroying then s
  else
    let s2 := s.clearShares f
    let s3 : State := { s2 with ports := s2.ports.map (fun q => (q.1, { q.2 with members := tdel q.2.members f.val })) }
    let st := if isVf f ∧ (s.link (linkOf f)).numVfs < f.val % 64 then FuncState.disabled else .unprovisioned
    s3.modFunc f (fun w => { w with
      state := st, tearing := false
      hotIntervalUs := 10000, hotThreshold := 65536, hotSource := 0 })

/-- Teardown is over when no region or invalidation of the function is left (R383). -/
def State.teardownOver (s : State) (f : FuncId) : Bool := !(s.regions.any (fun r => r.2.func == f))

/-- TEARDOWN_DONE: the scrub of R383 has finished; CLEANING becomes ACTIVE once the configuration-space reset is complete, and a
destruction completes (R375, R384). -/
def State.teardownDone (s : State) (f : FuncId) : State :=
  let v := s.func f
  if !v.tearing || !s.teardownOver f then s
  else match v.state with
    | .cleaning =>
      let s1 := (s.scrubShares f).modFunc f (fun w => { w with tearing := false })
      if v.configPending then s1 else s1.activate f
    | .destroying => s.finishDestroy f
    | .disabled => s
    | .unprovisioned => s
    | .active => s
    | .fenced => s

/-- Attaches a FENCED function again: its connections return to READY, its programs are enabled and its windrows go on (R116, R375,
R382). -/
def State.attach (s : State) (f : FuncId) : State :=
  let s1 := forEach (tkeys (s.func f).cqs) (s.activate f) (fun st c => st.drainCq f c [])
  { s1 with
    conns := s1.conns.map (fun c => (c.1, if c.2.func = f ∧ c.2.state = .frozen then { c.2 with state := .ready } else c.2))
    progs := s1.progs.map (fun p => (p.1, if p.2.func = f ∧ p.2.state = .disabled then { p.2 with state := .ready } else p.2)) }

/-- A FENCED function starts its teardown (R375). -/
def State.startTeardown (s : State) (f : FuncId) : State :=
  (s.modFunc f (fun v => { v with state := .cleaning })).teardownObjects f

/-! ### Reset of a function (R58, R82, R375, R382) -/

/-- The objects of a function under a reset with POLICY RETAIN (R382). -/
def State.retainObjects (s : State) (f : FuncId) : State :=
  let s1 := forEach ((s.connsOf f).map Prod.fst) s (fun st n => st.freezeConn n)
  let s2 := forEach (tkeys (s1.func f).rings) s1 (fun st r =>
    (st.abandonRing f r).modRing f r (fun g => { g with error := true, errorIndex := g.cons }))
  forEach ((s2.progsOf f).map Prod.fst) s2 (fun st n =>
    (st.dropRunXfers n).modProg n (fun p => { p with
      current := none, state := .disabled }))

/-- The hardware steps of R82 on a function's registers. -/
def Func.hardReset (v : Func) : Func :=
  { v with
    mbx := Mbx.reset, win := Win.reset, evc := Evc.reset, msix := Msix.reset, cnt := Counters.reset, cfg := Cfg.reset, timeHi := 0
    hotList := [], hotOverflow := 0, faultCounts := [], faultFirst := none, faultPostedAt := none
    resets := satAdd max32 v.resets 1
    configPending := true }

/-- A class queue without the frames of a function. -/
def ClassCfg.without (k : ClassCfg) (f : FuncId) : ClassCfg :=
  { k with
    queue := k.queue.filter (fun q => q.member != some f)
    pinned := if k.pinned.any (fun q => q.1.member == some f) then none else k.pinned }

/-- The frames of a function that wait for their turn leave the ports: no packet of it is sent after FENCED is set (R383). -/
def State.dropFrames (s : State) (f : FuncId) : State :=
  { s with ports := s.ports.map (fun q => (q.1, { q.2 with
      classes := q.2.classes.map (fun k => (k.1, k.2.without f))
      own := q.2.own.filter (fun w => w.2.member != some f) })) }

/-- The writes of completion and time-stamp entries that were still to be issued are taken back, so that a ring kept has its contents and
indices in step (R82 step 3, R382). -/
def State.pullBackAll (s : State) (f : FuncId) : State := forEach (tkeys (s.func f).cqs) s (fun st c => st.pullBackCqes f c)

/-- The policy that applies: the manager's function always resets under RETAIN (R374). -/
def State.retains (s : State) (f : FuncId) : Bool := f == s.manager || (s.func f).retain

/-- Resets a function that is not DISABLED (R82, R375, R382): what it has outstanding is dropped, its communicators destroyed, its
registers reset; an ACTIVE one becomes FENCED or CLEANING by its policy. -/
def State.resetFunc (s : State) (f : FuncId) : State :=
  let v := s.func f
  if v.state = .disabled then s
  else
    let s1 := s.modFunc f (fun w => { w with
      state := if w.state = .active then (if s.retains f then .fenced else .cleaning) else w.state })
    let s2 := forEach (tkeys (s1.func f).comms) s1 (fun st c => st.destroyComm f c)
    let s3 := if v.state ≠ .active then s2 else if s.retains f then s2.retainObjects f else s2
    let s4 := ((s3.dropFrames f).pullBackAll f).dropFunc f
    let s6 := (s4.modFunc f (fun w => { w.hardReset with lastGseq := 0 })).modLink (linkOf f) (fun l =>
      { l with atc := l.atc.filter (fun e => e.func != f) })
    if v.state = .active ∧ !s.retains f then s6.teardownObjects f else s6

/-- The configuration-space part of a reset is complete: the manager is attached again at once; a function whose teardown is done
is ACTIVE (R374, R375). -/
def State.configDone (s : State) (f : FuncId) : State :=
  let v := s.func f
  if !v.configPending then s
  else
    let s1 := s.modFunc f (fun w => { w with configPending := false })
    if v.state = .fenced ∧ f = s.manager then s1.attach f
    else if v.state = .cleaning ∧ !v.tearing then s1.activate f
    else s1

/-- Destroys a function (R384): it is reset if ACTIVE, and torn down if it is not already. -/
def State.destroyFunc (s : State) (f : FuncId) : State :=
  let v := s.func f
  let s1 := if v.state = .active ∨ v.state = .unprovisioned then s.resetFunc f else s
  let s2 := s1.modFunc f (fun w => { w with state := .destroying })
  if (s2.func f).tearing then s2 else s2.teardownObjects f

end Sys2Proof.Machine
end

