-- ==== Sys2Proof/Machine/Egress.lean ====
section
/-! DEFINITION. Machine/Egress.lean: the transmit side of a logical port: meters (R214, R217), gate lists (R221 to R225), the
class scheduler (R213, R214), preemption (R239, R240), the end of a frame, and the transmit time-stamp queue (R250 to R253). -/

namespace Sys2Proof.Machine

/-! ### Credit meters (R214, R217) -/

/-- 64 ns of a rate in Mb/s, in 1/65,536 byte. -/
def refillUnits (mbps : Nat) : Nat := mbps * 64 * 65536 / 8000

/-- One refill of a credit (R217). -/
def refillCredit (credit : Int) (rate burst : Nat) (waiting : Bool) : Int :=
  if waiting || decide (credit < 0) then min (credit + (refillUnits rate : Nat)) ((burst * 65536 : Nat) : Int)
  else if credit > 0 then 0 else credit

/-- One refill of a shaper: SHAPER_SET takes effect here. A shaper whose credit is back at 0 holds nothing back any more (R217). -/
def Shaper.refill (h : Shaper) : Shaper :=
  let m := match h.meter.pend with
    | some p => { h.meter with rate := p.1, burst := p.2, pend := none, credit := min h.meter.credit ((p.2 * 65536 : Nat) : Int) }
    | none => h.meter
  let k := refillCredit m.credit m.rate m.burst (h.waiting && decide (m.credit < 0))
  { h with meter := { m with credit := k }, waiting := h.waiting && decide (k < 0) }

/-- Burst of a member's meters: the default of a shaper, 64 KiB (log entry 27). -/
def memberBurst : Nat := 65536

/-- Member number of relayed frames (R214). -/
def relayMember : Nat := 256

/-- Member a queued frame counts against. -/
def QFrame.memberNo (q : QFrame) : Nat := match q.member with | some f => f.val | none => relayMember

/-- A member of a logical port; by default RESERVED 0 and CEILING the port's rate (R214). -/
def PortSt.member (p : PortSt) (m : Nat) : Member := tgetD p.members m ⟨0, none, 0, 0, none⟩

/-- A member with its pending SCHED_FUNC_SET in force (R227). -/
def Member.applied (m : Member) : Member :=
  match m.pend with
  | some q => { m with reserved := q.1, ceiling := q.2, pend := none }
  | none => m

/-- RESERVED as booked in the sum of R214: of a pending SCHED_FUNC_SET where there is one. -/
def Member.booked (m : Member) : Nat := m.applied.reserved

/-- One refill of a member's meters: SCHED_FUNC_SET takes effect here (R217, R227). -/
def Member.refill (m0 : Member) (rate : Nat) : Member :=
  let m := m0.applied
  { m with
    resMeter := refillCredit m.resMeter m.reserved memberBurst false
    ceilMeter := refillCredit m.ceilMeter (m.ceiling.getD rate) memberBurst false }

/-- One refill of a port's members. -/
def State.refillMembers (s : State) (p : LPort) : State :=
  let rate := s.portMbps p
  s.modPort p (fun v => { v with members := v.members.map (fun q => (q.1, q.2.refill rate)) })

/-- SCHED_CLASS_SET takes effect (R227). -/
def PortSt.applyClasses (p : PortSt) : PortSt :=
  { p.pendClasses.foldl (fun v q => { v.modCls q.1 (fun k => { k with
      strict := q.2.1.strict, weight := q.2.1.weight, qmax := q.2.1.qmax, kmin := q.2.1.kmin, kmax := q.2.1.kmax, pmax := q.2.1.pmax })
      with dscpMap := q.2.2 }) p with pendClasses := [] }

/-- SHAPER_REFILL: every shaper and meter, and the settings that take effect at a refill (R217, R227). -/
def State.refillAll (s : State) : State :=
  let s1 : State := { s with funcs := s.funcs.map (fun q => (q.1, { q.2 with shapers := q.2.shapers.map (fun h => (h.1, h.2.refill)) })) }
  let s2 : State := { s1 with ports := s1.ports.map (fun q => (q.1, q.2.applyClasses)) }
  (forEach (List.finRange 32) s2 (fun st p => if thas st.ports p.val then st.refillMembers p else st)).rawFlush

/-! ### Gate lists (R221 to R225) -/

/-- Length of entry `i` of a list in a cycle: cut at the cycle's end, the last one lasting until it. -/
def GateList.len (g : GateList) (i : Nat) : Nat :=
  let start := ((g.entries.take i).map Prod.snd).sum
  let full := if i + 1 = g.entries.length then g.cycle - start else (g.entries.getD i (0, 0)).2
  min full (g.cycle - start)

/-- Whether class `c` is open in entry `i`. -/
def GateList.isOpen (g : GateList) (i c : Nat) : Bool := bit (g.entries.getD i (0, 0)).1.toNat c

/-- Time for which class `c` stays open from the start of entry `i` on, over at most `fuel` entries; an entry that the cycle's end cuts
away is never in force (R221, R223). -/
def GateList.openFrom (g : GateList) (fuel i c : Nat) : Nat :=
  match fuel with
  | 0 => 0
  | k + 1 => if g.len i = 0 ∨ g.isOpen i c then g.len i + g.openFrom k ((i + 1) % max 1 g.entries.length) c else 0

/-- The entry in force at a PTP time, and the time at which it began. -/
def GateList.entryAt (g : GateList) (t : Nat) : Nat × Nat :=
  let pos := (t + g.cycle * (g.base / max 1 g.cycle + 1) - g.base) % max 1 g.cycle
  let starts := (List.range g.entries.length).map (fun i => ((g.entries.take i).map Prod.snd).sum)
  let i := (starts.filter (fun x => decide (x ≤ pos))).length - 1
  (i, t - (pos - starts.getD i 0))

/-- Longest open window of a class in a list; none when it is open throughout (R224). -/
def GateList.longest (g : GateList) (c : Nat) : Option Nat :=
  let n := g.entries.length
  if (List.range n).all (fun i => g.len i == 0 || g.isOpen i c) then none
  else some (((List.range n).map (fun i => g.openFrom n i c)).foldl max 0)

/-- Time a frame of `len` bytes needs under R223, in ns. -/
def gateNeed (len mbps : Nat) : Nat := ceilDiv ((8 + len) * 8000) (max 1 mbps)

/-- Time for which class `c` stays open from now on a port: through entries, cycles, and into a pending list (R223). -/
def State.gateWindow (s : State) (p : LPort) (c : Nat) : Nat :=
  let v := s.port p
  let n := 1000000000
  match v.oper with
  | none => (match v.pend with
    | none => n
    | some g => (v.switchAt - s.ptp) + g.openFrom g.entries.length 0 c)
  | some o =>
    if !o.isOpen v.gateIdx c then 0
    else
      let left := (o.len v.gateIdx) - (s.ptp - v.gateAt)
      let w := left + o.openFrom o.entries.length ((v.gateIdx + 1) % max 1 o.entries.length) c
      match v.pend with
      | some g => if s.ptp + w < v.switchAt then w else (v.switchAt - s.ptp) + g.openFrom g.entries.length 0 c
      | none => if v.removing && decide (s.ptp + w ≥ v.switchAt) then n else w

/-- Time in ns that some bytes take on a port. -/
def bytesNs (n mbps : Nat) : Nat := ceilDiv (n * 8000) (max 1 mbps)

/-- A class is open now and stays so for the time some bytes take (R223, R225). -/
def State.gateHolds (s : State) (p : LPort) (c n : Nat) : Bool :=
  let v := s.port p
  if v.oper.isNone && v.pend.isNone then true
  else
    let open_ := match v.oper with
      | none => true
      | some o => o.isOpen v.gateIdx c
    open_ && decide (bytesNs n (s.portMbps p) ≤ s.gateWindow p c)

/-- A frame of a class may begin now under the gates: 8 bytes and the frame (R223). -/
def State.gateFits (s : State) (p : LPort) (c len : Nat) : Bool := s.gateHolds p c (8 + len)

/-- GATE_INTERVAL_END: the next entry is in force; entries of no length are passed over (R221). -/
def nextEntry (fuel : Nat) (g : GateList) (i : Nat) : Nat :=
  match fuel with
  | 0 => i
  | k + 1 => let j := (i + 1) % max 1 g.entries.length; if g.len j = 0 then nextEntry k g j else j

/-- The gate entry in force moves on. -/
def State.gateNext (s : State) (p : LPort) : State :=
  match (s.port p).oper with
  | none => s
  | some g => s.modPort p (fun v => { v with gateIdx := nextEntry g.entries.length g v.gateIdx, gateAt := s.ptp })

/-- GATE_LIST_SWITCH: the pending list becomes operational, or the operational list is removed (R222, R227). -/
def State.gateSwitch (s : State) (p : LPort) : State :=
  let v := s.port p
  match v.pend with
  | some g => s.modPort p (fun w => { w with oper := some g, pend := none, switchAt := 0, gateIdx := 0, gateAt := s.ptp })
  | none => if v.removing then s.modPort p (fun w => { w with oper := none, removing := false, switchAt := 0, gateIdx := 0 }) else s

/-- First cycle start of a list at or after a PTP time (R222). -/
def GateList.cycleStart (g : GateList) (t : Nat) : Nat :=
  if t ≤ g.base then g.base else g.base + ceilDiv (t - g.base) (max 1 g.cycle) * g.cycle

/-- After a step of PTP time, lists recompute their position and switch (R251). -/
def State.gatesRecompute (s : State) : State :=
  { s with ports := s.ports.map (fun q =>
      let v := q.2
      let e := match v.oper with
        | some g => g.entryAt s.ptp
        | none => (v.gateIdx, v.gateAt)
      (q.1, { v with gateIdx := e.1, gateAt := e.2 })) }

/-! ### Time stamps (R250 to R253) -/

/-- The stamp of a frame that starts now, or arrived at the time the machine keeps for it: the first bit after the start delimiter, in
quarter ns (R250). -/
def State.stampNow (s : State) (mbps : Nat) : Nat :=
  let t := s.rxAt.getD (s.ptp, s.ptpFrac)
  ((t.1 * 2 ^ 64 + t.2 + 64000 * 2 ^ 64 / max 1 mbps) * 4 / 2 ^ 64) % 2 ^ 64

/-- Puts a stamp into the queue of a physical port, or drops it into a gap marker; `flying` entries on their way into a ring still have
their place (R252). -/
def PhysSt.stamp (h : PhysSt) (flying : Nat) (e : TsEntry) : PhysSt :=
  let h1 := { h with tsSeq := add32 h.tsSeq 1 }
  if h.tsQueue.length + flying < 511 then { h1 with tsQueue := h.tsQueue ++ [{ e with seq := h.tsSeq }] }
  else
    let d := { h1 with tsDropped := satAdd max64 h.tsDropped 1 }
    match h.tsQueue.getLast? with
    | some l =>
      if l.marker then { d with tsQueue := h.tsQueue.dropLast ++ [{ l with ringOrCount := l.ringOrCount + 1 }] }
      else { d with tsQueue := h.tsQueue ++ [⟨0, 0, 0, true, 0xFF, 1, h.tsSeq, e.home⟩] }
    | none => d

/-- The 32 bytes of a time-stamp entry (R253). -/
def TsEntry.toBytes (e : TsEntry) (phase : Nat) : Bytes :=
  leBytes 8 e.stamp ++ leBytes 8 e.userData ++ leBytes 2 e.wqe ++ leBytes 1 (if e.marker then 0x31 else 0x30) ++ leBytes 1 e.lport ++
  leBytes 4 (e.ringOrCount % 2 ^ 32) ++ leBytes 4 e.seq ++ zeros 3 ++ leBytes 1 phase

/-- Writes a time-stamp entry at the producer of its ring (R112, R253). -/
def State.writeTs (s : State) (f : FuncId) (c : Nat) (e : TsEntry) : State :=
  match s.cq f c with
  | none => s
  | some q =>
    let l := q.prod
    let off := q.offset + 32 * (l % q.n)
    let s1 := s.modCq f c (fun v => { v with prod := (l + 1) % (2 * v.n), waiting := some s.nextId })
    let s2 := s1.startXfer f (keyIndex q.key) [(off, 28), (off + 28, 4)] true (e.toBytes (1 - l / q.n % 2)) (.tsEntry f c l e)
    match tget s2.xfers s.nextId with
    | some t => if t.phase = XPhase.issued then s2.modCq f c (fun v => { v with waiting := none }) else s2
    | none => s2

/-- Moves entries of a physical port's queue into the ring bound to it, while it has room (R253). -/
def State.tsPumpN (fuel : Nat) (s : State) (ph : PhysId) : State :=
  match fuel with
  | 0 => s
  | k + 1 =>
    let h := s.physPort ph
    match h.tsCq, h.tsQueue with
    | some (f, c), e :: rest => (match s.cq f c with
      | none => s
      | some q =>
        if q.faulted ∨ q.waiting.isSome ∨ q.occupied ≥ q.n then s
        else State.tsPumpN k ((s.modPhys ph (fun v => { v with tsQueue := rest })).writeTs f c e) ph)
    | _, _ => s

/-- Moves what can be moved. -/
def State.tsPump (s : State) (ph : PhysId) : State := State.tsPumpN 512 s ph

/-- Time-stamp entries of a physical port whose write into a ring is not yet issued (R252). -/
def State.tsFlying (s : State) (ph : PhysId) : Nat :=
  (s.xfers.filter (fun q => match q.2.purpose with
    | .tsEntry _ _ _ e => e.home == ph
    | _ => false)).length

/-- The write of a time-stamp entry was issued, which an ARM signals (R134), or failed: then the ring enters FAULTED and the entry goes
back to the queue (R253, R468). -/
def State.tsWritten (s : State) (f : FuncId) (c idx : Nat) (e : TsEntry) (r : XResult) : State :=
  match s.cq f c with
  | none => s
  | some q =>
    match r with
    | .ok _ =>
      let s0 := s.fireArm f c
      let s1 := if s.entryWaits q then s0 else s0.modCq f c (fun v => { v with waiting := none, faulted := false })
      forEach q.tsPorts s1 (fun st h => st.tsPump h)
    | _ =>
      let back := decide (ringDist q.n (idx + 1) q.prod = 0)
      let s1 := s.modCq f c (fun v => { v with waiting := none, faulted := true, prod := if back then idx else v.prod })
      let s2 := if back then s1.modPhys e.home (fun v => v.unstamp e) else s1
      if q.faulted then s2 else (s2.fault 3 2 (some f) c 0 0).signalBound f q.eventSource

/-! ### Deficit round robin (R213, R214) -/

/-- A queue in a deficit round robin: its number, deficit, quantum and the length of its next frame. -/
structure DrrQ where
  id : Nat
  deficit : Nat
  quantum : Nat
  len : Nat
  deriving DecidableEq, Repr

/-- Serves the first queue whose deficit covers its frame; a queue newly come to has its quantum added. -/
def drrPick (fuel : Nat) (l : List DrrQ) : Option (Nat × List DrrQ) :=
  match fuel with
  | 0 => none
  | k + 1 =>
    match l with
    | [] => none
    | c :: rest =>
      if c.deficit ≥ c.len then some (c.id, { c with deficit := c.deficit - c.len } :: rest)
      else match rest ++ [c] with
        | [] => none
        | d :: r => drrPick k ({ d with deficit := d.deficit + d.quantum } :: r)

/-- The queues in turn, the first being the one served last if it is still there; otherwise the first is newly come to. -/
def drrStart (last : Nat) (l : List DrrQ) : List DrrQ :=
  match l with
  | [] => []
  | d :: r => if d.id = last then l else { d with deficit := d.deficit + d.quantum } :: r

/-- A list of numbers turned so that it starts at the first number at or after `n`, or at the front. -/
def cyclicFrom (l : List Nat) (n : Nat) : List Nat := l.filter (fun x => decide (n ≤ x)) ++ l.filter (fun x => decide (x < n))

/-! ### The scheduler (R213, R214, R223, R225, R240, R242) -/

/-- The first frame of each member in a class queue: (member, frame), in queue order. -/
def firstFrames (q : List QFrame) : List (Nat × QFrame) :=
  q.foldl (fun acc x => if acc.any (fun y => y.1 == x.memberNo) then acc else acc ++ [(x.memberNo, x)]) []

/-- The frame that waits at the head of a class queue for a gate in which it fits (R223). -/
def ClassCfg.head (k : ClassCfg) : Option (QFrame × Tbl Nat) := k.pinned.filter (fun d => k.queue.contains d.1)

/-- The frame of a class queue that its members' meters let go next, with the members' deficits in the queue after it: members within
their reservation in turn, then the others by deficit round robin; none whose ceiling meter is negative (R214). -/
def State.dueFrame (s : State) (p : LPort) (cls : Nat) : Option (QFrame × Tbl Nat) :=
  let v := s.port p
  let k := v.cls cls
  let heads := firstFrames k.queue
  let ids := ((heads.map Prod.fst).foldl linsert []).filter (fun m => decide ((v.member m).ceilMeter ≥ 0))
  let frameOf := fun (m : Nat) => (heads.find? (fun h => h.1 == m)).map Prod.snd
  let first := ids.filter (fun m => decide ((v.member m).resMeter ≥ 0))
  match (cyclicFrom first (k.lastMember + 1)).head? with
  | some m => (frameOf m).map (fun q => (q, k.deficits))
  | none =>
    let qs := (cyclicFrom ids k.lastMember).map (fun m =>
      (⟨m, tgetD k.deficits m 0, max 1 ((v.member m).reserved / 1000) * 1024, ((frameOf m).map (fun q => q.len)).getD 64⟩ : DrrQ))
    match drrPick (16 * qs.length + 16) (drrStart k.lastMember qs) with
    | none => none
    | some (m, l) => (frameOf m).map (fun q => (q, l.foldl (fun t (d : DrrQ) => tset t d.id d.deficit) k.deficits))

/-- The head of a class queue: the frame that waits there for its gate, behind which the others wait, else the one that is due (R214,
R223). -/
def State.pickMember (s : State) (p : LPort) (cls : Nat) : Option (QFrame × Tbl Nat) :=
  match ((s.port p).cls cls).head with
  | some d => if ((s.port p).member d.1.memberNo).ceilMeter ≥ 0 then some d else none
  | none => s.dueFrame p cls

/-- The classes allowed to go now whose due frame does not fit its gate keep that frame at their head (R223). -/
def State.pinHeads (s : State) (p : LPort) (allowed : Nat → Bool) : State :=
  forEach ((List.range 8).filter allowed) s (fun st c =>
    let k := (st.port p).cls c
    if k.pfcPaused || k.head.isSome then st
    else match st.dueFrame p c with
      | some d => if st.gateFits p c d.1.len then st else st.modPort p (fun v => v.modCls c (fun w => { w with pinned := some d }))
      | none => st)

/-- Whether class `c` is express: every class while preemption is inactive (R239). -/
def PortSt.isExpress (p : PortSt) (c : Nat) : Bool := !p.preemptActive || bit p.express.toNat c

/-- The frame a class may send now: not paused by PFC, past its meters, within its gate (R213, R223, R242). -/
def State.classFrame (s : State) (p : LPort) (c : Nat) : Option (QFrame × Tbl Nat) :=
  let v := s.port p
  if (v.cls c).pfcPaused then none
  else match s.pickMember p c with
    | none => none
    | some d => if s.gateFits p c d.1.len then some d else none

/-- The class served next among those allowed: STRICT ones highest first, then by deficit round robin; with the classes'
deficits after it (R213). -/
def State.pickClass (s : State) (p : LPort) (allowed : Nat → Bool) : Option (Nat × QFrame × Tbl Nat × List DrrQ) :=
  let v := s.port p
  let el := ((List.range 8).filter allowed).filterMap (fun c => (s.classFrame p c).map (fun d => (c, d)))
  let strict := (el.filter (fun e => (v.cls e.1).strict)).getLast?
  match strict with
  | some e => some (e.1, e.2.1, e.2.2, [])
  | none =>
    let qs := (cyclicFrom (el.map Prod.fst) v.lastClass).filterMap (fun c => (el.find? (fun e => e.1 == c)).map (fun e =>
      (⟨c, (v.cls c).deficit, (v.cls c).weight * 1024, e.2.1.len⟩ : DrrQ)))
    match drrPick (16 * qs.length + 16) (drrStart v.lastClass qs) with
    | none => none
    | some (c, l) => (el.find? (fun e => e.1 == c)).map (fun e => (c, e.2.1, e.2.2, l))

/-- The list without the first frame equal to `q`. -/
def dropFrame (l : List QFrame) (q : QFrame) : List QFrame :=
  match l with
  | [] => []
  | x :: r => if x = q then r else x :: dropFrame r q

/-- Stamps a raw SEND that asked for it as its first bit leaves (R251, R252). -/
def State.stampFrame (s : State) (p : LPort) (q : QFrame) : State :=
  if !q.stamp then s
  else
    let user := match q.raw with
      | some (f, r, slot) => (match s.job f r slot with | some j => entUser j.ent | none => 0)
      | none => 0
    let place := match q.raw with
      | some (f, r, slot) => (match s.ring f r with | some g => (slot % g.n, r) | none => (0, r))
      | none => (0, 0)
    (s.modPhys (physOf p) (fun h => h.stamp (s.tsFlying (physOf p)) ⟨s.stampNow (s.portMbps p), user, place.1, false, p.val, place.2, 0, physOf p⟩)).tsPump (physOf p)

/-- Marks CE on an ECT frame as it leaves its queue, by the depth of the queue (R205). -/
def State.markFrame (s : State) (p : LPort) (c : Nat) (q : QFrame) : State × QFrame :=
  let k := (s.port p).cls c
  let d := k.bytes
  let tpid := (s.port p).tpid
  let e := q.fr.ecn tpid
  if (e ≠ 1 ∧ e ≠ 2) ∨ d ≤ k.kmin then (s, q)
  else if d ≥ k.kmax then (s, { q with fr := q.fr.markCe tpid })
  else
    let (u, s1) := s.fresh
    if (Config.ceDraw u).toNat * (k.kmax - k.kmin) * 65536 < k.pmax * (d - k.kmin) * 2 ^ 32 then (s1, { q with fr := q.fr.markCe tpid })
    else (s1, q)

/-- A class queue after a frame of a member has left it; the deficits of what has emptied return to 0 (R213, R214). -/
def ClassCfg.left (k : ClassCfg) (rest : List QFrame) (deficits : Tbl Nat) (member : Nat) : ClassCfg :=
  { k with
    queue := rest
    deficit := if rest.isEmpty then 0 else k.deficit
    deficits := deficits
    lastMember := member
    pinned := k.pinned.filter (fun d => rest.contains d.1) }

/-- A frame's first bit leaves: it is charged to its member's meters and becomes the frame being sent. -/
def State.startFrame (s : State) (p : LPort) (c : Nat) (q : QFrame) (deficits : Tbl Nat) (drr : List DrrQ) : State :=
  let w : Int := ((wireBytes q.len) * 65536 : Nat)
  let mk := s.markFrame p c q
  let s1 := mk.1.modPort p (fun v =>
    let m := v.member q.memberNo
    let rest := dropFrame (v.cls c).queue q
    let v1 := drr.foldl (fun x (d : DrrQ) => x.modCls d.id (fun k => { k with deficit := d.deficit })) v
    { v1.modCls c (fun k => k.left rest (deficits.filter (fun d => rest.any (fun x => x.memberNo == d.1))) q.memberNo) with
      members := tset v.members q.memberNo { m with resMeter := m.resMeter - w, ceilMeter := m.ceilMeter - w }
      lastClass := if drr.isEmpty then v.lastClass else c
      sending := some (mk.2, c, q.len)
      sendingAt := s.time })
  (s1.emit (.frame p mk.2.fr q.badFcs)).stampFrame p q

/-- Gives up a queued frame: a raw SEND completes, since raw frames are not reliable (log entry 28). -/
def State.dropQFrame (s : State) (q : QFrame) : State :=
  match q.raw with
  | some (f, r, slot) => s.finishJob f r slot stOk
  | none => s

/-- A queue without the frames that its members would send next and that cannot go, and those frames; `seen` are the members whose next
frame is already known. -/
def splitHeads (bad : QFrame → Bool) : List Nat → List QFrame → List QFrame × List QFrame
  | _, [] => ([], [])
  | seen, q :: r =>
    if !seen.contains q.memberNo && bad q then let d := splitHeads bad seen r; (d.1, q :: d.2)
    else let d := splitHeads bad (q.memberNo :: seen) r; (q :: d.1, d.2)

/-- Drops queued frames longer than a MAX_FRAME lowered since, counted as EGRESS_OVERSIZE: none is ever transmitted (R236). -/
def State.dropTooLong (s : State) (p : LPort) : State :=
  forEach (List.range 8) s (fun st c =>
    let k := (st.port p).cls c
    let d := k.queue.filter (fun q => decide (q.len > (st.port p).maxFrame))
    if d.isEmpty then st
    else forEach d ((st.modPort p (fun v => v.modCls c (fun k => k.left (k.queue.filter (fun q => decide (q.len ≤ v.maxFrame))) k.deficits k.lastMember))).countPort
      p 15 d.length) (fun w q => w.dropQFrame q))

/-- Drops head frames that no open window of the operational list can hold (R224). -/
def State.dropOversize (s0 : State) (p : LPort) : State :=
  let s := s0.dropTooLong p
  match (s.port p).oper with
  | none => s
  | some g => forEach (List.range 8) s (fun st c => match g.longest c with
    | none => st
    | some w =>
      let k := (st.port p).cls c
      let d := splitHeads (fun q => decide (gateNeed q.len (st.portMbps p) > w)) [] k.queue
      if d.2.isEmpty then st
      else forEach d.2 (st.modPort p (fun v => { v.modCls c (fun k => k.left d.1 k.deficits k.lastMember) with
        gateOversize := v.gateOversize + d.2.length })) (fun w q => w.dropQFrame q))

/-- Bytes of the frame being sent that its first fragment carries when an express frame begins now: of what has been on the wire since the
frame began, behind it the gap of 12 bytes, the fragment with its 8 bytes of preamble and its 4-byte mFCS ends at a 32-byte block
(R240). -/
def State.sentBytes (s : State) (p : LPort) : Nat := ((s.time - (s.port p).sendingAt) * s.portMbps p / 8000 - 12) / 32 * 32 - 12

/-- EGRESS_FRAME_START: an idle port resumes the suspended frame or starts the next; a busy one is preempted by an express frame, unless
what it sends has been suspended before (R213, R225, R240, R242). -/
def State.egressStart (s0 : State) (p : LPort) : State :=
  let s := s0.dropOversize p
  let v := s.port p
  if !s.power.on || s.stop.stopped || !s.portUp p || v.paused then s0
  else match v.sending with
    | some (q, c, left) =>
      let sent := s.sentBytes p
      if !v.preemptActive || v.isExpress c || v.suspended.isSome || left != q.len || decide (sent < 64 * (1 + v.addFrag)) || decide (left < sent + 64) then s
      else
        let s1 := s.pinHeads p (fun k => bit v.express.toNat k)
        match s1.pickClass p (fun k => bit v.express.toNat k) with
        | none => s1
        | some (k, fr, ms, drr) =>
          ((s1.modPort p (fun w => { w with suspended := some (q, c, left - sent) })).countPort p 21 1).startFrame p k fr ms drr
    | none => match v.suspended with
      | some (q, c, left) =>
        let s1 := s.pinHeads p (fun k => bit v.express.toNat k)
        (match s1.pickClass p (fun k => bit v.express.toNat k) with
        | some (k, fr, ms, drr) => s1.startFrame p k fr ms drr
        | none =>
          if (v.cls c).pfcPaused || !s1.gateHolds p c (left + 9) then s1
          else s1.modPort p (fun w => { w with suspended := none, sending := some (q, c, left), sendingAt := s.time }))
      | none =>
        let s1 := s.pinHeads p (fun _ => true)
        match s1.pickClass p (fun _ => true) with
        | some (k, fr, ms, drr) => s1.startFrame p k fr ms drr
        | none => s1

/-- TX_FRAME_END: the last bit of a frame leaves: it is counted, a raw SEND completes, and room in the queue may let other frames in
(R215, R249, R254). A cut-through frame that is ended with an inverted frame check sequence counts in CUTTHROUGH_ABORT of the logical port
it leaves on, and nowhere else: DESIGN CHOICE, R28 does not say which port counts it (log entry 57). -/
def State.txEnd (s : State) (p : LPort) : State :=
  match (s.port p).sending with
  | none => s
  | some (q, _, _) =>
    let s1 := (((s.modPort p (fun v => { v with sending := none })).countPort p 2 1).countPort p 3 q.len)
    let s2 := if q.badFcs then (s1.countPort p 9 1).emit (.abort p) else s1
    let s3 := match q.raw with
      | some (f, r, slot) => (s2.modJob f r slot (fun j => { j with bytes := netLen j.ent })).finishJob f r slot stOk
      | none => s2
    s3.rawFlush

/-- Discards the frames queued on a logical port, the one being sent and the one suspended. -/
def State.discardQueues (s : State) (p : LPort) : State :=
  let v := s.port p
  let all := v.classes.flatMap (fun (q : Nat × ClassCfg) => q.2.queue) ++ v.own.map Prod.snd
  let cur := (v.sending.map (fun q => q.1)).toList ++ (v.suspended.map (fun q => q.1)).toList
  let s1 := s.modPort p (fun w => { w with
    classes := w.classes.map (fun q => (q.1, { q.2 with queue := [], deficit := 0, deficits := [], pinned := none }))
    own := []
    sending := none
    suspended := none })
  forEach (cur ++ all) s1 (fun st q => st.dropQFrame q)

end Sys2Proof.Machine
end

