-- ==== Sys2Proof/Machine/Settle.lean ====
section
/-! DEFINITION. Machine/Settle.lean: what the end of a transfer leads to, by its purpose, and the end of a step. -/

namespace Sys2Proof.Machine

/-- A received packet, or a FLAG, was placed, or could not be; collective packets that VPSN passed reach their engine (R176,
R258). -/
def rxEnded (n : Nat) (d : State × List RxLast) : State := d.1.collArrivals n d.2

/-- The RECV that the message of a PSN of a ROCE_RC connection consumes: one for each message before it that consumes one and has not
reached its completion point (R154, R166). -/
def State.roceRecv (s : State) (n : Nat) (c : Conn) (psn : Nat) : Option (Nat × Job) :=
  let k := (c.rx.lasts.filter (fun l => (l.type == 0x03 || l.imm.isSome) && l.psn != psn && decide (c.psnSub psn l.psn < 2 ^ 23))).length
  (s.postedRecvs c n)[k]?

/-- A remote access error on a ROCE_RC connection moves it to ERROR; the RECV that the message of the refused PSN consumed completes with
ACCESS_FAULT, what was placed in it undefined (R147, R154). -/
def State.roceFatal (s : State) (n psn : Nat) (recv : Bool) : State :=
  match s.conn n with
  | none => s
  | some c =>
    if c.mode != .roce || c.state != .ready then s
    else match (if recv then s.roceRecv n c psn else none) with
      | some (r, j) => ((s.undefineRuns (s.jobTargets .send j)).finishJob c.func r j.slot stAccessFault).connError n
      | none => s.connError n

/-- Whether a result is a refusal of a peer's access. -/
def XResult.refuses : XResult → Bool
  | .xlateFault => true
  | .gone => true
  | _ => false

/-- A packet's placement ended on its connection: on ROCE_RC a refusal is fatal (R147). -/
def State.packetEnded (s : State) (n psn : Nat) (x : XResult) : State :=
  let recv := match s.conn n with
    | some c => c.rx.spans.any (fun w => w.psn == psn && w.key == 0)
    | none => false
  let s1 := rxEnded n (s.packetDone n psn (match x with | .ok b => b.length | _ => 0) x)
  if x.refuses then s1.roceFatal n psn recv else s1

/-- A raw frame was placed in its RECV, or could not be (R247, R248). -/
def State.rawRecvDone (s : State) (f : FuncId) (r slot : Nat) (x : XResult) : State :=
  match x with
  | .ok b => (s.modJob f r slot (fun j => { j with bytes := b.length })).finishJob f r slot stOk
  | _ => s.finishJob f r slot x.status

/-- The output of a TRACE_READ or HANG_GRAPH is placed and visible: its response is written. One of which nothing could be written answers
BAD_STATE; one that ended with only part of it in place answers OK, having changed memory (R42, log entry 35). -/
def State.firmwareDone (s : State) (f : FuncId) (x : XResult) : State :=
  match (s.func f).mbx.long with
  | some (.writing _ payload, _) => (match x with
    | .ok _ => s.answerLong f (Reply.ok payload)
    | _ => s.answerLong f (Reply.refuse rcBadState 0))
  | _ => s

/-- What the end of a transfer leads to. -/
def State.onXfer (s : State) (p : Purpose) (x : XResult) : State :=
  match p with
  | .copySrc f r slot => s.copySrcRead f r slot x
  | .copyTag f r slot => s.copyTagRead f r slot x
  | .copyDst f r slot => s.copyPlaced f r slot x
  | .copyTagOut f r slot => s.copyPlaced f r slot x
  | .copyAgain f r slot => s.copyAgain f r slot
  | .sendSrc f r slot => s.sendSrcDone f r slot x
  | .rawSrc f r slot => s.rawSrcDone f r slot x
  | .resend n psn => s.resendDone n psn x
  | .packet n psn => s.packetEnded n psn x
  | .placing n psn => s.markWritten n psn
  | .flag n psn => s.packetEnded n psn x
  | .readResp n psn => (s.rxRelease n (psn + 2 ^ 32)).responsePlaced n psn 0x04 x
  | .atomicResp n psn => (s.rxRelease n (psn + 2 ^ 32)).responsePlaced n psn 0x06 x
  | .respond n psn =>
    let s1 := rxEnded n (s.respondDone n psn x)
    (match x with
    | .ok _ => s1
    | _ => s1.roceFatal n psn false)
  | .atomicTarget n psn =>
    let s1 := rxEnded n (s.atomicDone n psn x)
    (match x with
    | .ok _ => s1
    | _ => s1.roceFatal n psn false)
  | .writeBack f r => s.writtenBack f r
  | .writtenBack _ _ => s
  | .cqEntry f c i e => s.cqeWritten f c i e x
  | .cqPosted f c i e => (match x with
    | .ok _ => s
    | _ => s.cqeWritten f c i e x)
  | .tsEntry f c i e => s.tsWritten f c i e x
  | .tsPosted f c i e => (match x with
    | .ok _ => s
    | _ => s.tsWritten f c i e x)
  | .rawRecv f r slot => s.rawRecvDone f r slot x
  | .collIn f g m k => s.collInDone f g m k x
  | .collOut f g m k => s.collOutDone f g m k x
  | .collSlot f g k => s.collSlotDone f g k x
  | .runIn n slot => s.runInDone n slot x
  | .runOut n _ => s.runOutDone n x
  | .glean n => s.gleanDone n x
  | .firmware f => s.firmwareDone f x
  | .mirrorEntry _ _ => s
  | .ringEntry f r last => s.entryTaken f r last x
  | .pathFenced f => s.faultCqs f

/-- Draws the consequences of ended transfers, oldest first. -/
def State.drain (fuel : Nat) (s : State) : State :=
  match fuel with
  | 0 => s
  | k + 1 =>
    match s.agenda with
    | [] => s
    | (p, x) :: rest => State.drain k (({ s with agenda := rest } : State).onXfer p x)

/-- Ends a step: consequences of ended transfers, invalidations that await nothing, runs that wait for a completion entry, replays that go
on, entries to be read, refills that are due, and frames that leave the receive buffer (R81, R93, R104, R110, R243, R324). -/
def State.settle (s : State) : State :=
  let s1 := (State.drain 65536 s).endInvals
  let s2 := if s1.agenda.isEmpty then s1 else (State.drain 65536 s1).endInvals
  let s3 := (forEach (List.finRange 4) s2.pumpRuns (fun st l => st.replayRun l)).readEntries
  let s4 := if s3.agenda.isEmpty then s3 else State.drain 65536 s3
  (forEach [0, 1] s4 (fun st d => st.refillIdle d)).freeHeld

/-- The meaning of a mailbox-command row: firmware takes the command and runs its plan. -/
def State.perform (s : State) (f : FuncId) (op : Nat) (plan : Cmd → State → Plan) : Out :=
  next (s.runCommand f op plan).settle

end Sys2Proof.Machine
end

