-- ==== Sys2Proof/Machine/Fields.lean ====
section
/-! DEFINITION. Machine/Fields.lean: payload fields that several mailbox commands share: event sources, functions (R375, R385),
logical ports (R228), and objects of a function (R465, R466). -/

namespace Sys2Proof.Machine

/-- An event-source field: 0 for none, or 16 to 4,094. -/
def badSource (n : Nat) : Bool := n != 0 && !(decide (16 ≤ n) && decide (n ≤ 4094))

/-- The FUNC field at payload offset 0, as a function. -/
def Cmd.target (c : Cmd) : FuncId := ⟨c.u16 0 % 256, by omega⟩

/-- The checks of a FUNC field: a function number; the function named fenced, unless allowed; DISABLED, unless allowed
(R375, R385). -/
def targetChecks (c : Cmd) (s : State) (allowed : List FuncState) : List Check :=
  let st := (s.func c.target).state
  [argCheck 0 (c.u16 0 ≥ 256),
   checkOn 2 rcFenced [0] (st.isFenced && !allowed.contains st),
   checkOn 5 rcBadState [0] (st == .disabled && !allowed.contains .disabled)]

/-- The checks of a FUNC field at another payload offset. -/
def funcChecks (c : Cmd) (s : State) (off : Nat) : List Check :=
  let n := c.u16 off
  let st := (s.func ⟨n % 256, by omega⟩).state
  [argCheck off (decide (n ≥ 256)),
   checkOn 2 rcFenced [off] st.isFenced,
   checkOn 5 rcBadState [off] (st == .disabled)]

/-- A 1-byte logical-port field, as a port. -/
def Cmd.port (c : Cmd) (off : Nat) : LPort := ⟨c.u8 off % 32, by omega⟩

/-- A logical-port field must name a logical port of the present breakout (R228). -/
def portCheck (c : Cmd) (s : State) (off : Nat) : Check := argCheck off (decide (c.u8 off ≥ 32) || !s.portExists (c.port off))

/-- A 1-byte physical-port field. -/
def Cmd.phys (c : Cmd) (off : Nat) : PhysId := ⟨c.u8 off % 4, by omega⟩

/-- A PORT_BREAKOUT or PORT_RESET holds a logical port (R43). -/
def State.portHeld (s : State) (p : LPort) : Bool :=
  s.heldBy (fun j => match j with
    | .portBreakout ph _ => ph == physOf p
    | .portReset q => q == p
    | _ => false)

/-- The checks of a logical-port field: it names a port, and no long command holds it. -/
def portChecks (c : Cmd) (s : State) (off : Nat) : List Check := [portCheck c s off, busyOn [off] (s.portHeld (c.port off))]

/-- The owner of the connection a field names (R466). -/
def State.connOwner (s : State) (n : Nat) : Option FuncId := (s.conn n).map (fun c => c.func)

/-- The checks of a CONNECTION field. -/
def connChecks (c : Cmd) (s : State) (off : Nat) : List Check := ownedChecks s c off (s.connOwner (c.u32 off))

/-- The connection a field names, or one that no check lets through. -/
def State.connD (s : State) (n : Nat) (g : Conn → Bool) : Bool := match s.conn n with | some c => g c | none => false

/-- A 4-byte field that names nothing. -/
def noneId : Nat := 0xFFFFFFFF

end Sys2Proof.Machine
end

