-- ==== Sys2Proof/Machine/PortOps.lean ====
section
/-! DEFINITION. Machine/PortOps.lean: a logical port going down, coming up and running slower (R190, R229, R233, R239, R390), and
the frames its connections need (R237). -/

namespace Sys2Proof.Machine

/-! ### Frames a connection needs (R145, R237) -/

/-- The frame that a full packet of a connection needs on a port whose inserted tags are `tags` (R237; for ROCE_RC by the headers
of R164). -/
def State.frameNeed (_s : State) (c : Conn) (tags : Nat) : Nat :=
  let dst := if c.node then Config.nodeAddr c.nodeOf else c.peerAddr
  let ip := if isV4 dst then 20 else 40
  if c.native then 14 + 4 * tags + ip + 8 + 32 + 4 + c.pmtuBytes + (if c.encrypt then 16 else 0) + 4
  else 14 + 4 * tags + ip + 8 + RoceOp.writeOnlyImm.headers + c.pmtuBytes + 4 + 4

/-- A connection can use a logical port: the one it names; for a NODE connection a next hop of its node in either path table; else any of
its home die (R145, R237, R365, R366). -/
def State.connUses (s : State) (c : Conn) (p : LPort) : Bool :=
  match c.port with
  | some q => q == p
  | none =>
    if c.node then [false, true].any (fun e => (s.relay.lookup e c.nodeOf).any (fun h => h.2.hops.contains p.val))
    else dieOfPort p == dieOf c.func

/-- A connection has been connected to its peer. -/
def Conn.connected (c : Conn) : Bool := c.state != .reset

/-- The connected connection that needs the largest frame on a port, with that size; `tags` as inserted there. -/
def State.largestNeed (s : State) (p : LPort) (tags : Nat) : Option (Nat × Nat) :=
  (s.conns.filter (fun q => q.2.connected && s.connUses q.2 p)).foldl (fun best q =>
    let n := s.frameNeed q.2 tags
    match best with
    | some b => if n > b.2 then some (q.1, n) else some b
    | none => some (q.1, n)) none

/-- A shortfall report of one entry in the layout of R320: what is short, what is needed, what there is (log entry 30). -/
def oneShort (what needed available : Nat) : Bytes :=
  leBytes 4 1 ++ zeros 4 ++ leBytes 4 what ++ zeros 4 ++ leBytes 8 needed ++ leBytes 8 available

/-! ### Down and up -/

/-- The logical port a path of a connection uses at present, if it is settled (R190, R367). -/
def State.pathPort (s : State) (n : Nat) (c : Conn) (path : Nat) : Option LPort :=
  match c.port with
  | some p => some p
  | none =>
    if c.node then
      (s.relay.flows.find? (fun x => x.die == dieOf c.func && x.node == c.nodeOf && x.conn == c.peer && x.path == path)).map (fun x => x.hop)
    else
      let ups := s.livePorts.filter (fun p => s.portUp p && dieOfPort p == dieOf c.func)
      ups[Config.anyPort n path % max ups.length 1]?

/-- Every path of a READY native connection that meets a condition fails (R190). -/
def State.failPaths (s : State) (uses : Nat → Conn → Nat → Bool) : State :=
  let hit := s.conns.flatMap (fun q =>
    if q.2.state == .ready && q.2.native then (List.range (max 1 q.2.npaths)).filterMap (fun i => if uses q.1 q.2 i then some (q.1, i) else none)
    else [])
  forEach hit s (fun st e => st.pathFail e.1 e.2)

/-- A logical port goes down: its queued frames are discarded, and every path that uses it fails (R190, R229, R233). -/
def State.portDown (s : State) (p : LPort) : State :=
  if !(s.port p).up then s
  else
    let s1 := s.failPaths (fun n c i => s.pathPort n c i == some p)
    (s1.modPort p (fun v => { v with
      up := false, paused := false, preemptActive := false, verifySent := 0
      classes := v.classes.map (fun q => (q.1, { q.2 with pfcPaused := false, xoffSent := false })) })).discardQueues p

/-- Preemption verification starts, or preemption is off (R239). -/
def State.startVerify (s : State) (p : LPort) : State :=
  let v := s.port p
  let s1 := s.modPort p (fun w => { w with preemptActive := false, verifySent := b2n (v.up && v.preempt) })
  if v.up && v.preempt then s1.emit (.verify p) else s1

/-- A logical port comes up on `lanes` lanes. -/
def State.portComeUp (s : State) (p : LPort) (lanes : Nat) : State :=
  (s.modPort p (fun v => { v with up := true, lanes := lanes })).startVerify p

/-- A meter whose rate, in force or still to come, comes down to a ceiling (R217, R390 step 4). -/
def Meter.cap (m : Meter) (ceil : Nat) : Meter :=
  { m with rate := min m.rate ceil, pend := m.pend.map (fun q => (min q.1 ceil, q.2)) }

/-- The shapers of a function on a port whose rate exceeds its ceiling come down to it (R390 step 4). -/
def Func.capShapers (v : Func) (p : LPort) (ceil : Nat) : Func :=
  { v with shapers := v.shapers.map (fun (q : Nat × Shaper) => if q.2.lport = p then (q.1, { q.2 with meter := q.2.meter.cap ceil }) else q) }

/-- The functions with a reservation on a port (R395). -/
def State.portHolders (s : State) (p : LPort) : List FuncId :=
  allFuncs.filter (fun f => match tget (s.port p).members f.val with | some m => decide (m.booked > 0) | none => false)

/-- A port falls to a lower rate: its bandwidth settings are adjusted, and the functions affected, as those with a reservation there, hear
of it (R390, R395). -/
def State.rescale (s : State) (p : LPort) (before after : Nat) : State :=
  let v0 := s.port p
  let v : PortSt := { v0 with members := v0.members.map (fun q => (q.1, q.2.applied)) }
  let sum := (v.members.map (fun q => q.2.reserved)).sum
  let adj := fun (m : Member) => ({ m with
    ceiling := m.ceiling.map (fun k => min k after)
    reserved := if sum ≤ after then m.reserved else m.reserved * after / max 1 sum } : Member)
  let s1 := s.modPort p (fun w => { w with members := v.members.map (fun q => (q.1, adj q.2)) })
  let hit := allFuncs.filter (fun f => (s.portHolders p).contains f ||
    (match tget v.members f.val with | some m => decide (adj m ≠ m) | none => false) ||
    (s.func f).shapers.any (fun q => q.2.lport == p && q.2.meter.cap ((adj (v.member f.val)).ceiling.getD after) != q.2.meter))
  let s2 := forEach hit s1 (fun st f => st.modFunc f (fun w => w.capShapers p ((adj (v.member f.val)).ceiling.getD after)))
  ({ s2 with degraded := true } : State).postFallow 4 2 p.val 0 0 before after hit

/-- The logical port runs below its lane count (R396). -/
def State.portDegraded (s : State) (p : LPort) : Bool :=
  decide ((s.port p).lanes < breakoutLanes (s.physPort (physOf p)).breakout)

/-- The logical ports of a physical port under its breakout. -/
def State.portsOf (s : State) (ph : PhysId) : List LPort := s.livePorts.filter (fun p => physOf p == ph)

/-! ### Lanes (R231 to R233) -/

/-- The logical port a lane of a physical port belongs to. -/
def State.portOfLane (s : State) (ph : PhysId) (lane : Nat) : LPort :=
  let k := breakoutLanes (s.physPort ph).breakout
  ⟨(ph.val * 8 + lane % 8 / k * k) % 32, by omega⟩

/-- The lane of 0 to 7 that a lane number stands for: lane 8 stands for the one it replaces. -/
def PhysSt.laneRole (h : PhysSt) (lane : Nat) : Nat := if lane = 8 then h.spareFor.getD 8 else lane

/-- The spare lane can take over a lane: one of a link to another 7440, the spare unused and no swap in progress (R231). -/
def State.spareReady (s : State) (ph : PhysId) (lane : Nat) : Bool :=
  let h := s.physPort ph
  (s.port (s.portOfLane ph lane)).peer7440 && !h.spareUsed && h.swap.isNone && !h.dark

/-- A logical port that was up is lost, not taken down by a command: a fault is recorded (R439). -/
def State.portLost (s : State) (p : LPort) : State := if (s.port p).up then (s.fault 7 1 none p.val 0 0).portDown p else s

/-- A swap onto the spare lane begins; after a sudden loss a one-lane port is down until it is complete (R232). -/
def State.beginSwap (s : State) (ph : PhysId) (lane : Nat) (hitless : Bool) : State :=
  let s1 := s.modPhys ph (fun h => { h with swap := some (lane, hitless) })
  if !hitless && breakoutLanes (s.physPort ph).breakout == 1 then s1.portLost (s.portOfLane ph lane) else s1

/-- LANE_SWAP_DONE: the spare carries the lane (R232). -/
def State.swapDone (s : State) (ph : PhysId) : State :=
  match (s.physPort ph).swap with
  | none => s
  | some (lane, hitless) =>
    let p := s.portOfLane ph lane
    let s1 := s.modPhys ph (fun h => { h with swap := none, spareFor := some lane, spareUsed := true })
    let s2 := s1.postFallow 3 1 (ph.val * 256 + lane) 0 0 (s1.port p).lanes (s1.port p).lanes (s1.portHolders p)
    if !hitless && breakoutLanes (s.physPort ph).breakout == 1 && !(s.port p).up then s2.portComeUp p 1 else s2

/-- A lane fails with no spare left: towards a 7440 its logical port runs one lane narrower, otherwise it goes down (R233). -/
def State.loseLane (s : State) (ph : PhysId) (lane : Nat) : State :=
  let h := s.physPort ph
  let role := h.laneRole lane
  if role = 8 ∨ h.failedLanes.contains role then s
  else
    let p := s.portOfLane ph role
    let k := min (s.port p).lanes (breakoutLanes h.breakout)
    let s1 := s.modPhys ph (fun v => { v with failedLanes := linsert v.failedLanes role })
    let s2 := ({ s1 with degraded := true } : State).postFallow 3 3 (ph.val * 256 + role) 0 0 k (k - 1) (s1.portHolders p)
    if (s.port p).peer7440 && decide (k > 1) then (s2.modPort p (fun v => { v with lanes := k - 1 })).rescale p (200000 * k) (200000 * (k - 1))
    else s2.portLost p

end Sys2Proof.Machine
end

