-- ==== Sys2Proof/Machine/PortCmds.lean ====
section
/-! DEFINITION. Machine/PortCmds.lean: the commands of the 0x0600 to 0x0622 range (R229, R237 to R247, R250 to R255). -/

namespace Sys2Proof.Machine

/-- PORT_QUERY (R255). -/
def portQueryPlan (c : Cmd) (s : State) : Plan :=
  let p := c.port 0
  queryPlan false 8 (portChecks c s 0 ++ reserved c 1 7) (fun st =>
    let v := st.port p
    let h := st.physPort (physOf p)
    let lanes := min v.lanes (breakoutLanes h.breakout)
    let mine := fun (n : Nat) => decide (p.val % 8 ≤ n) && decide (n < p.val % 8 + breakoutLanes h.breakout)
    leBytes 1 (b2n v.up) ++ leBytes 1 h.breakout ++ leBytes 1 lanes ++
    leBytes 1 (match h.spareFor with | some n => if mine n then n else 0xFF | none => 0xFF) ++
    leBytes 1 (b2n v.preemptActive) ++ leBytes 1 v.flow ++ leBytes 2 v.maxFrame ++ leBytes 6 v.mac.toNat ++ zeros 2 ++
    leBytes 4 (Config.txLatencyPs p.val).toNat ++ leBytes 4 (Config.rxLatencyPs p.val).toNat)

/-- Receive-buffer bytes that a physical port's PFC classes claim, with logical port `p` set to FLOW, PFC_CLASSES and XOFF (R243). -/
def State.pfcClaim (s : State) (p : LPort) (flow classes xoff : Nat) : Nat :=
  ((s.portsOf (physOf p)).map (fun q =>
    let v := s.port q
    let fl := if q = p then flow else v.flow
    let cl := if q = p then classes else v.pfcClasses.toNat
    let xo := if q = p then xoff else v.xoff
    if fl = 2 then (((List.range 8).filter (bit cl)).length) * (xo + 0x100000) else 0)).sum

/-- The settings of a PORT_SET put into a port; leaving a FLOW mode ends its holds. -/
def PortSt.set (v : PortSt) (c : Cmd) : PortSt :=
  { v with
    flow := c.u8 1, maxFrame := c.u16 2, mac := BitVec.ofNat 48 (c.field 6 4)
    pfcClasses := BitVec.ofNat 8 (c.u8 10), express := BitVec.ofNat 8 (c.u8 11)
    preempt := bit (c.u8 12) 0, addFrag := bits (c.u8 12) 2 1
    strip := bit (c.u8 13) 0, tagEn := bit (c.u8 13) 1
    tpid := BitVec.ofNat 16 (c.u16 14), tci := BitVec.ofNat 16 (c.u16 16)
    xoff := c.u32 18, xon := c.u32 22, pfcQuanta := BitVec.ofNat 16 (c.u16 26)
    paused := v.paused && c.u8 1 == 1
    classes := v.classes.map (fun q => (q.1, { q.2 with pfcPaused := q.2.pfcPaused && c.u8 1 == 2, xoffSent := q.2.xoffSent && c.u8 1 == 2 })) }

/-- PORT_SET (R237, R239, R243, R255); DEGRADED_OK on a port below its lane count (R397). -/
def portSetPlan (c : Cmd) (s : State) : Plan :=
  let p := c.port 0
  let need := s.largestNeed p (b2n (bit (c.u8 13) 1))
  let short := match need with | some q => decide (q.2 > c.u16 2) | none => false
  ⟨true, 32,
   portChecks c s 0 ++
   [argCheck 1 (decide (c.u8 1 > 2)), argCheck 2 (decide (c.u16 2 < 1518) || decide (c.u16 2 > 9216)),
    argCheck 12 (decide (c.u8 12 ≥ 8)), argCheck 13 (decide (c.u8 13 ≥ 4))] ++ reserved c 28 4 ++
   [⟨7, short, rcDoesNotFit, 0, [32, 34, 45], (match need with | some q => oneShort q.1 q.2 (c.u16 2) | none => [])⟩,
    checkOn 8 rcNoResource [0, 1] (decide (s.pfcClaim p (c.u8 1) (c.u8 10) (c.u32 18) > 0x600000))],
   fun st =>
    let old := st.port p
    let s1 := st.modPort p (fun v => v.set c)
    let s2 := if old.preempt != bit (c.u8 12) 0 then s1.startVerify p else s1
    let s3 := forEach (List.range 8) s2 (fun w k => w.pfcCheck p k)
    (s3, .answer (if s3.portDegraded p then ⟨rcDegradedOk, 4, []⟩ else Reply.ok []))⟩

/-- Something refers to a logical port: a shaper, policer, gate list, reservation, raw queue, or a connection with that PORT (R229). -/
def State.portReferred (s : State) (p : LPort) : Bool :=
  let v := s.port p
  s.funcs.any (fun q => q.2.shapers.any (fun h => h.2.lport == p)) ||
  s.policers.any (fun q => match q.2.port with | some e => e.1 == p | none => false) ||
  v.oper.isSome || v.pend.isSome || v.members.any (fun q => decide (q.2.booked > 0)) || !v.rawqs.isEmpty ||
  s.conns.any (fun q => q.2.connected && q.2.port == some p)

/-- PORT_BREAKOUT begins: every logical port of the physical port goes down, and those that no longer exist are at their defaults
but for their counts (R229). -/
def State.rebreak (s : State) (ph : PhysId) (b : Nat) : State :=
  let s1 := forEach (s.portsOf ph) s (fun st p => (st.portDown p).discardQueues p)
  let s2 := s1.modPhys ph (fun h => { h with breakout := b })
  forEach ((List.finRange 32).filter (fun p => physOf p == ph && !s2.portExists p)) s2 (fun st p =>
    if thas st.ports p.val then st.modPort p (fun v => { PortSt.fresh p.val with stats := v.stats, lanes := v.lanes }) else st)

/-- PORT_BREAKOUT (R229): long; the new ports train. -/
def portBreakoutPlan (c : Cmd) (s : State) : Plan :=
  let ph := c.phys 0
  let lost := (s.portsOf ph).filter (fun p => p.val % 8 % breakoutLanes (c.u8 1) != 0)
  ⟨true, 8,
   [argCheck 0 (decide (c.u8 0 > 3)), argCheck 1 (decide (c.u8 1 > 3)),
    checkOn 5 rcBadState [0, 1] (lost.any s.portReferred),
    busyOn [0] ((s.portsOf ph).any s.portHeld)] ++ reserved c 2 6,
   fun st => (st.rebreak ph (c.u8 1), .long (.portBreakout ph (c.u8 1)) true)⟩

/-- PORT_RESET (R255): long; the port goes down and comes up again with its settings. -/
def portResetPlan (c : Cmd) (s : State) : Plan :=
  let p := c.port 0
  ⟨true, 8, portChecks c s 0 ++ reserved c 1 7,
   fun st => ((st.portDown p).discardQueues p, .long (.portReset p) true)⟩

/-- PORT_STATS: the 24 counters, cleared in the same access; TS_DROPPED stands on the physical port's first logical port (R254). -/
def portStatsPlan (c : Cmd) (s : State) : Plan :=
  let p := c.port 0
  ⟨true, 8, portChecks c s 0 ++ reserved c 1 7,
   fun st =>
    let v := st.port p
    let ts := if p.val % 8 = 0 then (st.physPort (physOf p)).tsDropped else 0
    let s1 := st.modPort p (fun w => { w with stats := List.replicate 24 0 })
    let s2 := if p.val % 8 = 0 then s1.modPhys (physOf p) (fun h => { h with tsDropped := 0 }) else s1
    (s2, .answer (Reply.ok ((v.stats.take 23).flatMap (leBytes 8) ++ leBytes 8 ts)))⟩

/-- PORT_GLOBAL_SET (R255). -/
def portGlobalSetPlan (c : Cmd) (s : State) : Plan :=
  setPlan true 8 (reserved c 2 6 ++ [plainCheck 5 rcBadState (s.conns.any (fun q => q.2.native && q.2.state == .ready))])
    (fun st => { st with nativePort := BitVec.ofNat 16 (c.u16 0) })

/-- PORT_MGMT_SET (R238, R247, R255). -/
def portMgmtSetPlan (c : Cmd) (s : State) : Plan :=
  setPlan true 16
    (portChecks c s 0 ++ [argCheck 1 (decide (c.u8 1 > 15)), argCheck 2 (decide (c.u8 2 > 1)), argCheck 3 (decide (c.u8 3 > 15))] ++
     reserved c 10 6)
    (fun st => st.modPort (c.port 0) (fun v => { v with
      mgmt := if c.u8 2 = 1 then tset v.mgmt (c.u8 1) (BitVec.ofNat 48 (c.field 6 4), c.u8 3) else tdel v.mgmt (c.u8 1) }))

/-- PORT_FILTER_SET (R246, R255, R328): ACTION DRILL names a loaded program. -/
def portFilterSetPlan (c : Cmd) (s : State) : Plan :=
  let en := bit (c.u8 2) 0
  let ent : Filter :=
    { etypeEn := bit (c.u8 2) 1, action := c.u8 3, queue := c.u8 4, pcp := BitVec.ofNat 3 (c.u8 5), pcpMask := BitVec.ofNat 3 (c.u8 6)
      vid := BitVec.ofNat 12 (c.u16 8), vidMask := BitVec.ofNat 12 (c.u16 10), etype := BitVec.ofNat 16 (c.u16 12), program := c.u32 16 }
  setPlan true 20
    (portChecks c s 0 ++
     [argCheck 1 (decide (c.u8 1 > 31)), argCheck 2 (decide (c.u8 2 > 3)), argCheck 3 (decide (c.u8 3 > 2)), argCheck 4 (decide (c.u8 4 > 15)),
      argCheck 5 (decide (c.u8 5 > 7)), argCheck 6 (decide (c.u8 6 > 7)), argCheck 8 (decide (c.u16 8 > 0xFFF)),
      argCheck 10 (decide (c.u16 10 > 0xFFF)),
      argCheckOn 16 [2, 3] (en && c.u8 3 == 2 && (s.prog (c.u32 16)).isNone),
      busyOn [2, 3, 16] (en && c.u8 3 == 2 && s.progHeld (c.u32 16))] ++ reserved c 7 1 ++ reserved c 14 2)
    (fun st => st.modPort (c.port 0) (fun v => { v with
      filters := if en then tset v.filters (c.u8 1) ent else tdel v.filters (c.u8 1) }))

/-- A RECV_RING or SEND_RING field of PORT_QUEUE_BIND as a ring, none for 0xFFFF_FFFF. -/
def ringOpt (n : Nat) : Option Nat := if n = noneId then none else some n

/-- Some connection carries its requests on a work ring. -/
def State.ringServesConn (s : State) (f : FuncId) (r : Nat) : Bool :=
  s.conns.any (fun q => q.2.func == f && (q.2.sendRing == some r || q.2.recvRing == some r))

/-- Takes a raw queue off the rings bound to it, and puts it on those given (R247). -/
def State.bindRaw (s : State) (f : FuncId) (rawNo : Nat) (rs : List Nat) : State :=
  let s1 := { s with funcs := s.funcs.map (fun q => (q.1, { q.2 with rings := q.2.rings.map (fun g =>
    if g.2.rawq = some rawNo then (g.1, { g.2 with rawq := none }) else g) })) }
  forEach rs s1 (fun st r => st.modRing f r (fun g => { g with rawq := some rawNo }))

/-- PORT_QUEUE_BIND (R247): a ring that serves a connection or another raw queue is BAD_STATE (log entry 29). -/
def portQueueBindPlan (c : Cmd) (s : State) : Plan :=
  let p := c.port 0
  let q := c.u8 1 % 16
  let no := p.val * 16 + q
  let f : FuncId := ⟨c.u16 2 % 256, by omega⟩
  let recv := ringOpt (c.u32 4)
  let send := ringOpt (c.u32 8)
  let bad := fun (r : Option Nat) => match r with
    | some n => (match s.ring f n with | some g => g.kind != .send | none => true)
    | none => false
  let used := fun (r : Option Nat) => match r with
    | some n => s.ringServesConn f n || (match s.ring f n with | some g => g.rawq.isSome && g.rawq != some no | none => false)
    | none => false
  setPlan true 12
    (portChecks c s 0 ++ [argCheck 1 (bits (c.u8 1) 6 4 != 0)] ++ funcChecks c s 2 ++
     [argCheckOn 4 [2] (bad recv), argCheckOn 8 [2] (bad send), checkOn 5 rcBadState [2, 4, 8] (used recv || used send),
      busyOn [2, 4, 8] ((recv.toList ++ send.toList).any (fun r => s.ringHeld f r))])
    (fun st =>
      let s1 := st.bindRaw f no (recv.toList ++ send.toList)
      s1.modPort p (fun v => { v with
        rawqs := if recv.isNone && send.isNone then tdel v.rawqs q else tset v.rawqs q ⟨f, recv, send⟩
        defaultQ := if bit (c.u8 1) 7 && (recv.isSome || send.isSome) then some q else if v.defaultQ = some q then none else v.defaultQ }))

/-- A 64-bit field as a signed number. -/
def signed64 (n : Nat) : Int := if n < 2 ^ 63 then n else (n : Int) - 2 ^ 64

/-- PTP_ADJUST (R251): the time set, stepped, or its frequency offset; gate lists follow a step. -/
def ptpAdjustPlan (c : Cmd) (_s : State) : Plan :=
  let v := signed64 (c.u64 8)
  setPlan true 16
    ([argCheck 0 (decide (c.u8 0 > 2))] ++ reserved c 1 7 ++
     [argCheckOn 8 [0] (c.u8 0 == 2 && (decide (v > 500000 * 65536) || decide (v < -(500000 * 65536))))])
    (fun st =>
      if c.u8 0 = 2 then { st with ptpFreq := v }
      else
        let t := if c.u8 0 = 0 then c.u64 8 else (((st.ptp : Int) + v) % 2 ^ 64).toNat
        State.gatesRecompute { st with ptp := t, ptpFrac := if c.u8 0 = 0 then 0 else st.ptpFrac })

/-- PTP_READ (R251). -/
def ptpReadPlan (_c : Cmd) (_s : State) : Plan := queryPlan false 0 [] (fun st => leBytes 8 st.ptp ++ leBytes 8 st.ppsIn)

/-- A completion ring may take time stamps: no windrow, and no work ring, connection or program uses it (R253). -/
def State.cqForStamps (s : State) (f : FuncId) (n : Nat) : Bool :=
  match s.cq f n with
  | none => false
  | some q => q.windrowEntries == 0 && !((s.func f).rings.any (fun g => g.2.cq == some n)) &&
      !s.conns.any (fun k => k.2.func == f && k.2.notifyCq == some n) && !s.progs.any (fun k => k.2.func == f && k.2.cq == some n)

/-- PORT_TS_BIND (R253). -/
def portTsBindPlan (c : Cmd) (s : State) : Plan :=
  let ph := c.phys 0
  let f : FuncId := ⟨c.u16 2 % 256, by omega⟩
  let n := c.u32 4
  setPlan true 8
    ([argCheck 0 (decide (c.u8 0 > 3))] ++ reserved c 1 1 ++ funcChecks c s 2 ++ [argCheckOn 4 [0, 2] (!s.cqForStamps f n)])
    (fun st =>
      let s1 := match (st.physPort ph).tsCq with
        | some e => st.modCq e.1 e.2 (fun q => { q with tsPorts := q.tsPorts.filter (fun k => k != ph) })
        | none => st
      let s2 := (s1.modCq f n (fun q => { q with tsPorts := q.tsPorts ++ [ph] })).modPhys ph (fun h => { h with tsCq := some (f, n) })
      s2.tsPump ph)

/-- PORT_QUERY (R255). -/
def execPortQuery (f : FuncId) (s : State) : Out := s.perform f 0x0600 portQueryPlan
/-- PORT_SET (R255). -/
def execPortSet (f : FuncId) (s : State) : Out := s.perform f 0x0601 portSetPlan
/-- PORT_BREAKOUT (R229). -/
def execPortBreakout (f : FuncId) (s : State) : Out := s.perform f 0x0602 portBreakoutPlan
/-- PORT_RESET (R255). -/
def execPortReset (f : FuncId) (s : State) : Out := s.perform f 0x0603 portResetPlan
/-- PORT_STATS (R254). -/
def execPortStats (f : FuncId) (s : State) : Out := s.perform f 0x0604 portStatsPlan
/-- PORT_GLOBAL_SET (R255). -/
def execPortGlobalSet (f : FuncId) (s : State) : Out := s.perform f 0x0605 portGlobalSetPlan
/-- PORT_MGMT_SET (R238). -/
def execPortMgmtSet (f : FuncId) (s : State) : Out := s.perform f 0x0610 portMgmtSetPlan
/-- PORT_FILTER_SET (R246). -/
def execPortFilterSet (f : FuncId) (s : State) : Out := s.perform f 0x0611 portFilterSetPlan
/-- PORT_QUEUE_BIND (R247). -/
def execPortQueueBind (f : FuncId) (s : State) : Out := s.perform f 0x0612 portQueueBindPlan
/-- PTP_ADJUST (R251). -/
def execPtpAdjust (f : FuncId) (s : State) : Out := s.perform f 0x0620 ptpAdjustPlan
/-- PTP_READ (R251). -/
def execPtpRead (f : FuncId) (s : State) : Out := s.perform f 0x0621 ptpReadPlan
/-- PORT_TS_BIND (R253). -/
def execPortTsBind (f : FuncId) (s : State) : Out := s.perform f 0x0622 portTsBindPlan

end Sys2Proof.Machine
end

