-- ==== Sys2Proof/Machine/SchedCmds.lean ====
section
/-! DEFINITION. Machine/SchedCmds.lean: the commands of the 0x05xx range: congestion parameters (R208), shapers (R216, R217), the
scheduler (R213, R214), policers (R218 to R220) and gate lists (R221 to R224), by R226 and R227. -/

namespace Sys2Proof.Machine

/-! ### Congestion parameters (R208) -/

/-- The parameters of a CC_SET. -/
def cmdCc (c : Cmd) : Cc :=
  ⟨c.u16 4, c.u16 6, c.u32 8, c.u8 12, c.u8 13, c.u8 14, c.u32 16, c.u32 20, c.u16 24, c.u16 26, c.u16 28, c.u8 30, c.u32 32, c.u32 36⟩

/-- A value outside [lo, hi]. -/
def outside (n lo hi : Nat) : Bool := decide (n < lo) || decide (n > hi)

/-- CC_SET: current windows are clamped into the new range, behind the requests already started (R15, R208). -/
def ccSetPlan (c : Cmd) (s : State) : Plan :=
  let v := cmdCc c
  setPlan false 40
    (connChecks c s 0 ++
     [argCheck 4 (outside v.cwndInit 1 4096), argCheck 6 (outside v.cwndMin 1 64), argCheck 8 (outside v.cwndMax 16 65536),
      argCheck 12 (outside v.ai 1 16), argCheck 13 (outside v.gShift 1 8), argCheck 14 (outside v.betaPct 1 100)] ++ reserved c 15 1 ++
     [argCheck 16 (outside v.delayTargetNs 500 1000000), argCheck 20 (outside v.srttInitNs 1000 1000000),
      argCheck 24 (outside v.baseWindowMs 1 1000), argCheck 26 (outside v.cnpIntervalUs 1 1000), argCheck 28 (outside v.rpTimerUs 5 10000),
      argCheck 30 (outside v.rpFastStages 1 16)] ++ reserved c 31 1 ++
     [argCheck 32 (outside v.rpRaiMbps 1 100000), argCheck 36 (outside v.rpMinMbps 1 100000),
      argCheckOn 6 [4] (decide (v.cwndMin > v.cwndInit)), argCheckOn 4 [8] (decide (v.cwndInit > v.cwndMax))])
    (fun st => (st.modConn (c.u32 0) (fun k => { k with cc := v })).clampSoon (c.u32 0))

/-- RATE_MBPS of a path, on the logical port the path now uses (R210, R212, R226). -/
def State.rateMbps (s : State) (n : Nat) (k : Conn) (path : Nat) : Nat :=
  if !k.native then k.tx.rate
  else
    let p := s.portNow n k path
    let v := k.pathCc path
    min (v.cwnd * s.fullWire k p * 8000 / (256 * max 1 v.srtt)) (s.portMbps p)

/-- CC_QUERY (R226). -/
def ccQueryPlan (c : Cmd) (s : State) : Plan :=
  queryPlan false 8
    (connChecks c s 0 ++ [argCheckOn 4 [0] (s.connD (c.u32 0) (fun k => decide (c.u8 4 ≥ max 1 k.npaths)))] ++ reserved c 5 3)
    (fun st => match st.conn (c.u32 0) with
      | none => []
      | some k =>
        let v := k.pathCc (c.u8 4)
        leBytes 4 v.cwnd ++ leBytes 4 v.inflight ++ leBytes 4 v.srtt ++ leBytes 4 (v.baseRtt.getD v.srtt) ++
        leBytes 2 (min 65535 (if k.native then v.alpha else k.tx.alpha)) ++ zeros 2 ++ leBytes 4 (st.rateMbps (c.u32 0) k (c.u8 4)))

/-! ### Shapers (R216, R217, R227) -/

/-- CEILING of a function on a logical port, in Mb/s (R214). -/
def State.ceiling (s : State) (p : LPort) (f : FuncId) : Nat := ((s.port p).member f.val).ceiling.getD (s.portMbps p)

/-- The checks of RATE_MBPS and BURST. -/
def rateChecks (c : Cmd) : List Check := [argCheck 4 (outside (c.u32 4) 1 1600000), argCheck 8 (decide (c.u32 8 > 0x1000000))]

/-- The shaper a field names. -/
def State.shaper (s : State) (f : FuncId) (n : Nat) : Option Shaper := tget (s.func f).shapers n

/-- SHAPER_ALLOC (R216). -/
def shaperAllocPlan (c : Cmd) (s : State) : Plan :=
  ⟨false, 16,
   portChecks c s 0 ++ reserved c 1 3 ++ rateChecks c ++ reserved c 12 4 ++
   [checkOn 4 rcDenied [0, 4] (decide (c.u32 4 > s.ceiling (c.port 0) c.obj)),
    plainCheck 8 rcNoResource (decide (s.used c.obj 11 ≥ s.share c.obj 11))],
   fun st =>
    let v := st.func c.obj
    match v.shaperSeries.take 16384 with
    | none => (st, .answer (Reply.refuse rcNoResource 0))
    | some (n, q) =>
      (st.setFunc c.obj { v with shaperSeries := q, shapers := tset v.shapers n ⟨c.port 0, ⟨c.u32 4, c.u32 8, 0, none⟩, [], [], false⟩ },
       .answer (Reply.ok (leBytes 2 n ++ zeros 6)))⟩

/-- A SHAPER field must name a shaper of the function. -/
def shaperCheck (c : Cmd) (s : State) : Check := argCheck 0 (s.shaper c.obj (c.u16 0)).isNone

/-- SHAPER_SET: applies from the next refill (R217). -/
def shaperSetPlan (c : Cmd) (s : State) : Plan :=
  setPlan false 16
    ([shaperCheck c s] ++ reserved c 2 2 ++ rateChecks c ++ reserved c 12 4 ++
     [checkOn 4 rcDenied [0, 4] (match s.shaper c.obj (c.u16 0) with
       | some h => decide (c.u32 4 > s.ceiling h.lport c.obj)
       | none => false)])
    (fun st => st.modShaper c.obj (c.u16 0) (fun h => { h with meter := { h.meter with pend := some (c.u32 4, c.u32 8) } }))

/-- The shapers bound to the object of a SHAPER_BIND. -/
def State.boundShapers (s : State) (f : FuncId) (kind obj : Nat) : List Nat :=
  if kind % 2 = 0 then (match s.conn obj with | some k => k.shapers | none => [])
  else match s.ring f obj with | some g => g.shapers | none => []

/-- SHAPER_BIND (R216, R227): binding an object twice to one shaper, or unbinding one that is not bound, is BAD_STATE (log entry
29). -/
def shaperBindPlan (c : Cmd) (s : State) : Plan :=
  let n := c.u16 0
  let kind := c.u8 2
  let obj := c.u32 4
  let conn := kind % 2 == 0
  let have_ := s.boundShapers c.obj kind obj
  setPlan false 8
    ([shaperCheck c s, argCheck 2 (decide (kind > 3))] ++ reserved c 3 1 ++
     [argCheckOn 4 [2] (if conn then (s.conn obj).isNone else (match s.ring c.obj obj with | some g => g.kind != .send | none => true)),
      checkOn 4 rcDenied [2, 4] (conn && s.connD obj (fun k => k.func != c.obj)),
      checkOn 5 rcBadState [0, 2, 4] (if kind < 2 then have_.contains n else !have_.contains n),
      checkOn 8 rcNoResource [0, 2, 4] (decide (kind < 2) && decide (have_.length ≥ 2)),
      busyOn [2, 4] (!conn && s.ringHeld c.obj obj)])
    (fun st =>
      let upd := fun (l : List Nat) => if kind < 2 then linsert l n else lerase l n
      let s1 := if conn then st.modConn obj (fun k => { k with shapers := upd k.shapers })
        else st.modRing c.obj obj (fun g => { g with shapers := upd g.shapers })
      s1.modShaper c.obj n (fun h =>
        let on := fun (l : List Nat) => if kind < 2 then linsert l obj else lerase l obj
        if conn then { h with conns := on h.conns } else { h with rings := on h.rings }))

/-- SHAPER_FREE (R227). -/
def shaperFreePlan (c : Cmd) (s : State) : Plan :=
  setPlan false 8
    ([shaperCheck c s] ++ reserved c 2 6 ++
     [checkOn 5 rcBadState [0] (match s.shaper c.obj (c.u16 0) with | some h => !h.conns.isEmpty || !h.rings.isEmpty | none => false)])
    (fun st => st.modFunc c.obj (fun v => { v with shapers := tdel v.shapers (c.u16 0), shaperSeries := v.shaperSeries.give (c.u16 0) }))

/-! ### The scheduler (R213, R214) -/

/-- Sum of RESERVED over the members of a port but one. -/
def PortSt.reservedBut (p : PortSt) (m : Nat) : Nat := ((p.members.filter (fun q => q.1 != m)).map (fun q => q.2.booked)).sum

/-- SCHED_FUNC_SET: takes effect at the next refill; the sum of RESERVED counts it at once (R214, R227). -/
def schedFuncSetPlan (c : Cmd) (s : State) : Plan :=
  let p := c.port 0
  let m := if c.u16 2 = 0xFFFF then relayMember else c.u16 2
  let st0 := (s.func ⟨c.u16 2 % 256, by omega⟩).state
  let isF := c.u16 2 != 0xFFFF
  setPlan true 16
    (portChecks c s 0 ++ reserved c 1 1 ++
     [argCheck 2 (isF && decide (c.u16 2 ≥ 256)),
      checkOn 2 rcFenced [2] (isF && st0.isFenced), checkOn 5 rcBadState [2] (isF && st0 == .disabled),
      argCheckOn 8 [4] (decide (c.u32 8 < c.u32 4))] ++ reserved c 12 4 ++
     [checkOn 8 rcNoResource [0, 2, 4] (decide ((s.port p).reservedBut m + c.u32 4 > s.portMbps p))])
    (fun st => st.modPort p (fun v => { v with members := tset v.members m { v.member m with pend := some (c.u32 4, some (c.u32 8)) } }))

/-- SCHED_CLASS_SET: takes effect at the next refill (R213, R227). -/
def schedClassSetPlan (c : Cmd) (s : State) : Plan :=
  let k : ClassCfg := { ClassCfg.reset with
    strict := c.u8 2 == 0, weight := c.u8 3, qmax := c.u32 4, kmin := c.u32 8, kmax := c.u32 12, pmax := c.u16 16 }
  setPlan true 84
    (portChecks c s 0 ++ [argCheck 1 (decide (c.u8 1 > 7)), argCheck 2 (decide (c.u8 2 > 1)), argCheck 3 (outside (c.u8 3) 1 64),
      argCheck 4 (outside (c.u32 4) 65536 0x800000), argCheckOn 12 [8] (decide (c.u32 12 ≤ c.u32 8))] ++ reserved c 18 2 ++
     (List.range 64).map (fun i => argCheck (20 + i) (decide (c.u8 (20 + i) > 7))))
    (fun st => st.modPort (c.port 0) (fun v => { v with
      pendClasses := v.pendClasses ++ [(c.u8 1, k, (List.range 64).map (fun i => c.u8 (20 + i)))] }))

/-! ### Policers (R218 to R220) -/

/-- The policer of a POLICER_SET. -/
def cmdPolicer (c : Cmd) (s : State) (old : Option Policer) : Policer :=
  let cbs := c.u32 20
  let pbs := c.u32 24
  let map := (List.range 64).map (fun d => bits (c.u8 (28 + d / 4)) (2 * (d % 4) + 1) (2 * (d % 4)))
  { conn := if c.u8 2 = 1 then some (c.u32 8) else none
    port := if c.u8 2 = 0 then some (c.port 4, ⟨c.u8 5 % 8, by omega⟩) else none
    aware := bit (c.u8 3) 0, src := bits (c.u8 3) 2 1, yellowCe := bit (c.u8 3) 3
    cir := c.u32 12, pir := c.u32 16, cbs := cbs, pbs := pbs, map := map
    tc := (match old with | some o => min o.tc (cbs * 8000) | none => cbs * 8000)
    tp := (match old with | some o => min o.tp (pbs * 8000) | none => pbs * 8000)
    lastAt := (match old with | some o => o.lastAt | none => s.time)
    green := (old.map (fun o => o.green)).getD 0, yellow := (old.map (fun o => o.yellow)).getD 0, red := (old.map (fun o => o.red)).getD 0 }

/-- POLICER_SET: a port and class, or a connection, has at most one policer (R218, R220). -/
def policerSetPlan (c : Cmd) (s : State) : Plan :=
  let n := c.u16 0
  let alloc := n == 0xFFFF
  let bind := c.u8 2
  let taken := s.policers.any (fun q => (alloc || q.1 != n) &&
    (if bind = 0 then q.2.port == some (c.port 4, ⟨c.u8 5 % 8, by omega⟩) else q.2.conn == some (c.u32 8)))
  ⟨true, 44,
   [argCheck 0 (!alloc && !thas s.policers n), argCheck 2 (decide (bind > 1)), argCheck 3 (decide (c.u8 3 ≥ 16) || decide (bits (c.u8 3) 2 1 > 1)),
    argCheckOn 4 [2] (bind == 0 && (decide (c.u8 4 ≥ 32) || !s.portExists (c.port 4))), argCheckOn 5 [2] (bind == 0 && decide (c.u8 5 > 7))] ++
   reserved c 6 2 ++
   [argCheckOn 8 [2] (bind == 1 && (s.conn (c.u32 8)).isNone),
    argCheck 12 (decide (c.u32 12 > 1600000)), argCheck 16 (decide (c.u32 16 > 1600000)), argCheckOn 16 [12] (decide (c.u32 16 < c.u32 12)),
    argCheck 20 (outside (c.u32 20) 1518 0x1000000), argCheck 24 (outside (c.u32 24) 1518 0x1000000)] ++
   (List.range 64).map (fun d => argCheck (28 + d / 4) (bits (c.u8 (28 + d / 4)) (2 * (d % 4) + 1) (2 * (d % 4)) == 3)) ++
   [checkOn 5 rcBadState [0, 2, 4, 5, 8] taken,
    checkOn 8 rcNoResource [0] (alloc && decide (s.policers.length ≥ 4096))],
   fun st =>
    if alloc then
      match st.policerSeries.take 4096 with
      | none => (st, .answer (Reply.refuse rcNoResource 0))
      | some (k, q) => ({ st with policerSeries := q, policers := tset st.policers k (cmdPolicer c st none) }, .answer (Reply.ok (leBytes 2 k ++ zeros 6)))
    else ({ st with policers := tset st.policers n (cmdPolicer c st (tget st.policers n)) }, .answer (Reply.ok (leBytes 2 n ++ zeros 6)))⟩

/-- POLICER_QUERY (R226). -/
def policerQueryPlan (c : Cmd) (s : State) : Plan :=
  queryPlan true 8 ([argCheck 0 (!thas s.policers (c.u16 0))] ++ reserved c 2 6) (fun st => match tget st.policers (c.u16 0) with
    | some q => leBytes 8 q.green ++ leBytes 8 q.yellow ++ leBytes 8 q.red
    | none => [])

/-- POLICER_FREE: BAD_STATE while bound (R227). -/
def policerFreePlan (c : Cmd) (s : State) : Plan :=
  setPlan true 8
    ([argCheck 0 (!thas s.policers (c.u16 0))] ++ reserved c 2 6 ++
     [checkOn 5 rcBadState [0] (match tget s.policers (c.u16 0) with | some q => q.port.isSome || q.conn.isSome | none => false)])
    (fun st => { st with policers := tdel st.policers (c.u16 0), policerSeries := st.policerSeries.give (c.u16 0) })

/-! ### Gate lists (R221 to R224) -/

/-- The list of a GATE_SET. -/
def cmdGates (c : Cmd) : GateList :=
  ⟨(List.range (c.u16 1)).map (fun i => (BitVec.ofNat 8 (c.u8 (24 + 8 * i + 7)), c.u32 (24 + 8 * i))), c.u32 8, c.u64 16⟩

/-- The classes whose longest open window is too short for the port's maximum frame: class, window, need (R224). -/
def State.gateShort (s : State) (p : LPort) (g : GateList) : List (Nat × Nat × Nat) :=
  let need := gateNeed (s.port p).maxFrame (s.portMbps p)
  (List.range 8).filterMap (fun k =>
    if !(List.range g.entries.length).any (fun i => g.isOpen i k) then none
    else match g.longest k with
      | some w => if w < need then some (k, w, need) else none
      | none => none)

/-- The shortfall report of a GATE_SET, laid out after R320 (log entry 30). -/
def gateReport (l : List (Nat × Nat × Nat)) : Bytes :=
  leBytes 4 l.length ++ zeros 4 ++ l.flatMap (fun e => leBytes 1 e.1 ++ zeros 7 ++ leBytes 8 e.2.1 ++ leBytes 8 e.2.2)

/-- GATE_SET: installs a pending list; COUNT 0 cancels it, or removes the operational one (R222, R224, R227). -/
def gateSetPlan (c : Cmd) (s : State) : Plan :=
  let n := c.u16 1
  let g := cmdGates c
  let p := c.port 0
  let short := if n = 0 then [] else s.gateShort p g
  let at_ := fun (st : State) (w : GateList) => w.cycleStart (max w.base (st.ptp + 10000))
  setPlan true (24 + 8 * n)
    (portChecks c s 0 ++ [argCheck 1 (decide (n > 256))] ++ reserved c 3 5 ++
     [argCheck 8 (n != 0 && (outside g.cycle 1000 1000000000 || g.cycle % 8 != 0))] ++ reserved c 12 4 ++
     ((List.range (min n 256)).flatMap (fun i =>
       let iv := c.u32 (24 + 8 * i)
       [argCheck (24 + 8 * i) (outside iv 8 1000000000 || iv % 8 != 0)] ++ reserved c (24 + 8 * i + 4) 3)) ++
     [⟨7, !short.isEmpty, rcDoesNotFit, 0, [32, 33, 40] ++ (List.range (min n 256)).map (fun i => 56 + 8 * i), gateReport short⟩])
    (fun st => st.modPort p (fun v =>
      if n ≠ 0 then { v with pend := some g, removing := false, switchAt := at_ st g }
      else if v.pend.isSome then { v with pend := none, switchAt := 0 }
      else match v.oper with
        | some o => { v with removing := true, switchAt := o.cycleStart st.ptp }
        | none => v))

/-- One entry of a gate list as R221 lays it out. -/
def gateBytes (e : BitVec 8 × Nat) : Bytes := leBytes 4 e.2 ++ zeros 3 ++ leBytes 1 e.1.toNat

/-- GATE_QUERY (R226). -/
def gateQueryPlan (c : Cmd) (s : State) : Plan :=
  queryPlan true 8 (portChecks c s 0 ++ [argCheck 1 (decide (c.u8 1 > 1))] ++ reserved c 2 6) (fun st =>
    let v := st.port (c.port 0)
    let ents := fun (g : Option GateList) => (g.map (fun x => x.entries)).getD []
    leBytes 8 (if v.pend.isSome then v.switchAt else 0) ++ leBytes 8 v.gateOversize ++ leBytes 2 (ents v.oper).length ++ leBytes 2 (ents v.pend).length ++
    zeros 4 ++ (if c.u8 1 = 0 then ents v.oper else ents v.pend).flatMap gateBytes)

/-- CC_SET (R208). -/
def execCcSet (f : FuncId) (s : State) : Out := s.perform f 0x0500 ccSetPlan
/-- CC_QUERY (R226). -/
def execCcQuery (f : FuncId) (s : State) : Out := s.perform f 0x0501 ccQueryPlan
/-- SHAPER_ALLOC (R216). -/
def execShaperAlloc (f : FuncId) (s : State) : Out := s.perform f 0x0510 shaperAllocPlan
/-- SHAPER_SET (R217). -/
def execShaperSet (f : FuncId) (s : State) : Out := s.perform f 0x0511 shaperSetPlan
/-- SHAPER_BIND (R216). -/
def execShaperBind (f : FuncId) (s : State) : Out := s.perform f 0x0512 shaperBindPlan
/-- SHAPER_FREE (R227). -/
def execShaperFree (f : FuncId) (s : State) : Out := s.perform f 0x0513 shaperFreePlan
/-- SCHED_FUNC_SET (R214). -/
def execSchedFuncSet (f : FuncId) (s : State) : Out := s.perform f 0x0520 schedFuncSetPlan
/-- SCHED_CLASS_SET (R213). -/
def execSchedClassSet (f : FuncId) (s : State) : Out := s.perform f 0x0521 schedClassSetPlan
/-- POLICER_SET (R218). -/
def execPolicerSet (f : FuncId) (s : State) : Out := s.perform f 0x0530 policerSetPlan
/-- POLICER_QUERY (R226). -/
def execPolicerQuery (f : FuncId) (s : State) : Out := s.perform f 0x0531 policerQueryPlan
/-- POLICER_FREE (R227). -/
def execPolicerFree (f : FuncId) (s : State) : Out := s.perform f 0x0532 policerFreePlan
/-- GATE_SET (R222). -/
def execGateSet (f : FuncId) (s : State) : Out := s.perform f 0x0540 gateSetPlan
/-- GATE_QUERY (R226). -/
def execGateQuery (f : FuncId) (s : State) : Out := s.perform f 0x0541 gateQueryPlan

end Sys2Proof.Machine
end

