-- ==== Sys2Proof/Machine/RingCmds.lean ====
section
/-! DEFINITION. Machine/RingCmds.lean: the ring commands (R129 to R133), the trigger commands (R163, R167), and the commands of the
0x07xx range (R259 to R262, R289). -/

namespace Sys2Proof.Machine

/-! ### Rings (R130, R132) -/

/-- A new ring: both indices at (0, 0). -/
def Ring.fresh (kind : RingKind) (c4 : Bool) (log2 weight burst err : Nat) (cq : Option Nat) (key : Word32) (off : Nat) : Ring where
  kind := kind
  c4 := c4
  log2 := log2
  weight := weight
  burst := burst
  nextWeightBurst := none
  errSource := err
  cq := cq
  key := key
  offset := off
  prod := 0
  cons := 0
  started := 0
  error := false
  errorIndex := 0
  credit := 0
  joined := none
  inSet := false
  turn := 0
  held := []
  fetching := none
  jobs := []
  shapers := []
  rawq := none
  waitSince := 0
  lastDone := 0
  posts := []
  postWait := none

/-- A completion ring that a work ring may not use: absent, a connection's NOTIFY_CQ (R144), a program's (R324), or bound to time
stamps (R253). -/
def State.cqUnfit (s : State) (f : FuncId) (n : Nat) : Bool :=
  match s.cq f n with
  | none => true
  | some q => !q.tsPorts.isEmpty || s.conns.any (fun k => k.2.func == f && k.2.notifyCq == some n) ||
      s.progs.any (fun k => k.2.func == f && k.2.cq == some n)

/-- The checks of a KEY and OFFSET of a ring of `bytes` bytes (R130, R131): the region belongs to the owner whoever issues, and has the
rights a ring needs. -/
def ringMemory (c : Cmd) (s : State) (key off : Nat) (rights : List Nat) (bytes : Nat) (deps : List Nat) : List Check :=
  let r := s.region (BitVec.ofNat 32 (c.u32 key))
  [argCheck key (match r with | some q => q.func == c.obj && rights.any (fun b => !q.grants b) | none => true),
   checkOn 4 rcDenied [key] (match r with | some q => q.func != c.obj | none => false),
   argCheck off (c.u64 off % 64 != 0),
   argCheckOn off (key :: deps) (match r with | some q => decide (c.u64 off + bytes > q.length) | none => false)]

/-- Checks that RING_CREATE and COLL_RING_CREATE share, with the offsets of their fields (R130, R289). -/
def ringChecks (c : Cmd) (s : State) (log2 weight burst err : Nat) : List Check :=
  [argCheck log2 (outside (c.u8 log2) 4 16), argCheck weight (outside (c.u8 weight) 1 16), argCheck burst (outside (c.u8 burst) 1 64),
   argCheck err (badSource (c.u16 err)), argCheck 8 (c.u32 8 != noneId && s.cqUnfit c.obj (c.u32 8)),
   plainCheck 8 rcNoResource (decide (s.used c.obj 5 ≥ s.share c.obj 5))] ++
  ringMemory c s 12 16 [accLocalRead, accLocalWrite] (64 * 2 ^ min 16 (c.u8 log2)) [log2] ++ reserved c 24 8

/-- Gives a new ring its number (R467). -/
def State.addRing (s : State) (f : FuncId) (g : Ring) : State × Verdict :=
  let v := s.func f
  match v.ringSeries.take 262144 with
  | none => (s, .answer (Reply.refuse rcNoResource 0))
  | some (n, q) => (s.setFunc f { v with ringSeries := q, rings := tset v.rings n g }, .answer (Reply.ok (leBytes 4 n ++ zeros 4)))

/-- RING_CREATE (R130). -/
def ringCreatePlan (c : Cmd) (s : State) : Plan :=
  ⟨false, 32,
   [argCheck 0 (decide (c.u8 0 > 1)), argCheck 1 (decide (c.u8 1 > 1)), argCheckOn 1 [0] (c.u8 1 == 1 && c.u8 0 != 0),
    argCheckOn 8 [1] (c.u8 1 == 1 && c.u32 8 != noneId)] ++ reserved c 5 1 ++ ringChecks c s 2 3 4 6,
   fun st => st.addRing c.obj (Ring.fresh (if c.u8 0 = 0 then .copy else .send) (c.u8 1 == 1) (c.u8 2) (c.u8 3) (c.u8 4) (c.u16 6)
     (ringOpt (c.u32 8)) (BitVec.ofNat 32 (c.u32 12)) (c.u64 16))⟩

/-- The checks of a RING field. -/
def ringField (c : Cmd) (s : State) : List Check :=
  [argCheck 0 (s.ring c.obj (c.u32 0)).isNone, busyOn [0] (s.ringHeld c.obj (c.u32 0))]

/-- RING_DESTROY (R132). -/
def ringDestroyPlan (c : Cmd) (s : State) : Plan :=
  setPlan false 8
    (ringField c s ++ reserved c 4 4 ++
     [checkOn 5 rcBadState [0] (s.ringServesConn c.obj (c.u32 0) ||
       (match s.ring c.obj (c.u32 0) with | some g => g.rawq.isSome | none => false))])
    (fun st => st.destroyRing c.obj (c.u32 0))

/-- RING_QUERY (R129). -/
def ringQueryPlan (c : Cmd) (s : State) : Plan :=
  queryPlan false 8 (ringField c s ++ reserved c 4 4) (fun st => match st.ring c.obj (c.u32 0) with
    | none => []
    | some g =>
      let blocked := st.ringReady c.obj (c.u32 0) g && !st.canReserve c.obj g
      leBytes 1 (if g.error then 2 else b2n blocked) ++ zeros 3 ++ leBytes 4 (indexOf g.n g.cons) ++ leBytes 4 (indexOf g.n g.prod) ++
      leBytes 4 (indexOf g.n g.started) ++ leBytes 4 (if g.error then indexOf g.n g.errorIndex else 0))

/-- RING_MODIFY: in force from the next refill (R110, R129). -/
def ringModifyPlan (c : Cmd) (s : State) : Plan :=
  setPlan false 8
    (ringField c s ++ [argCheck 4 (outside (c.u8 4) 1 16), argCheck 5 (outside (c.u8 5) 1 64)] ++ reserved c 6 2)
    (fun st => st.modRing c.obj (c.u32 0) (fun g => { g with nextWeightBurst := some (c.u8 4, c.u8 5) }))

/-- RING_RESTART: long; it waits for the started requests (R132). -/
def ringRestartPlan (c : Cmd) (s : State) : Plan :=
  ⟨false, 8,
   ringField c s ++ reserved c 4 4 ++
   [checkOn 5 rcBadState [0] (match s.ring c.obj (c.u32 0) with | some g => !g.error | none => false)],
   fun st => (st, .long (.ringRestart c.obj (c.u32 0)) false)⟩

/-- The end of RING_RESTART: every entry still posted is discarded, and the ring is ACTIVE (R132). -/
def State.ringRestarted (s : State) (f : FuncId) (r : Nat) : State :=
  s.modRing f r (fun g => { g with cons := g.prod, started := g.prod, held := [], fetching := none, error := false, errorIndex := 0 })

/-- A new completion ring. -/
def Cq.fresh (log2 src windrow : Nat) (key : Word32) (off : Nat) : Cq where
  log2 := log2
  eventSource := src
  windrowEntries := windrow
  key := key
  offset := off
  prod := 0
  cons := 0
  windrow := []
  peak := 0
  spilled := 0
  reserved := 0
  armed := false
  faulted := false
  waiting := none
  unwritten := []
  last := .normal
  tsPorts := []
  blockedAt := 0

/-- CQ_CREATE (R115, R131). -/
def cqCreatePlan (c : Cmd) (s : State) : Plan :=
  let w := c.u32 4
  ⟨false, 24,
   [argCheck 0 (outside (c.u8 0) 4 16)] ++ reserved c 1 1 ++ [argCheck 2 (badSource (c.u16 2)),
    argCheck 4 (decide (w > 1048576) || w % 1024 != 0)] ++
   ringMemory c s 8 16 [accLocalWrite] (32 * 2 ^ min 16 (c.u8 0)) [0] ++ reserved c 12 4 ++
   [checkOn 8 rcNoResource [4] (decide (s.used c.obj 6 ≥ s.share c.obj 6) || decide (s.used c.obj 7 + w > s.share c.obj 7))],
   fun st =>
    let v := st.func c.obj
    match v.cqSeries.take 65536 with
    | none => (st, .answer (Reply.refuse rcNoResource 0))
    | some (n, q) =>
      (st.setFunc c.obj { v with cqSeries := q, cqs := tset v.cqs n (Cq.fresh (c.u8 0) (c.u16 2) w (BitVec.ofNat 32 (c.u32 8)) (c.u64 16)) },
       .answer (Reply.ok (leBytes 4 n ++ zeros 4)))⟩

/-- A work ring or connection is bound to a completion ring (R133). -/
def State.cqBound (s : State) (f : FuncId) (n : Nat) : Bool :=
  (s.func f).rings.any (fun g => g.2.cq == some n) || s.conns.any (fun k => k.2.func == f && k.2.notifyCq == some n)

/-- The check of a CQ field. -/
def cqField (c : Cmd) (s : State) : List Check := [argCheck 0 (s.cq c.obj (c.u32 0)).isNone]

/-- CQ_DESTROY (R133). -/
def cqDestroyPlan (c : Cmd) (s : State) : Plan :=
  setPlan false 8 (cqField c s ++ reserved c 4 4 ++ [checkOn 5 rcBadState [0] (s.cqBound c.obj (c.u32 0))])
    (fun st => st.destroyCq c.obj (c.u32 0))

/-- STATE of CQ_QUERY (R129). -/
def cqStateCode : CqState → Nat
  | .normal => 0
  | .spilling => 1
  | .backpressure => 2
  | .faulted => 3

/-- CQ_QUERY (R129). -/
def cqQueryPlan (c : Cmd) (s : State) : Plan :=
  queryPlan false 8 (cqField c s ++ reserved c 4 4) (fun st => match st.cq c.obj (c.u32 0) with
    | none => []
    | some q => leBytes 1 (cqStateCode q.state) ++ zeros 3 ++ leBytes 4 (indexOf q.n q.prod) ++ leBytes 4 (indexOf q.n q.cons) ++
        leBytes 4 q.windrow.length ++ leBytes 4 q.peak ++ leBytes 4 q.reserved)

/-! ### Trigger counters (R160, R163, R167) -/

/-- The check of a COUNTER field. -/
def trigField (c : Cmd) (s : State) : List Check := [argCheck 0 (tget (s.func c.obj).trigs (c.u16 0)).isNone]

/-- The value of a trigger counter. -/
def State.trigValue (s : State) (f : FuncId) (n : Nat) : Nat := match tget (s.func f).trigs n with | some t => t.value | none => 0

/-- The rings of a function whose next request waits on a counter (R161, R167). -/
def State.waitingOn (s : State) (f : FuncId) (n : Nat) : Nat :=
  ((s.func f).rings.filter (fun g => !g.2.error && match waitOf (g.2.held.drop 1) with
    | some w => w.1 == n && decide (s.trigValue f n < w.2)
    | none => false)).length

/-- Something can still advance or watch a counter (R163). -/
def State.trigInUse (s : State) (f : FuncId) (n : Nat) : Bool :=
  decide (s.waitingOn f n > 0) ||
  (s.func f).rings.any (fun g => g.2.jobs.any (fun j => trigKind (entTrigger j.ent) == 1 && bits (entTrigger j.ent) 15 0 == n)) ||
  s.conns.any (fun k => k.2.func == f && k.2.recvCounter == some n) ||
  s.progs.any (fun k => k.2.func == f && ((k.2.startKind == 1 && k.2.startCounter == n) ||
    (k.2.outputsOf 2).any (fun b => b.a == n)))

/-- TRIG_ALLOC (R167, R467). -/
def trigAllocPlan (c : Cmd) (s : State) : Plan :=
  ⟨false, 16,
   [argCheck 0 (badSource (c.u16 0))] ++ reserved c 2 6 ++ [plainCheck 8 rcNoResource (decide (s.used c.obj 10 ≥ s.share c.obj 10))],
   fun st =>
    let v := st.func c.obj
    match v.trigSeries.take 65536 with
    | none => (st, .answer (Reply.refuse rcNoResource 0))
    | some (n, q) =>
      (st.setFunc c.obj { v with trigSeries := q, trigs := tset v.trigs n ⟨0, if c.u64 8 = 0 then 0 else c.u16 0, c.u64 8, false⟩ },
       .answer (Reply.ok (leBytes 2 n ++ zeros 6)))⟩

/-- TRIG_FREE (R163). -/
def trigFreePlan (c : Cmd) (s : State) : Plan :=
  setPlan false 8 (trigField c s ++ reserved c 2 6 ++ [checkOn 5 rcBadState [0] (s.trigInUse c.obj (c.u16 0))])
    (fun st => st.modFunc c.obj (fun v => { v with trigs := tdel v.trigs (c.u16 0), trigSeries := v.trigSeries.give (c.u16 0) }))

/-- TRIG_SET (R163). -/
def trigSetPlan (c : Cmd) (s : State) : Plan :=
  setPlan false 16 (trigField c s ++ reserved c 2 6) (fun st => st.setTrig c.obj (c.u16 0) (c.u64 8))

/-- TRIG_QUERY (R167). -/
def trigQueryPlan (c : Cmd) (s : State) : Plan :=
  queryPlan false 8 (trigField c s ++ reserved c 2 6) (fun st =>
    leBytes 8 (st.trigValue c.obj (c.u16 0)) ++ leBytes 4 (st.waitingOn c.obj (c.u16 0)) ++ zeros 4)

/-- TRIG_ADD: the value after (R167). -/
def trigAddPlan (c : Cmd) (s : State) : Plan :=
  ⟨false, 16, trigField c s ++ reserved c 2 6,
   fun st =>
    let s1 := st.advanceTrig c.obj (c.u16 0) (c.u64 8)
    (s1, .answer (Reply.ok (leBytes 8 (s1.trigValue c.obj (c.u16 0)))))⟩

/-! ### Communicators (R259 to R261, R289) -/

/-- A connection cannot be an edge: not native, encrypted, with a ring, an edge already, or not in RESET or READY (R260). -/
def Conn.edgeUnfit (k : Conn) : Bool :=
  !k.native || k.encrypt || k.sendRing.isSome || k.recvRing.isSome || k.edge.isSome || (k.state != .reset && k.state != .ready)

/-- The checks of an edge field that must name one. -/
def edgeChecks (c : Cmd) (s : State) (off : Nat) : List Check :=
  [argCheck off (match s.conn (c.u32 off) with | some k => k.edgeUnfit | none => true),
   checkOn 4 rcDenied [off] (match s.conn (c.u32 off) with | some k => k.func != c.obj | none => false)]

/-- As `edgeChecks`, for a field in which 0 stands for none. -/
def edgeOpt (c : Cmd) (s : State) (off : Nat) : List Check := if c.u32 off = 0 then [] else edgeChecks c s off

/-- The children of a COMM_CREATE: connection, first member, members. -/
def cmdChildren (c : Cmd) : List Child :=
  (List.range (min 32 (c.u8 14))).map (fun i => ⟨c.u32 (40 + 12 * i), c.u32 (44 + 12 * i), c.u32 (48 + 12 * i), false, 0⟩)

/-- Inserts a range into a list sorted by first member. -/
def insertRange (r : Nat × Nat) : List (Nat × Nat) → List (Nat × Nat)
  | [] => [r]
  | q :: t => if r.1 ≤ q.1 then r :: q :: t else q :: insertRange r t

/-- The one consecutive range that ranges form: (first, count); none if they do not (R260). -/
def joinRanges (l : List (Nat × Nat)) : Option (Nat × Nat) :=
  (l.foldr insertRange []).foldl (fun (acc : Option (Nat × Nat)) (r : Nat × Nat) => match acc with
    | some a => if a.2 = 0 then some r else if a.1 + a.2 = r.1 then some (a.1, a.2 + r.2) else none
    | none => none) (some (0, 0))

/-- The ranges of a COMM_CREATE are wrong (R260). -/
def rangesBad (c : Cmd) : Bool :=
  let kids := cmdChildren c
  match joinRanges ((c.u32 8, c.u16 12) :: kids.map (fun k => (k.first, k.count))) with
  | none => true
  | some r => kids.any (fun k => k.count == 0) || decide (r.1 + r.2 > c.u32 4) || (bit (c.u8 15) 0 && (r.1 != 0 || r.2 != c.u32 4))

/-- COMM_CREATE (R259, R260). -/
def commCreatePlan (c : Cmd) (s : State) : Plan :=
  let n := c.u8 14
  let root := bit (c.u8 15) 0
  let nodes := c.u16 30
  let comm : Comm := ⟨BitVec.ofNat 32 (c.u32 0), c.u32 4, c.u32 8, c.u16 12, root, c.u32 16, c.u32 20, c.u32 24, c.u16 28, nodes,
    cmdChildren c, false, 0, [], false, []⟩
  ⟨false, 40 + 12 * n,
   [argCheck 4 (outside (c.u32 4) 1 1048576), argCheck 12 (outside (c.u16 12) 1 64), argCheck 14 (decide (n > 32)),
    argCheck 15 (decide (c.u8 15 > 1)), argCheckOn 8 [4, 12, 14, 15] (rangesBad c),
    argCheckOn 16 [15] (if root then c.u32 16 != 0 else c.u32 16 == 0 && nodes == 0), argCheck 30 (nodes == 1),
    argCheckOn 20 [30] ((nodes == 0) != (c.u32 20 == 0)), argCheckOn 24 [30] ((nodes == 0) != (c.u32 24 == 0)),
    argCheckOn 28 [30] (if nodes = 0 then c.u16 28 != 0 else decide (c.u16 28 ≥ nodes))] ++
   edgeOpt c s 16 ++ edgeOpt c s 20 ++ edgeOpt c s 24 ++
   (List.range (min 32 n)).flatMap (fun i => edgeChecks c s (40 + 12 * i)) ++ reserved c 32 8 ++
   [plainCheck 8 rcNoResource (s.share c.obj 13 == 0 || decide (s.used c.obj 12 ≥ s.share c.obj 12))],
   fun st =>
    let v := st.func c.obj
    match v.commSeries.take 65536 with
    | none => (st, .answer (Reply.refuse rcNoResource 0))
    | some (m, q) =>
      let s1 := st.setFunc c.obj { v with commSeries := q, comms := tset v.comms m comm }
      let edges := ([comm.parent, comm.ringNext, comm.ringPrev] ++ comm.children.map (fun k => k.conn)).filter (fun e => e != 0)
      (forEach edges s1 (fun w e => w.modConn e (fun k => { k with edge := some m })), .answer (Reply.ok (leBytes 4 m ++ zeros 4)))⟩

/-- Operations of a communicator in flight at this node. -/
def State.opsOf (s : State) (f : FuncId) (cm : Nat) : Nat := ((s.func f).ops.filter (fun o => o.comm == cm)).length

/-- The check of a COMM field. -/
def commField (c : Cmd) (s : State) : List Check := [argCheck 0 (s.comm c.obj (c.u32 0)).isNone]

/-- COMM_DESTROY (R261). -/
def commDestroyPlan (c : Cmd) (s : State) : Plan :=
  setPlan false 8
    (commField c s ++ [argCheck 4 (decide (c.u32 4 > 1)), checkOn 5 rcBadState [0, 4] (c.u32 4 == 0 && decide (s.opsOf c.obj (c.u32 0) > 0))])
    (fun st => (st.destroyComm c.obj (c.u32 0)).collPump c.obj)

/-- COMM_QUERY (R289). -/
def commQueryPlan (c : Cmd) (s : State) : Plan :=
  queryPlan false 8 (commField c s ++ reserved c 4 4) (fun st => match st.comm c.obj (c.u32 0) with
    | none => []
    | some m => leBytes 1 (b2n m.degraded) ++ zeros 3 ++ leBytes 4 (st.opsOf c.obj (c.u32 0)) ++ leBytes 4 m.pruned ++ zeros 4)

/-- COLL_RING_CREATE (R262, R289). -/
def collRingCreatePlan (c : Cmd) (s : State) : Plan :=
  ⟨false, 32, ringChecks c s 0 1 2 4 ++ reserved c 3 1 ++ reserved c 6 2,
   fun st => st.addRing c.obj (Ring.fresh .coll false (c.u8 0) (c.u8 1) (c.u8 2) (c.u16 4) (ringOpt (c.u32 8)) (BitVec.ofNat 32 (c.u32 12)) (c.u64 16))⟩

/-- COLL_SLOTS_QUERY (R289). -/
def collSlotsQueryPlan (c : Cmd) (_s : State) : Plan :=
  queryPlan false 0 [] (fun st =>
    leBytes 4 (st.share c.obj 13) ++ leBytes 4 (st.freeSlots c.obj) ++
    leBytes 4 ((st.func c.obj).ops.filter (fun o => o.launched)).length ++ leBytes 4 (st.func c.obj).lastGseq)

/-- RING_CREATE (R130). -/
def execRingCreate (f : FuncId) (s : State) : Out := s.perform f 0x0300 ringCreatePlan
/-- RING_DESTROY (R132). -/
def execRingDestroy (f : FuncId) (s : State) : Out := s.perform f 0x0301 ringDestroyPlan
/-- RING_QUERY (R129). -/
def execRingQuery (f : FuncId) (s : State) : Out := s.perform f 0x0302 ringQueryPlan
/-- RING_MODIFY (R110). -/
def execRingModify (f : FuncId) (s : State) : Out := s.perform f 0x0303 ringModifyPlan
/-- RING_RESTART (R132). -/
def execRingRestart (f : FuncId) (s : State) : Out := s.perform f 0x0304 ringRestartPlan
/-- CQ_CREATE (R131). -/
def execCqCreate (f : FuncId) (s : State) : Out := s.perform f 0x0310 cqCreatePlan
/-- CQ_DESTROY (R133). -/
def execCqDestroy (f : FuncId) (s : State) : Out := s.perform f 0x0311 cqDestroyPlan
/-- CQ_QUERY (R129). -/
def execCqQuery (f : FuncId) (s : State) : Out := s.perform f 0x0312 cqQueryPlan
/-- TRIG_ALLOC (R167). -/
def execTrigAlloc (f : FuncId) (s : State) : Out := s.perform f 0x0330 trigAllocPlan
/-- TRIG_FREE (R163). -/
def execTrigFree (f : FuncId) (s : State) : Out := s.perform f 0x0331 trigFreePlan
/-- TRIG_SET (R163). -/
def execTrigSet (f : FuncId) (s : State) : Out := s.perform f 0x0332 trigSetPlan
/-- TRIG_QUERY (R167). -/
def execTrigQuery (f : FuncId) (s : State) : Out := s.perform f 0x0333 trigQueryPlan
/-- TRIG_ADD (R167). -/
def execTrigAdd (f : FuncId) (s : State) : Out := s.perform f 0x0334 trigAddPlan
/-- COMM_CREATE (R259). -/
def execCommCreate (f : FuncId) (s : State) : Out := s.perform f 0x0700 commCreatePlan
/-- COMM_DESTROY (R261). -/
def execCommDestroy (f : FuncId) (s : State) : Out := s.perform f 0x0701 commDestroyPlan
/-- COMM_QUERY (R289). -/
def execCommQuery (f : FuncId) (s : State) : Out := s.perform f 0x0702 commQueryPlan
/-- COLL_RING_CREATE (R289). -/
def execCollRingCreate (f : FuncId) (s : State) : Out := s.perform f 0x0703 collRingCreatePlan
/-- COLL_SLOTS_QUERY (R289). -/
def execCollSlotsQuery (f : FuncId) (s : State) : Out := s.perform f 0x0710 collSlotsQueryPlan

end Sys2Proof.Machine
end

