-- ==== Sys2Proof/Machine/ConnCmds.lean ====
section
/-! DEFINITION. Machine/ConnCmds.lean: the connection commands (R143 to R147, R167), keys (R200 to R202) and transport parameters
(R203). -/

namespace Sys2Proof.Machine

/-! ### Creating (R143, R144) -/

/-- A connection in RESET, its context cached. -/
def Conn.fresh (f : FuncId) (mode : ConnMode) (pin encrypt : Bool) (err : Nat) (send recv notify counter : Option Nat) (depth : Nat) : Conn where
  func := f
  mode := mode
  pin := pin
  encrypt := encrypt
  errSource := err
  sendRing := send
  recvRing := recv
  notifyCq := notify
  recvCounter := counter
  readDepth := depth
  state := .reset
  peer := 0
  node := false
  pmtu := 2
  npaths := 1
  dscp := 0
  entropy := 0
  port := none
  peerAddr := 0
  pkey := 0xFFFF
  ctx := .cached
  used := 0
  missed := []
  missedRoce := []
  xport := Xport.reset
  cc := Cc.reset
  clampDue := false
  stats := ConnStats.reset
  txKey := none
  rxKey := none
  nextTx := none
  nextRx := none
  oldTx := none
  oldRx := none
  rxPhase := false
  rxPhasePsn := none
  shapers := []
  edge := none
  tx := Tx.fresh 0 0 0 Xport.reset
  rx := Rx.fresh 0

/-- MODE as a field. -/
def modeOf (n : Nat) : ConnMode := if n = 0 then .pinned else if n = 1 then .sprayed else .roce

/-- A ring cannot serve a connection in a direction: not a SEND ring, a raw queue's, or serving the other direction (R144, R247). -/
def State.ringUnfit (s : State) (f : FuncId) (r : Nat) (send : Bool) : Bool :=
  match s.ring f r with
  | none => true
  | some g => g.kind != .send || g.rawq.isSome ||
      s.conns.any (fun k => k.2.func == f && (if send then k.2.recvRing else k.2.sendRing) == some r)

/-- CONN_CREATE (R143, R144). -/
def connCreatePlan (c : Cmd) (s : State) : Plan :=
  let cq := c.u32 12
  let ctr := c.u32 16
  let en := bit ctr 31
  ⟨false, 32,
   [argCheck 0 (decide (c.u8 0 > 2)), argCheck 1 (decide (c.u8 1 > 3)), argCheckOn 1 [0] (bit (c.u8 1) 1 && c.u8 0 == 2),
    argCheck 2 (badSource (c.u16 2)),
    argCheck 4 (c.u32 4 != noneId && s.ringUnfit c.obj (c.u32 4) true), argCheck 8 (c.u32 8 != noneId && s.ringUnfit c.obj (c.u32 8) false),
    argCheckOn 8 [4] (c.u32 8 != noneId && c.u32 8 == c.u32 4),
    argCheck 12 (cq != noneId && (match s.cq c.obj cq with
      | none => true
      | some q => !q.tsPorts.isEmpty || (s.func c.obj).rings.any (fun g => g.2.cq == some cq))),
    argCheck 16 (bits ctr 30 16 != 0 || (en && (tget (s.func c.obj).trigs (bits ctr 15 0)).isNone)),
    argCheck 20 (outside (c.u8 20) 1 16)] ++ reserved c 21 11 ++
   [plainCheck 8 rcNoResource (decide (s.used c.obj 3 ≥ s.share c.obj 3)),
    checkOn 8 rcNoResource [1] (bit (c.u8 1) 0 && decide (s.used c.obj 4 ≥ s.share c.obj 4)),
    busyOn [4] (c.u32 4 != noneId && s.ringHeld c.obj (c.u32 4)), busyOn [8] (c.u32 8 != noneId && s.ringHeld c.obj (c.u32 8))],
   fun st =>
    match st.connSeries.take 0x1000000 with
    | none => (st, .answer (Reply.refuse rcNoResource 0))
    | some (n, q) =>
      let k := Conn.fresh c.obj (modeOf (c.u8 0)) (bit (c.u8 1) 0) (bit (c.u8 1) 1) (c.u16 2) (ringOpt (c.u32 4)) (ringOpt (c.u32 8))
        (ringOpt cq) (if en then some (bits ctr 15 0) else none) (c.u8 20)
      ((({ st with connSeries := q, conns := tset st.conns n k } : State).touchConn n).evict, .answer (Reply.ok (leBytes 4 n ++ zeros 4)))⟩

/-! ### Connecting (R145, R237, R364, R365) -/

/-- The connection that a CONN_CONNECT would make of `k`. -/
def Conn.connectedTo (k : Conn) (c : Cmd) : Conn :=
  let node := c.u8 8 == 1
  { k with
    peer := c.u32 4, node := node, pmtu := c.u8 9, npaths := c.u8 10, dscp := BitVec.ofNat 6 (c.u8 11)
    entropy := BitVec.ofNat 16 (c.u16 20)
    port := if c.u8 22 = 0xFF then none else some (c.port 22)
    peerAddr := BitVec.ofNat 128 (if node then c.u32 24 else beNat (c.bytes 24 16))
    pkey := BitVec.ofNat 16 (if k.mode = .roce then c.u16 40 else 0xFFFF) }

/-- The first logical port whose maximum frame a connection's full packet exceeds: port, need (R145, R237). -/
def State.unfitPort (s : State) (k : Conn) : Option (LPort × Nat) :=
  (s.livePorts.filter (s.connUses k)).findSome? (fun p =>
    let need := s.frameNeed k (b2n (s.port p).tagEn)
    if need > (s.port p).maxFrame then some (p, need) else none)

/-- CONN_CONNECT (R145, R146, R365); DEGRADED_OK where the port named runs below its lane count (R397). -/
def connConnectPlan (c : Cmd) (s : State) : Plan :=
  let n := c.u32 0
  let k0 := s.conn n
  let roce := s.connD n (fun k => !k.native)
  let k := k0.map (fun q => q.connectedTo c)
  let short := k.bind s.unfitPort
  ⟨false, 48,
   connChecks c s 0 ++
   [argCheck 4 (decide (c.u32 4 ≥ 2 ^ 24)), argCheck 8 (decide (c.u8 8 > 1)), argCheckOn 8 [0] (roce && c.u8 8 == 1),
    argCheck 9 (outside (c.u8 9) 2 5), argCheckOn 9 [0] (roce && c.u8 9 == 5),
    argCheck 10 (outside (c.u8 10) 1 64), argCheckOn 10 [0] (roce && c.u8 10 != 1), argCheck 11 (decide (c.u8 11 > 63)),
    argCheckOn 12 [0] (roce && decide (c.u32 12 ≥ 2 ^ 24)), argCheckOn 16 [0] (roce && decide (c.u32 16 ≥ 2 ^ 24)),
    argCheck 22 (c.u8 22 != 0xFF && (decide (c.u8 22 ≥ 32) || !s.portExists (c.port 22))),
    argCheckOn 22 [8] (c.u8 8 == 1 && c.u8 22 != 0xFF),
    argCheckOn 24 [8] (c.u8 8 == 1 && (outside (c.u32 24) 1 0xFFFFF || leNat (c.bytes 28 12) != 0)),
    argCheckOn 40 [0] (!roce && c.u16 40 != 0)] ++ reserved c 23 1 ++ reserved c 42 6 ++
   [checkOn 5 rcBadState [0] (s.connD n (fun q => q.state != .reset)),
    ⟨7, short.isSome, rcDoesNotFit, 0, [32, 40, 41, 54, 56],
     (match short with | some w => oneShort w.1.val w.2 (s.port w.1).maxFrame | none => [])⟩,
    checkOn 8 rcNoResource [0] (s.connD n (fun q => s.creditShort q 64)),
    busyOn [22] (c.u8 22 != 0xFF && s.portHeld (c.port 22))],
   fun st =>
    match st.conn n with
    | none => (st, .answer (Reply.ok []))
    | some q0 =>
      let q := q0.connectedTo c
      let mbps := st.portMbps (st.portNow n q 0)
      let tx := Tx.fresh (c.u32 12) (if q.native then 64 else 2 ^ 20) mbps q.xport
      let q1 : Conn := { q with
        state := .ready, rx := Rx.fresh (c.u32 16)
        tx := { tx with paths := (List.range q.npaths).map (fun i => (i, PathCc.fresh q.cc st.relay.epoch)) } }
      let s1 := ({ st with conns := tset st.conns n q1 } : State).initialCredit n
      let degr := match q.port with | some p => s1.portDegraded p | none => false
      (s1, .answer (if degr then ⟨rcDegradedOk, 4, []⟩ else Reply.ok []))⟩

/-! ### Destroying, resetting, querying (R146, R167) -/

/-- CONN_DESTROY (R146). -/
def connDestroyPlan (c : Cmd) (s : State) : Plan :=
  setPlan false 8
    (connChecks c s 0 ++ [argCheck 4 (decide (c.u32 4 > 1)),
      checkOn 5 rcBadState [0, 4] (c.u32 4 == 0 && s.connD (c.u32 0) (fun k => k.state == .ready || k.state == .frozen))])
    (fun st => st.destroyConn (c.u32 0))

/-- STATE and MODE of CONN_QUERY (R167). -/
def connStateCode : ConnState → Nat
  | .reset => 0
  | .ready => 1
  | .error => 2
  | .frozen => 3

/-- MODE of R135. -/
def connModeCode : ConnMode → Nat
  | .pinned => 0
  | .sprayed => 1
  | .roce => 2

/-- CONN_QUERY (R167). -/
def connQueryPlan (c : Cmd) (s : State) : Plan :=
  queryPlan false 8 (connChecks c s 0 ++ reserved c 4 4) (fun st => match st.conn (c.u32 0) with
    | none => []
    | some k => leBytes 1 (connStateCode k.state) ++ leBytes 1 (connModeCode k.mode) ++ leBytes 1 (b2n (k.ctx == .cached)) ++
        leBytes 1 (b2n k.pin) ++ leBytes 4 k.tx.next ++ leBytes 4 k.rx.epsn ++ leBytes 4 (k.psnSub k.tx.next k.tx.una) ++
        leBytes 4 (min max32 k.stats.missDrops))

/-- CONN_RESET: sequence and path state cleared, keys destroyed (R146, R201). -/
def connResetPlan (c : Cmd) (s : State) : Plan :=
  setPlan false 8
    (connChecks c s 0 ++ reserved c 4 4 ++ [checkOn 5 rcBadState [0] (s.connD (c.u32 0) (fun k => k.state != .error))])
    (fun st => match st.conn (c.u32 0) with
      | none => st
      | some k =>
        (forEach k.keyList (st.quietConn (c.u32 0) k) (fun w h => w.destroyKey h)).modConn (c.u32 0) (fun q => { q with
          state := .reset, clampDue := false, tx := Tx.fresh 0 0 0 q.xport, rx := Rx.fresh 0, npaths := 1
          txKey := none, rxKey := none, nextTx := none, nextRx := none, oldTx := none, oldRx := none, rxPhase := false, rxPhasePsn := none }))

/-! ### Keys (R200 to R202) -/

/-- The checks of a KEY_HANDLE field. -/
def keyChecks (c : Cmd) (s : State) (off : Nat) : List Check := ownedChecks s c off ((tget s.keys (c.u32 off)).map (fun k => k.func))

/-- USAGE as a field. -/
def useOf (n : Nat) : KeyUse := if n = 0 then .copy else if n = 1 then .connTx else .connRx

/-- KEY_CREATE: the COPY keys of a function differ in FIXED (R202). -/
def keyCreatePlan (c : Cmd) (s : State) : Plan :=
  ⟨false, 40,
   [argCheck 0 (decide (c.u8 0 > 2))] ++ reserved c 1 3 ++
   [argCheckOn 4 [0] (c.u8 0 == 0 && s.keys.any (fun k => k.2.func == c.obj && k.2.use == .copy && k.2.fixed == c.bytes 4 4)),
    plainCheck 8 rcNoResource (decide (s.used c.obj 15 ≥ s.share c.obj 15))],
   fun st => match st.keySeries.take 0x100000000 with
    | none => (st, .answer (Reply.refuse rcNoResource 0))
    | some (n, q) =>
      ({ st with keySeries := q, keys := tset st.keys n ⟨c.obj, useOf (c.u8 0), c.bytes 4 4, c.bytes 8 32, 0, false, none⟩ },
       .answer (Reply.ok (leBytes 4 n ++ zeros 4)))⟩

/-- Bytes 32 to 71 of the command mailbox are zeroed before the response to KEY_CREATE is written (R201). -/
def State.wipeKey (s : State) (f : FuncId) : State :=
  s.modMbx f (fun m => match m.cmdUndef with
    | (a, _) :: _ => if a < 72 then { m with cmd := mzero m.cmd a (72 - a), cmdUndef := [(72, 4024)] } else m
    | [] => m)

/-- KEY_DESTROY: BAD_STATE while bound (R202). -/
def keyDestroyPlan (c : Cmd) (s : State) : Plan :=
  setPlan false 8
    (keyChecks c s 0 ++ reserved c 4 4 ++
     [checkOn 5 rcBadState [0] (match tget s.keys (c.u32 0) with | some k => k.conn.isSome | none => false)])
    (fun st => st.destroyKey (c.u32 0))

/-- The checks of TX_KEY and RX_KEY: keys of the right USAGE, never bound before (R201). -/
def connKeyChecks (c : Cmd) (s : State) : List Check :=
  let one := fun (off : Nat) (u : KeyUse) =>
    keyChecks c s off ++
    [argCheck off (match tget s.keys (c.u32 off) with | some k => k.use != u | none => false),
     checkOn 5 rcBadState [off] (match tget s.keys (c.u32 off) with | some k => k.everBound | none => false)]
  one 4 .connTx ++ one 8 .connRx ++ reserved c 12 4

/-- Binds a key to a connection. -/
def State.bindKey (s : State) (k n : Nat) : State := { s with keys := tmod s.keys k (fun v => { v with everBound := true, conn := some n }) }

/-- CONN_SET_KEYS: a connection in RESET; keys it had are unbound (R201). -/
def connSetKeysPlan (c : Cmd) (s : State) : Plan :=
  setPlan false 16
    (connChecks c s 0 ++ connKeyChecks c s ++ [checkOn 5 rcBadState [0] (s.connD (c.u32 0) (fun k => k.state != .reset))])
    (fun st => match st.conn (c.u32 0) with
      | none => st
      | some k =>
        let s1 := forEach k.keyList st (fun w h => { w with keys := tmod w.keys h (fun v => { v with conn := none }) })
        ((s1.bindKey (c.u32 4) (c.u32 0)).bindKey (c.u32 8) (c.u32 0)).modConn (c.u32 0) (fun q => { q with
          txKey := some (c.u32 4), rxKey := some (c.u32 8) }))

/-- CONN_ROTATE_KEYS: responses that waited for a nonce go on; the next new PSN is sent under the next TX key with KEY_PHASE inverted; the
receiver takes the next RX key for frames of the new phase (R200). Refused outside READY and without keys to follow (log entry 31). -/
def connRotateKeysPlan (c : Cmd) (s : State) : Plan :=
  setPlan false 16
    (connChecks c s 0 ++ connKeyChecks c s ++
     [checkOn 5 rcBadState [0] (s.connD (c.u32 0) (fun k => k.state != .ready || k.txKey.isNone || k.rxKey.isNone)),
      busyOn [0] (s.connD (c.u32 0) (fun k => k.oldTx.isSome || k.oldRx.isSome || k.nextRx.isSome))])
    (fun st =>
      let s1 := (st.bindKey (c.u32 4) (c.u32 0)).bindKey (c.u32 8) (c.u32 0)
      ((s1.modConn (c.u32 0) (fun q => { q with
        oldTx := q.txKey, txKey := some (c.u32 4), nextRx := some (c.u32 8)
        tx := { q.tx with keyPhase := !q.tx.keyPhase, phasePsn := q.tx.next, keyPsns := 0, respCount := 0 } })).dropOldTx (c.u32 0)).beginWork (c.u32 0))

/-! ### Transport parameters (R202, R203) -/

/-- XPORT_SET: requests already started keep the parameters they started with (R15, R203). -/
def xportSetPlan (c : Cmd) (s : State) : Plan :=
  let x : Xport := ⟨c.u32 4, c.u32 8, c.u8 12, c.u8 13, c.u8 14, c.u8 15, c.u8 16, c.u32 20, c.u32 24, c.u32 28⟩
  setPlan false 32
    (connChecks c s 0 ++
     [argCheck 4 (outside x.rtoMinUs 5 10000), argCheck 8 (outside x.rtoMaxMs 1 10000), argCheck 12 (outside x.retryLimit 1 64),
      argCheck 13 (outside x.reorder 1 16), argCheck 14 (outside x.pathFail 1 8), argCheck 15 (outside x.probeOk 1 8),
      argCheck 16 (outside x.ackPackets 1 64)] ++ reserved c 17 3 ++
     [argCheck 20 (outside x.ackDelayNs 250 100000), argCheck 24 (outside x.probeIntervalUs 10 10000),
      argCheck 28 (outside x.creditMax 64 1048576)])
    (fun st => (st.modConn (c.u32 0) (fun k =>
      { k with xport := x })).clampSoon (c.u32 0))

/-- XPORT_QUERY (R202). -/
def xportQueryPlan (c : Cmd) (s : State) : Plan :=
  queryPlan false 8 (connChecks c s 0 ++ reserved c 4 4) (fun st => match st.conn (c.u32 0) with
    | none => []
    | some k =>
      let m := (k.livePaths.map (fun p => 2 ^ p)).sum
      let w := fun (n : Nat) => leBytes 4 (min max32 n)
      leBytes 8 m ++ leBytes 8 (min max64 k.stats.retransmissions) ++ w k.stats.timeouts ++ w k.stats.rnrSent ++ w k.stats.rnrReceived ++
      w k.stats.duplicates ++ w k.stats.authFailures ++ w k.stats.beyondTracking)

/-- CONN_CREATE (R143). -/
def execConnCreate (f : FuncId) (s : State) : Out := s.perform f 0x0320 connCreatePlan
/-- CONN_CONNECT (R145). -/
def execConnConnect (f : FuncId) (s : State) : Out := s.perform f 0x0321 connConnectPlan
/-- CONN_DESTROY (R146). -/
def execConnDestroy (f : FuncId) (s : State) : Out := s.perform f 0x0322 connDestroyPlan
/-- CONN_QUERY (R167). -/
def execConnQuery (f : FuncId) (s : State) : Out := s.perform f 0x0323 connQueryPlan
/-- CONN_RESET (R146). -/
def execConnReset (f : FuncId) (s : State) : Out := s.perform f 0x0324 connResetPlan
/-- KEY_CREATE (R202). -/
def execKeyCreate (f : FuncId) (s : State) : Out :=
  next (if s.canTake f && (s.cmd f).opcode == 0x0400 then (s.runCommand f 0x0400 keyCreatePlan).wipeKey f else s).settle
/-- KEY_DESTROY (R202). -/
def execKeyDestroy (f : FuncId) (s : State) : Out := s.perform f 0x0401 keyDestroyPlan
/-- CONN_SET_KEYS (R201). -/
def execConnSetKeys (f : FuncId) (s : State) : Out := s.perform f 0x0410 connSetKeysPlan
/-- CONN_ROTATE_KEYS (R200). -/
def execConnRotateKeys (f : FuncId) (s : State) : Out := s.perform f 0x0411 connRotateKeysPlan
/-- XPORT_SET (R203). -/
def execXportSet (f : FuncId) (s : State) : Out := s.perform f 0x0420 xportSetPlan
/-- XPORT_QUERY (R202). -/
def execXportQuery (f : FuncId) (s : State) : Out := s.perform f 0x0421 xportQueryPlan

end Sys2Proof.Machine
end

