-- ==== Sys2Proof/Machine/MemCmds.lean ====
section
/-! DEFINITION. Machine/MemCmds.lean: the memory-pool commands of the 0x09xx range: layout, scrub and granules (R338 to
R348, R356, R377 to R379, R385). -/

namespace Sys2Proof.Machine

/-! ### Layout (R338 to R341) -/

/-- MEM_LAYOUT_QUERY (R356). -/
def memLayoutQueryPlan (_c : Cmd) (s0 : State) : Plan :=
  queryPlan false 0 [busyOn [] s0.layoutHeld] (fun s =>
    let l := s.mem.layout
    leBytes 4 l.windrowMib ++ leBytes 4 l.traceMib ++ leBytes 4 l.slots ++ zeros 4 ++
    (List.range 40).flatMap (fun f => leBytes 1 (l.inlineMib.getD f 0)) ++
    leBytes 4 s.poolHbmMib ++ leBytes 4 s.poolTilthKib)

/-- The layout a MEM_LAYOUT_SET asks for. -/
def cmdLayout (c : Cmd) : Layout := ⟨c.u32 0, c.u32 4, c.u32 8, (List.range 40).map (fun f => c.u8 (16 + f))⟩

/-- A function holds some share other than its VECTORS (R341, R376, R381). -/
def Func.holdsShare (v : Func) : Bool :=
  !v.hbm.isEmpty || !v.tilth.isEmpty || v.furrows != 0 || v.shares.any (fun p => p.1 != 14 && p.2 != 0)

/-- The conditions of R341 under which the memory may not be laid out or wiped anew. -/
def State.memoryInUse (s : State) : Bool :=
  allFuncs.any (fun f => f != s.manager && (s.func f).holdsShare) ||
  s.regions.any (fun r => r.2.kind == .module && r.2.func == s.manager) ||
  (s.func s.manager).cqs.any (fun q => q.2.windrowEntries != 0) ||
  s.progs.any (fun p => p.2.func == s.manager) ||
  s.trace.state != .idle ||
  !(s.func s.manager).comms.isEmpty

/-- Sum of a share over all functions. -/
def State.shareSum (s : State) (code : Nat) : Nat := (allFuncs.map (fun f => s.share f code)).sum

/-- A granule the manager holds would be reserved (R341). -/
def State.managerLoses (s : State) (l : Layout) : Bool :=
  (s.func s.manager).hbm.any (fun k => !l.poolGranule (k * hbmGranule)) ||
  (s.func s.manager).tilth.any (fun k => !l.poolGranule (k * tilthGranule))

/-- MEM_LAYOUT_SET (R341, R356). -/
def memLayoutSetPlan (c : Cmd) (s : State) : Plan :=
  let l := cmdLayout c
  ⟨true, 56,
   [argCheck 0 (l.windrowMib > 4096 || l.windrowMib % 8 != 0),
    argCheck 4 (l.traceMib > 1024 || l.traceMib % 8 != 0),
    argCheck 8 (l.slots > 8192 || l.slots % 2 != 0)] ++ reserved c 12 4 ++
   (List.range 40).map (fun f => argCheck (16 + f) (l.inlineMib.getD f 0 > 48)) ++
   (List.range 40).map (fun f => argCheckOn (16 + f) [8] (l.tilthReserved f > sliceBytes)) ++
   [plainCheck 5 rcBadState s.memoryInUse,
    busyOn [] (s.rangeHeld 0 (2 ^ 64)),
    checkOn 8 rcNoResource [0] (l.windrowMib * 32768 < s.shareSum 7),
    checkOn 8 rcNoResource [8] (l.slots < s.shareSum 13),
    checkOn 8 rcNoResource [0, 4, 8] (s.managerLoses l)],
   fun st => (st, .long (.memLayoutSet l.windrowMib l.traceMib l.slots l.inlineMib) false)⟩

/-- The new layout in force: zeros over every range whose use changes (R341). -/
def State.setLayout (s : State) (l : Layout) : State :=
  let old := s.mem.layout
  let s1 := if old.hbmReservedMib = l.hbmReservedMib ∧ old.windrowMib = l.windrowMib then s
    else forEach (List.range 4) s (fun st k =>
      let lo := min (old.hbmPoolEnd k) (l.hbmPoolEnd k)
      st.scrub lo ((k + 1) * 2 ^ 36 - 1280 * 2 ^ 20 - lo))
  let s2 := forEach (List.range 40) s1 (fun st f =>
    if old.tilthReserved f = l.tilthReserved f ∧ old.slotsIn f = l.slotsIn f then st
    else
      let lo := tilthBase + f * sliceSpan + min (old.tilthPool f) (l.tilthPool f)
      st.scrub lo (tilthBase + f * sliceSpan + sliceBytes - cacheBytes f - lo))
  { s2 with mem := { s2.mem with layout := l } }

/-! ### Scrub (R346, R348) -/

/-- Granule of the memory an address lies in (R348). -/
def granuleAt (a : Nat) : Nat := if inTilth a then tilthGranule else hbmGranule

/-- The checks of a BASE and LENGTH at payload offsets `b` and `n` (R356, R385). -/
def rangeChecks (c : Cmd) (b n : Nat) (gran : Nat) : List Check :=
  let base := c.u64 b
  let len := c.u64 n
  [argCheck b (base % gran != 0 || !populated base),
   argCheck n (len == 0 || len % gran != 0),
   argCheckOn n [b] (!rangePopulated base len)]

/-- SHARE_SCRUB (R348, R356). -/
def shareScrubPlan (c : Cmd) (s : State) : Plan :=
  let base := c.u64 0
  let len := c.u64 8
  ⟨true, 16,
   rangeChecks c 0 8 (granuleAt base) ++
   [checkOn 4 rcDenied [0, 8] (s.mem.layout.touchesReserved base len),
    checkOn 5 rcBadState [0, 8] (s.moduleRegionAt base len),
    busyOn [0, 8] (s.rangeHeld base len)],
   fun st => (st, .long (.shareScrub base len) false)⟩

/-- SCRUB_SET (R346, R356). -/
def scrubSetPlan (c : Cmd) (_s : State) : Plan :=
  setPlan true 8
    [argCheck 0 (c.u32 0 < 3600 || c.u32 0 > 86400), argCheck 4 (c.u32 4 < 300 || c.u32 4 > 3600)]
    (fun st => { st with mem := { st.mem with hbmPeriod := c.u32 0, tilthPeriod := c.u32 4 } })

/-- SCRUB_QUERY: counts per stack and per die (R356). -/
def scrubQueryPlan (_c : Cmd) (_s : State) : Plan :=
  queryPlan true 0 [] (fun s => (List.range 6).flatMap (fun u =>
    leBytes 8 (tgetD s.mem.corrected u 0) ++ leBytes 8 (tgetD s.mem.uncorrectable u 0) ++
    leBytes 4 (min max32 (s.mem.poison.filter (fun b => memUnit (b * 64) == u)).length) ++
    leBytes 4 (min max32 (tgetD s.mem.passMs u 0))))

/-! ### Granules (R376 to R379, R385, R391, R392, R397) -/

/-- The granule numbers BASE and LENGTH name. -/
def cmdGranules (c : Cmd) (g : Nat) : List Nat := lrange (c.u64 8 / g) (c.u64 16 / g)

/-- Bytes of a granule of KIND. -/
def kindGranule (kind : Nat) : Nat := if kind = 1 then tilthGranule else hbmGranule

/-- The checks of the granule commands' fields: KIND, BASE in the memory KIND names, LENGTH (R356, R385). -/
def granuleChecks (c : Cmd) : List Check :=
  let kind := c.u8 2
  [argCheck 2 (kind > 1)] ++ reserved c 3 5 ++
  [argCheckOn 8 [2] (c.u64 8 % kindGranule kind != 0 || !populated (c.u64 8) || inTilth (c.u64 8) != (kind == 1)),
   argCheckOn 16 [2] (c.u64 16 == 0 || c.u64 16 % kindGranule kind != 0),
   argCheckOn 16 [2, 8] (!rangePopulated (c.u64 8) (c.u64 16) || (kind == 0 && c.u64 8 + c.u64 16 > tilthBase))]

/-- A running GRANULE_REVOKE or SHARE_SCRUB works on the range (R43). -/
def State.granulesBusy (s : State) (base len : Nat) : Bool :=
  s.heldBy (fun j => match j with
    | .granuleRevoke _ _ b n => overlap b n base len
    | .shareScrub b n => overlap b n base len
    | _ => false)

/-- Moves granules to a function's share, with its SHARE_CHANGED record (R377, R378). -/
def State.grant (s : State) (f : FuncId) (tilth : Bool) (l : List Nat) : State :=
  let v := s.func f
  let old := if tilth then v.tilth else v.hbm
  let new := l.foldl linsert old
  (s.setFunc f (if tilth then { v with tilth := new } else { v with hbm := new })).shareChanged f (b2n tilth)
    old.length new.length

/-- Takes granules out of a function's share, with its SHARE_CHANGED record (R377, R378). -/
def State.ungrant (s : State) (f : FuncId) (tilth : Bool) (l : List Nat) : State :=
  let v := s.func f
  let old := if tilth then v.tilth else v.hbm
  let new := old.filter (fun k => !l.contains k)
  (s.setFunc f (if tilth then { v with tilth := new } else { v with hbm := new })).shareChanged f (b2n tilth)
    old.length new.length

/-- GRANULE_GRANT (R378, R385); DEGRADED_OK on a stack with a channel mapped out (R397). -/
def granuleGrantPlan (c : Cmd) (s : State) : Plan :=
  let kind := c.u8 2
  let g := kindGranule kind
  let l := cmdGranules c g
  let f := c.target
  let degr := kind == 0 && (lrange (stackOf (c.u64 8)) (stackOf (c.u64 8 + c.u64 16 - 1) - stackOf (c.u64 8) + 1)).any
    (fun st => !(tgetD s.mem.channelsOut st []).isEmpty)
  ⟨true, 24,
   targetChecks c s [] ++ granuleChecks c ++
   [checkOn 5 rcBadState [2, 8, 16] (l.any (fun k => !s.granuleFree (k * g)) || s.granulesBusy (c.u64 8) (c.u64 16))],
   fun st => (st.grant f (kind == 1) l,
     .answer (if degr then ⟨rcDegradedOk, 9, []⟩ else Reply.ok []))⟩

/-- GRANULE_REVOKE (R378, R385): the granules leave the share at once and are scrubbed before they return. -/
def granuleRevokePlan (c : Cmd) (s : State) : Plan :=
  let kind := c.u8 2
  let g := kindGranule kind
  let l := cmdGranules c g
  let f := c.target
  let v := s.func f
  let held := fun k => if kind = 1 then v.tilth.contains k else v.hbm.contains k
  ⟨true, 24,
   targetChecks c s [] ++ granuleChecks c ++
   [checkOn 5 rcBadState [0, 2, 8, 16] (l.any (fun k => !held k) || s.granuleInUse (c.u64 8) (c.u64 16))],
   fun st => (st.ungrant f (kind == 1) l, .long (.granuleRevoke f (kind == 1) (c.u64 8) (c.u64 16)) true)⟩

/-- Joins rising granule numbers into extents (first, count). -/
def extents (l : List Nat) : List (Nat × Nat) :=
  l.foldr (fun k acc => match acc with
    | (a, n) :: r => if k + 1 = a then (k, n + 1) :: r else (k, 1) :: (a, n) :: r
    | [] => [(k, 1)]) []

/-- GRANULE_QUERY: up to 253 extents at or after START (R385). -/
def granuleQueryPlan (c : Cmd) (s : State) : Plan :=
  let kind := c.u8 2
  let g := kindGranule kind
  queryPlan false 16
    (targetChecks c s [.disabled] ++
     [argCheck 2 (kind > 1), checkOn 4 rcDenied [0] (c.f != s.manager && c.target != c.f)] ++ reserved c 3 5)
    (fun st =>
      let v := st.func c.target
      let l := (if kind = 1 then v.tilth else v.hbm).filter (fun k => decide (c.u64 8 ≤ k * g))
      let e := (extents l).take 253
      leBytes 4 e.length ++ zeros 4 ++ e.flatMap (fun p => leBytes 8 (p.1 * g) ++ leBytes 8 (p.2 * g)))

/-- MEM_LAYOUT_QUERY (R356). -/
def execMemLayoutQuery (f : FuncId) (s : State) : Out := s.perform f 0x0900 memLayoutQueryPlan
/-- MEM_LAYOUT_SET (R341). -/
def execMemLayoutSet (f : FuncId) (s : State) : Out := s.perform f 0x0901 memLayoutSetPlan
/-- SHARE_SCRUB (R348). -/
def execShareScrub (f : FuncId) (s : State) : Out := s.perform f 0x0920 shareScrubPlan
/-- SCRUB_SET (R346). -/
def execScrubSet (f : FuncId) (s : State) : Out := s.perform f 0x0930 scrubSetPlan
/-- SCRUB_QUERY (R356). -/
def execScrubQuery (f : FuncId) (s : State) : Out := s.perform f 0x0931 scrubQueryPlan
/-- GRANULE_GRANT (R378). -/
def execGranuleGrant (f : FuncId) (s : State) : Out := s.perform f 0x0910 granuleGrantPlan
/-- GRANULE_REVOKE (R378). -/
def execGranuleRevoke (f : FuncId) (s : State) : Out := s.perform f 0x0911 granuleRevokePlan
/-- GRANULE_QUERY (R385). -/
def execGranuleQuery (f : FuncId) (s : State) : Out := s.perform f 0x0912 granuleQueryPlan

end Sys2Proof.Machine
end

