-- ==== Sys2Proof/Machine/FuncCmds.lean ====
section
/-! DEFINITION. Machine/FuncCmds.lean: the commands of the 0x01xx range (R373 to R385). -/

namespace Sys2Proof.Machine

/-- STATE of FUNC_QUERY (R385). -/
def funcStateCode : FuncState → Nat
  | .disabled => 0
  | .unprovisioned => 1
  | .active => 2
  | .fenced => 3
  | .cleaning => 4
  | .destroying => 5

/-- The states in which a function is fenced (R375). -/
def fencedStates : List FuncState := [.fenced, .cleaning, .destroying]

/-- FUNC_QUERY: any function for itself (R385). -/
def funcQueryPlan (c : Cmd) (s : State) : Plan :=
  let f := c.target
  queryPlan false 8
    (targetChecks c s (.disabled :: fencedStates) ++ [checkOn 4 rcDenied [0] (c.f != s.manager && f != c.f)] ++ reserved c 2 6)
    (fun st =>
      let v := st.func f
      leBytes 1 (funcStateCode v.state) ++ leBytes 1 (b2n v.retain) ++ leBytes 1 (b2n (f == st.manager)) ++ zeros 1 ++ leBytes 4 v.resets ++
      (List.range 16).flatMap (fun k => leBytes 8 (st.shareOf f k) ++ leBytes 8 (st.used f k)))

/-- ATTACH_MS as a field: 0 stands for the default of 1,000 (R385). -/
def attachField (n : Nat) : Nat := if n = 0 then 1000 else n

/-- The checks of POLICY and ATTACH_MS (R385). -/
def policyChecks (c : Cmd) : List Check :=
  [argCheck 2 (decide (c.u8 2 > 1))] ++ reserved c 3 1 ++ [argCheck 4 (c.u32 4 != 0 && (decide (c.u32 4 < 10) || decide (c.u32 4 > 60000)))]

/-- FUNC_CREATE: UNPROVISIONED becomes ACTIVE, every share 0 but VECTORS 1 (R375, R385). -/
def funcCreatePlan (c : Cmd) (s : State) : Plan :=
  let f := c.target
  setPlan true 8
    (targetChecks c s [] ++ [checkOn 5 rcBadState [0] ((s.func f).state != .unprovisioned)] ++ policyChecks c)
    (fun st => (st.clearShares f).modFunc f (fun v => { v with
      state := .active, retain := c.u8 2 == 1, attachMs := attachField (c.u32 4) }))

/-- FUNC_DESTROY: long (R384, R385). -/
def funcDestroyPlan (c : Cmd) (s : State) : Plan :=
  let f := c.target
  let st0 := (s.func f).state
  ⟨true, 8,
   targetChecks c s fencedStates ++ reserved c 2 6 ++
   [checkOn 5 rcBadState [0] (f == s.manager || !([FuncState.active, .fenced, .cleaning].contains st0))],
   fun st => (st.destroyFunc f, .long (.funcDestroy f) true)⟩

/-- The module total of a counted resource; VECTORS per link (R376). -/
def State.total (s : State) : Nat → Nat
  | 3 => 16777215
  | 4 => 65536
  | 5 => 262144
  | 6 => 65536
  | 7 => s.mem.layout.windrowMib * 32768
  | 8 => 1048575
  | 9 => 1048576
  | 10 => 65536
  | 11 => 16384
  | 12 => 65536
  | 13 => s.mem.layout.slots
  | 14 => 4096
  | 15 => 131072
  | _ => 0

/-- The shares of a counted resource that other functions have: of the module, or for VECTORS of the link. -/
def State.othersHave (s : State) (f : FuncId) (code : Nat) : Nat :=
  (((if code = 14 then funcsOfLink (linkOf f) else allFuncs).filter (fun g => g != f)).map (fun g => s.shareOf g code)).sum

/-- A furrow mask names a furrow of another function (R376). -/
def State.furrowsTaken (s : State) (f : FuncId) (mask : Nat) : Bool :=
  allFuncs.any (fun g => g != f && (s.func g).furrows &&& BitVec.ofNat 40 mask != 0)

/-- FUNC_SHARE_SET (R376, R377, R381, R385). -/
def funcShareSetPlan (c : Cmd) (s : State) : Plan :=
  let f := c.target
  let code := c.u16 2
  let v := c.u64 8
  let st0 := (s.func f).state
  let vecMax := if isVf f then 64 else 2048
  let below := if code = 2 then (s.used f 2) &&& (v ^^^ (s.used f 2 ||| v)) != 0 else code != 14 && decide (v < s.used f code)
  ⟨true, 16,
   targetChecks c s [.fenced, .cleaning] ++ [argCheck 2 (decide (code < 2) || decide (code > 15))] ++ reserved c 4 4 ++
   [argCheckOn 8 [2] (code == 2 && decide (v ≥ 2 ^ 40)), argCheckOn 8 [2] (code == 7 && v % 1024 != 0),
    argCheckOn 8 [0, 2] (code == 14 && (decide (v < 1) || decide (v > vecMax))),
    checkOn 5 rcBadState [0, 2, 8] below,
    checkOn 5 rcBadState [0, 2] (code == 14 && !([FuncState.unprovisioned, .fenced, .cleaning].contains st0)),
    checkOn 8 rcNoResource [0, 2, 8] (if code = 2 then s.furrowsTaken f v else decide (s.othersHave f code + v > s.total code))],
   fun st =>
    let old := st.shareOf f code
    let s1 := if code = 2 then st.modFunc f (fun w => { w with furrows := BitVec.ofNat 40 v }) else st.setShare f code v
    ((if old = v then s1 else s1.shareChanged f code old v), .answer (Reply.ok []))⟩

/-- FUNC_ATTACH (R375, R382, R385). -/
def funcAttachPlan (c : Cmd) (s : State) : Plan :=
  let f := c.target
  let v := s.func f
  ⟨true, 8,
   targetChecks c s fencedStates ++ reserved c 2 6 ++ [checkOn 5 rcBadState [0] (v.state != .fenced || v.configPending)],
   fun st => (st.attach f, .answer (Reply.ok (leBytes 4 v.resets ++ zeros 4)))⟩

/-- MANAGER_TRANSFER: to an ACTIVE physical function (R373). -/
def managerTransferPlan (c : Cmd) (s : State) : Plan :=
  let f := c.target
  setPlan true 8
    (targetChecks c s [.disabled] ++ reserved c 2 6 ++ [argCheck 0 (isVf f), argCheckOn 0 [0] ((s.func f).state != .active)])
    (fun st => { st with manager := f })

/-- FUNC_POLICY_SET (R385). -/
def funcPolicySetPlan (c : Cmd) (s : State) : Plan :=
  let f := c.target
  setPlan true 8
    (targetChecks c s [] ++ [checkOn 5 rcBadState [0] ((s.func f).state != .active)] ++ policyChecks c)
    (fun st => st.modFunc f (fun v => { v with retain := c.u8 2 == 1, attachMs := attachField (c.u32 4) }))

/-- FUNC_QUERY (R385). -/
def execFuncQuery (f : FuncId) (s : State) : Out := s.perform f 0x0100 funcQueryPlan
/-- FUNC_CREATE (R375). -/
def execFuncCreate (f : FuncId) (s : State) : Out := s.perform f 0x0101 funcCreatePlan
/-- FUNC_DESTROY (R384). -/
def execFuncDestroy (f : FuncId) (s : State) : Out := s.perform f 0x0102 funcDestroyPlan
/-- FUNC_SHARE_SET (R377). -/
def execFuncShareSet (f : FuncId) (s : State) : Out := s.perform f 0x0103 funcShareSetPlan
/-- FUNC_ATTACH (R375). -/
def execFuncAttach (f : FuncId) (s : State) : Out := s.perform f 0x0104 funcAttachPlan
/-- MANAGER_TRANSFER (R373). -/
def execManagerTransfer (f : FuncId) (s : State) : Out := s.perform f 0x0105 managerTransferPlan
/-- FUNC_POLICY_SET (R385). -/
def execFuncPolicySet (f : FuncId) (s : State) : Out := s.perform f 0x0106 funcPolicySetPlan

end Sys2Proof.Machine
end

