-- ==== Sys2Proof/Machine/InfoCmds.lean ====
section
/-! DEFINITION. Machine/InfoCmds.lean: the module information commands (R55, R56) and undefined opcodes (R45). -/

namespace Sys2Proof.Machine

/-- NOP: does nothing and answers OK (R55). -/
def nopPlan (_c : Cmd) (_s : State) : Plan := setPlan false 0 [] id

/-- Tines in service: 10,240 less those lost and the cores a skipped test made fallow; a core with fewer than 8 is
fallow as a whole (R56, R389, R406). -/
def State.coreTines (s : State) (core : Nat) : Nat :=
  if s.tines.skipped.contains (core / 16) then 0
  else
    let n := 16 - tgetD s.tines.lost core 0
    if n < 8 then 0 else n

/-- ACTIVE_TINES (R56). -/
def State.activeTines (s : State) : Nat :=
  10240 - ((s.tines.skipped.length * 256) + ((s.tines.lost.filter (fun c => !s.tines.skipped.contains (c.1 / 16))).map
    (fun c => 16 - s.coreTines c.1)).sum)

/-- FW_VERSION of the running image (R56). -/
def State.fwVersion (s : State) : Word32 := if s.image = 0 then s.mram.slot0.fwVersion else s.mram.slot1.fwVersion

/-- The 64-byte response of MODULE_INFO (R56). -/
def moduleInfoBytes (c : Cmd) (s : State) : Bytes :=
  ascii "PDK-7440" ++ leBytes 1 0xB1 ++ leBytes 1 s.image ++ leBytes 2 c.f.val ++ leBytes 4 s.fwVersion.toNat ++
  (List.finRange 16).map Config.serial ++
  leBytes 4 (b2n (c.f == s.manager) + 2 * b2n (s.fw == .safeMode) + 4 * b2n s.degraded + 8 * b2n s.fallow) ++
  leBytes 2 s.restartGen.toNat ++ zeros 2 ++ leBytes 4 s.activeTines ++ leBytes 4 s.hbmGib ++ zeros 16

/-- MODULE_INFO (R56). -/
def moduleInfoPlan (c : Cmd) (_s : State) : Plan := queryPlan false 0 [] (moduleInfoBytes c)

/-- The opcodes the manual defines, 0x0B80 to 0x0BFF apart (R53, R471). -/
def definedOpcodes : List Nat :=
  [0x0000, 0x0001] ++ lrange 0x0100 7 ++ lrange 0x0200 4 ++ [0x0210, 0x0220, 0x0221] ++
  lrange 0x0300 5 ++ lrange 0x0310 3 ++ lrange 0x0320 5 ++ lrange 0x0330 5 ++
  [0x0400, 0x0401, 0x0410, 0x0411, 0x0420, 0x0421] ++
  [0x0500, 0x0501] ++ lrange 0x0510 4 ++ [0x0520, 0x0521] ++ lrange 0x0530 3 ++ [0x0540, 0x0541] ++
  lrange 0x0600 6 ++ lrange 0x0610 3 ++ lrange 0x0620 3 ++ lrange 0x0630 4 ++
  lrange 0x0700 4 ++ [0x0710] ++ lrange 0x0800 4 ++ [0x0810] ++
  [0x0900, 0x0901] ++ lrange 0x0910 3 ++ [0x0920, 0x0930, 0x0931] ++ lrange 0x0A00 3 ++
  lrange 0x0B00 5 ++ lrange 0x0B10 3 ++ [0x0B20, 0x0B21] ++ lrange 0x0B30 3 ++
  [0x0C00] ++ lrange 0x0C10 4 ++ [0x0C20, 0x0C30] ++ lrange 0x0C40 3 ++ lrange 0x0C50 3

/-- Whether an opcode is defined (R45 order 3, R471). -/
def opcodeDefined (op : Nat) : Bool := definedOpcodes.contains op || (decide (0x0B80 ≤ op) && decide (op < 0x0C00))

/-- Firmware takes a command whose opcode is not defined: header faults and FENCED come first, then BAD_OPCODE (R45). -/
def State.runUndefined (s : State) (f : FuncId) : State :=
  let c := s.cmd f
  if !s.canTake f || opcodeDefined c.opcode then s
  else
    let s1 := s.take f
    let checks := headerChecks c ++
      [plainCheck 2 rcFenced (s.func f).state.isFenced,
       plainCheck 2 rcFenced (c.behalf && (s.func c.obj).state.isFenced)]
    match firstFailing checks with
    | some k => s1.answer f ⟨k.code, k.detail, k.body⟩
    | none => s1.answer f (Reply.refuse rcBadOpcode 0)

/-- NOP (R55). -/
def execNop (f : FuncId) (s : State) : Out := s.perform f 0x0000 nopPlan

/-- MODULE_INFO (R56). -/
def execModuleInfo (f : FuncId) (s : State) : Out := s.perform f 0x0001 moduleInfoPlan

/-- A command whose opcode is not defined is answered BAD_OPCODE (R45). -/
def execUndefinedOpcode (f : FuncId) (s : State) : Out := next (s.runUndefined f).settle

end Sys2Proof.Machine
end

