-- ==== Sys2Proof/Machine/DrillCmds.lean ====
section
/-! DEFINITION. Machine/DrillCmds.lean: the commands of the 0x08xx range: the program image (R314, R315), bindings (R317), the fit
check (R318 to R320), loading and unloading (R316, R327, R333, R334). -/

namespace Sys2Proof.Machine

/-! ### The image (R314, R315) -/

/-- The image a DRILL_LOAD names: read from module memory, or as the host's memory gave it; whether a block could not be read. -/
def State.loadImage (s : State) (c : Cmd) (img : Bytes) : Bytes × Bool :=
  let n := c.u32 4
  match s.region (BitVec.ofNat 32 (c.u32 0)) with
  | none => (fit n img, false)
  | some r =>
    if r.kind = RegionKind.module then
      let d := s.readPieces r ((Link.reset.resolve (keyIndex (BitVec.ofNat 32 (c.u32 0))) r false 64 (c.u64 8) n) |> fun x => match x with
        | .ok l => l
        | _ => []) []
      (fit n (d.2.1.flatMap (fun p => p.bytes)), d.2.2)
    else (fit n img, false)

/-- The section table: kind, offset, length (R314). -/
def imageTable (img : Bytes) : List (Nat × Nat × Nat) :=
  (List.range (leAt img 48 2)).map (fun i => (leAt img (64 + 16 * i) 1, leAt img (68 + 16 * i) 4, leAt img (72 + 16 * i) 8))

/-- The least of the offsets of bad bytes. -/
def leastBad (l : List (Bool × Nat)) : Option Nat :=
  (l.filter (fun p => p.1)).foldl (fun b p => match b with | some k => some (min k p.2) | none => some p.2) none

/-- The image offset of the first bad byte, if there is one (R315). -/
def imageError (img : Bytes) (stochasticAt : Option Nat) (unread : Bool) : Option Nat :=
  let t := imageTable img
  let n := leAt img 48 2
  let kinds := fun (k : Nat) => (List.range t.length).filter (fun i => (t.getD i (0, 0, 0)).1 == k)
  let magic := ascii "DRIL"
  leastBad
    ([(unread, 0)] ++ (List.range 4).map (fun i => (img.getD i 0 != magic.getD i 0, i)) ++
     [(leAt img 4 2 != 1, 4), (outside (leAt img 8 1) 1 40, 8), (outside (leAt img 9 1) 1 16, 9), (outside (leAt img 10 1) 1 16, 10),
      (outside n 1 64, 48), (crc64 (overlay img 56 (zeros 8)) != leAt img 56 8, 56)] ++
     (if n > 64 then [] else (List.range t.length).map (fun i =>
        let e := t.getD i (0, 0, 0)
        (decide (e.2.1 + e.2.2 > img.length), 64 + 16 * i + 4))) ++
     (if n > 64 then [] else [((kinds 1).length == 0 || (kinds 6).length == 0, 48),
        (decide ((kinds 1).length > 1), 64 + 16 * (kinds 1).getD 1 0), (decide ((kinds 6).length > 1), 64 + 16 * (kinds 6).getD 1 0)]) ++
     [(stochasticAt.isSome, stochasticAt.getD 0)])

/-- Total length of the sections of a kind. -/
def sectionLen (img : Bytes) (kind : Nat) : Nat := ((imageSections img kind).map (fun q => q.2)).sum

/-- The bytes of the sections of a kind, in order. -/
def sectionBytes (img : Bytes) (kind : Nat) : Bytes := (imageSections img kind).flatMap (fun q => (img.drop q.1).take q.2)

/-- The declared inputs or outputs: kind and bytes, in order (R314). -/
def imageIo (img : Bytes) (dir : Nat) : List (Nat × Nat) :=
  let q := (imageSections img 6).headD (0, 0)
  ((List.range (min 32 (q.2 / 8))).filter (fun i => leAt img (q.1 + 8 * i) 1 == dir)).map (fun i =>
    (leAt img (q.1 + 8 * i + 1) 1, leAt img (q.1 + 8 * i + 4) 4))

/-- A stream descriptor that no program of the function may have: it reaches bytes outside the function's shares, reserved memory or a
sealed region (R338, R352, R355). The program's own storage its streams name by an offset. -/
def State.descBad (s : State) (f : FuncId) (d : StreamDesc) : Bool :=
  !s.inShares f d.addr d.len || s.mem.layout.touchesReserved d.addr d.len || s.sealedAt d.addr d.len

/-- The image offset of the first stream descriptor that is refused (R355): the refusal is that of a bad image, DESIGN CHOICE (log entry
156). -/
def State.descError (s : State) (f : FuncId) (l : List StreamDesc) : Option Nat := leastBad (l.map (fun d => (s.descBad f d, d.imageOff)))

/-! ### Bindings (R317) -/

/-- Binding `i` of a DRILL_LOAD, with the BYTES that its declaration gives. -/
def cmdBinding (c : Cmd) (img : Bytes) (i : Nat) : Binding :=
  let at_ := 56 + 24 * i
  let out := bit (c.u8 at_) 7
  let k := bits (c.u8 at_) 3 0
  ⟨out, k, c.u8 (at_ + 1), c.u32 (at_ + 4), c.u64 (at_ + 8), c.u64 (at_ + 16), ((imageIo img (b2n out)).getD k (0, 0)).2⟩

/-- The bindings of a DRILL_LOAD. -/
def cmdBindings (c : Cmd) (img : Bytes) : List Binding := (List.range (c.u8 30)).map (cmdBinding c img)

/-- The checks of one binding entry (R317). -/
def bindingChecks (c : Cmd) (s : State) (img : Bytes) (i : Nat) : List Check :=
  let at_ := 56 + 24 * i
  let b := cmdBinding c img i
  let io := imageIo img (b2n b.output)
  let twice := (List.range i).any (fun k => c.u8 (56 + 24 * k) == c.u8 at_)
  let key := BitVec.ofNat 32 b.a
  let right := if b.output then accLocalWrite else accLocalRead
  let port : LPort := ⟨b.a % 256 % 32, by omega⟩
  let noPort := decide (b.a % 256 ≥ 32) || !s.portExists port
  let region := b.kind == 0
  let frame := b.kind == 1
  [argCheck at_ (bits (c.u8 at_) 6 4 != 0 || decide (b.index ≥ io.length) || twice),
   argCheckOn (at_ + 1) [at_] (b.kind != (io.getD b.index (3, 0)).1 || decide (b.kind > 2)),
   argCheckOn (at_ + 4) [at_, at_ + 1] (
     if region then (match s.region key with | some r => !r.grants right | none => true)
     else if frame then noPort || decide (b.a / (if b.output then 4096 else 256) ≠ 0)
     else if b.output then decide (b.a ≥ 65536) || (tget (s.func c.obj).trigs b.a).isNone
     else b.a != 0),
   checkOn 4 rcDenied [at_, at_ + 1, at_ + 4] (region && (match s.region key with | some r => r.func != c.obj | none => false)),
   argCheckOn (at_ + 8) [at_, at_ + 1, at_ + 4] (
     if region then (match s.region key with | some r => decide (b.b + b.bytes > r.length) | none => true)
     else if frame then
       (if b.output then decide (b.b + b.c > sectionLen img 5)
        else outside (bits b.b 39 32) 1 16 || decide (b.b / 2 ^ 40 ≠ 0))
     else if b.output then decide (b.b > 1) else b.b != 0),
   argCheckOn (at_ + 16) [at_, at_ + 1] (if frame && b.output then outside b.c 14 128 else b.c != 0),
   busyOn [at_, at_ + 1, at_ + 4] (frame && s.portHeld port)] ++ reserved c (at_ + 2) 2

/-- A long command holds what a load of a function would bind: a TINE_RESET of its furrows, or a command over memory of its shares
(R43). -/
def State.loadHeld (s : State) (f : FuncId) : Bool :=
  s.tinesHeld (s.func f).furrows || (s.func f).hbm.any (fun k => s.rangeHeld (k * hbmGranule) hbmGranule) ||
  (s.func f).tilth.any (fun k => s.rangeHeld (k * tilthGranule) tilthGranule)

/-! ### The fit check (R318, R319) -/

/-- Cores of a furrow with at least `tines` tines in service. -/
def State.coresWith (s : State) (fur tines : Nat) : Nat := ((List.range 16).filter (fun k => decide (s.coreTines (fur * 16 + k) ≥ tines))).length

/-- The unused granules of a function's Tilth share in a furrow's slice, rising. -/
def State.freeTilthIn (s : State) (f : FuncId) (fur : Nat) : List Nat :=
  (s.func f).tilth.filter (fun k => sliceOf (k * tilthGranule) == fur && !s.granuleInUse (k * tilthGranule) tilthGranule &&
    !s.mem.fallow.contains k)

/-- The unused granules of a function's HBM share, rising. -/
def State.freeHbm (s : State) (f : FuncId) : List Nat :=
  (s.func f).hbm.filter (fun k => !s.granuleInUse (k * hbmGranule) hbmGranule && !s.mem.hbmFallow.contains k)

/-- Free Tilth for a furrow: of the share, or of the inline-model store (R319). -/
def State.freeTilth (s : State) (f : FuncId) (det : Bool) (fur : Nat) : Nat :=
  if det then s.mem.layout.inlineMib.getD fur 0 * 0x100000 else (s.freeTilthIn f fur).length * tilthGranule

/-- Where the inline-model store of a furrow begins (R340). -/
def Layout.inlineBase (l : Layout) (fur : Nat) : Nat := tilthBase + fur * sliceSpan + (sliceBytes - l.tilthReserved fur)

/-- The choice of R318: the furrows chosen, and the furrows passed over for want of cores or Tilth. -/
structure Choice where
  chosen : List Nat
  noCores : List Nat
  noTilth : List Nat

/-- One furrow of the loop of R318. -/
def State.choose (s : State) (f : FuncId) (img : Bytes) (ch : Choice) (fur : Nat) : Choice :=
  let fl := leAt img 6 2
  if ch.chosen.length ≥ leAt img 8 1 || bit (s.boundFurrows f) fur then ch
  else if bit fl 2 && !ch.chosen.isEmpty && dieOfFurrow fur != dieOfFurrow (ch.chosen.headD 0) then ch
  else if s.coresWith fur (leAt img 10 1) < leAt img 9 1 then { ch with noCores := ch.noCores ++ [fur] }
  else if s.freeTilth f (bit fl 0) fur < leAt img 24 8 then { ch with noTilth := ch.noTilth ++ [fur] }
  else { ch with chosen := ch.chosen ++ [fur] }

/-- The furrows of a load. -/
def State.chooseFurrows (s : State) (f : FuncId) (img : Bytes) : Choice :=
  ((List.range 40).filter (fun k => bit (s.func f).furrows.toNat k)).foldl (s.choose f img) ⟨[], [], []⟩

/-- The pulse inputs a set of bindings declares. -/
def pulseInputs (l : List Binding) : List Nat := (l.filter (fun b => !b.output && b.kind == 2)).map (fun b => b.index)

/-- The lowest INPUT_BASE whose numbers are free (R317). -/
def State.inputBaseFor (s : State) (f : FuncId) (l : List Binding) : Option Nat :=
  (List.range 4096).find? (fun base => (pulseInputs l).all (fun i => decide (base + i < 4096) && !thas (s.func f).pulses (base + i)))

/-- The failing rows of R319: code, scope, needed, available. -/
def State.shortfalls (s : State) (f : FuncId) (img : Bytes) (l : List Binding) : List (Nat × Nat × Nat × Nat) :=
  let all := 0xFFFFFFFF
  let h := fun (off w : Nat) => leAt img off w
  let det := bit (h 6 2) 0
  let ch := s.chooseFurrows f img
  let short := decide (ch.chosen.length < h 8 1)
  let at_ := fun (fur : Nat) => fur * 65536 + 0xFFFF
  let freeHbm := (s.freeHbm f).length * hbmGranule
  let hbm := h 32 8 + sectionLen img 4
  let counters := s.share f 10 - s.used f 10
  let pulses := (pulseInputs l).length
  let frames := l.filter (fun b => b.output && b.kind == 1)
  let row := fun (bad : Bool) (code scope need have_ : Nat) => if bad then [(code, scope, need, have_)] else []
  row short 1 all (h 8 1) ch.chosen.length ++
  (if short then ch.noCores.map (fun fur => (2, at_ fur, h 9 1, s.coresWith fur (h 10 1))) else []) ++
  row (decide (h 12 4 + 1024 > 32768)) 3 all (h 12 4 + 1024) 32768 ++
  row (decide (h 16 4 > 65536)) 4 all (h 16 4) 65536 ++
  (if short then ch.noTilth.map (fun fur => (5, at_ fur, h 24 8, s.freeTilth f det fur)) else []) ++
  row (decide (hbm > freeHbm)) 6 all hbm freeHbm ++
  row (decide (h 40 2 > counters)) 7 all (h 40 2) counters ++
  row (decide (h 11 1 > 16)) 8 all (h 11 1) 16 ++
  row (det && decide (h 20 4 > h 44 4 * 800)) 9 all (h 20 4) (h 44 4 * 800) ++
  frames.flatMap (fun b =>
    let m := (s.port ⟨b.a % 32, by omega⟩).maxFrame
    row (decide (b.c + b.bytes + 4 > m)) 10 all (b.c + b.bytes + 4) m) ++
  row (s.inputBaseFor f l).isNone 11 all pulses (4096 - (s.func f).pulses.length) ++
  row (decide (sectionLen img 2 > h 12 4 * h 10 1 * h 9 1 * h 8 1)) 12 all (sectionLen img 2) (h 12 4 * h 10 1 * h 9 1 * h 8 1) ++
  row (decide (sectionLen img 3 > h 24 8 * h 8 1)) 12 all (sectionLen img 3) (h 24 8 * h 8 1)

/-- The shortfall report (R320). -/
def shortReport (l : List (Nat × Nat × Nat × Nat)) : Bytes :=
  leBytes 4 l.length ++ zeros 4 ++ l.flatMap (fun e => leBytes 2 e.1 ++ zeros 2 ++ leBytes 4 e.2.1 ++ leBytes 8 e.2.2.1 ++ leBytes 8 e.2.2.2)

/-! ### Loading (R316, R327, R333) -/

/-- The Tilth and HBM storage of a load: (address, length), Tilth by furrow first. -/
def State.storageFor (s : State) (f : FuncId) (img : Bytes) (furrows : List Nat) : List (Nat × Nat) :=
  let det := bit (leAt img 6 2) 0
  let tb := leAt img 24 8
  let tilth := if tb = 0 then [] else furrows.flatMap (fun fur =>
    if det then [(s.mem.layout.inlineBase fur, tb)]
    else ((s.freeTilthIn f fur).take (ceilDiv tb tilthGranule)).map (fun k => (k * tilthGranule, tilthGranule)))
  let hbm := leAt img 32 8 + sectionLen img 4
  tilth ++ ((s.freeHbm f).take (ceilDiv hbm hbmGranule)).map (fun k => (k * hbmGranule, hbmGranule))

/-- The first `n` bytes of a list of runs. -/
def takeRuns : Nat → List (Nat × Nat) → List (Nat × Nat)
  | _, [] => []
  | n, (a, k) :: t => if n = 0 then [] else (a, min n k) :: takeRuns (n - k) t

/-- Where the Tilth and HBM weights lie (R327): consecutively over the furrows' Tilth, then at the start of the HBM storage. -/
def State.weightRuns (s : State) (f : FuncId) (img : Bytes) (furrows : List Nat) : List (Nat × Nat) × List (Nat × Nat) :=
  let st := s.storageFor f img furrows
  let tb := leAt img 24 8
  let per := fun (fur : Nat) => takeRuns tb (st.filter (fun q => inTilth q.1 && sliceOf q.1 == fur))
  (takeRuns (sectionLen img 3) (furrows.flatMap per), takeRuns (sectionLen img 4) (st.filter (fun q => !inTilth q.1)))

/-- Die crossings of a program's frames (R331). -/
def dieCrossings (l : List Binding) (furrows : List Nat) : Nat :=
  let die := fun (b : Binding) => b.a % 32 / 16
  let first := dieOfFurrow (furrows.headD 0)
  let last := dieOfFurrow (furrows.getLastD 0)
  b2n (l.any (fun b => !b.output && b.kind == 1 && die b != first)) + b2n (l.any (fun b => b.output && b.kind == 1 && die b != last))

/-- The cores that a load uses in a furrow: its lowest ones with enough tines, DESIGN CHOICE (R318, log entry 161). -/
def State.coresFor (s : State) (img : Bytes) (fur : Nat) : List Nat :=
  (((lrange (fur * 16) 16).filter (fun k => decide (s.coreTines k ≥ leAt img 10 1))).take (leAt img 9 1))

/-- The program a DRILL_LOAD makes. -/
def State.makeProg (s : State) (c : Cmd) (img : Bytes) (descs : List StreamDesc) (base : Nat) (key : Word32) : Prog :=
  let h := fun (off w : Nat) => leAt img off w
  let fs := (s.chooseFurrows c.obj img).chosen
  let l := cmdBindings c img
  let det := bit (h 6 2) 0
  { func := c.obj, image := img, deterministic := det, keepWarm := bit (h 6 2) 1
    cores := h 9 1, tines := h 10 1, furrows := fs, coreList := fs.flatMap (s.coresFor img), descs := descs, counters := h 40 2, rnd := h 42 1, sat := h 43 1
    schedule := h 44 4, streams := h 11 1, tilthBytes := h 24 8, hbmBytes := h 32 8
    storage := s.storageFor c.obj img fs, bindings := l
    cq := ringOpt (c.u32 16), seed := BitVec.ofNat 32 (c.u32 20), startKind := c.u8 24, startInput := c.u8 25, startCounter := c.u16 26
    errSource := c.u16 28, threshold := c.u64 32, step := c.u64 40, inputBase := base, weightsKey := key
    latencyNs := if det then 290 + ceilDiv (h 44 4 * 4) 5 + 20 * dieCrossings l fs else 0
    state := .ready, run := 0, runs := 0, lastFlags := 0, detLate := 0, overrun := 0, short := 0, badInput := 0, pulseLost := 0
    pending := 0, frames := [], spoil := 0, warmHold := 1000000, current := none
    glean := ⟨0, 0, 0, 0, 0, 0, 0, 0⟩, waitSince := s.time, loading := true, unloading := false }

/-- The region of a program's weights, if it has any in Tilth or HBM (R327): its key, and the machine with it. -/
def State.weightsRegion (s : State) (f : FuncId) (n : Nat) (img : Bytes) (furrows : List Nat) : Word32 × State :=
  let w := s.weightRuns f img furrows
  let len := sectionLen img 3 + sectionLen img 4
  if len = 0 then (0, s)
  else match s.regionSeries.take 1048576 with
    | none => (0, s)
    | some (slot, q) =>
      let gen := tgetD s.gens slot 0
      let r : Region :=
        { gen := gen, func := f, kind := .module, viaRoot := false, access := BitVec.ofNat 16 (2 ^ accLocalRead + 2 ^ accLocalWrite), pasid := 0
          base := 0, length := len, mirrorAddr := 0, mirrorEntries := 0, mirrorPage := 0, remap := [], sealKeys := none, counters := []
          weights := some n, extents := w.1 ++ w.2 }
      (regionKey slot gen, { s with regions := tset s.regions slot r, regionSeries := q })

/-- A DRILL_LOAD passes its checks: furrows, storage, numbers and the weights region are bound, and loading begins. -/
def State.beginLoad (s : State) (c : Cmd) (img : Bytes) (descs : List StreamDesc) : State × Verdict :=
  match s.progSeries.take 0xFFFFFFFF, s.inputBaseFor c.obj (cmdBindings c img) with
  | some (n, q), some base =>
    let fs := (s.chooseFurrows c.obj img).chosen
    let (key, s1) := s.weightsRegion c.obj n img fs
    let p := s.makeProg c img descs base key
    let s2 := s1.modFunc c.obj (fun v => { v with
      pulses := (pulseInputs p.bindings).foldl (fun t i => tset t (base + i) (n, i)) v.pulses })
    ({ s2 with progSeries := q, progs := tset s2.progs n p }, .long (.drillLoad n) false)
  | _, _ => (s, .answer (Reply.refuse rcNoResource 0))

/-- The clocks of a DETERMINISTIC program's furrows return to 1.25 GHz, but for thermal throttling and the third stage of the governor
(R294, R330). -/
def State.holdClocks (s : State) (p : Prog) : State :=
  if !p.deterministic || s.power.stage == 3 then s
  else { s with tines := p.furrows.foldl (fun t f => t.setClock f (1000 - tgetD s.power.throttled f 0)) s.tines }

/-- The end of DRILL_LOAD: weights and code are in place, keep-warm furrows are ramped; the answer, DEGRADED_OK where a core bound
has fewer than 16 tines (R316, R327, R330, R333, R397). -/
def State.drillLoaded (s : State) (n : Nat) : State × Reply :=
  match s.prog n with
  | none => (s, Reply.refuse rcNoResource 0)
  | some p =>
    let w : List (Nat × Nat) := match s.region p.weightsKey with
      | some r => r.extents
      | none => []
    let s1 := s.writeRuns w (sectionBytes p.image 3 ++ sectionBytes p.image 4)
    let s2 := forEach p.tineList s1 (fun st t => st.loadStore t p.lsBytes)
    let s3 := if p.deterministic || p.keepWarm then s2.warm p.furrows else s2
    let s4 := (s3.holdClocks p).modProg n (fun q => { q with loading := false, waitSince := s.time })
    let body := leBytes 4 n ++ leBytes 4 p.weightsKey.toNat ++ leBytes 2 p.inputBase ++ zeros 2 ++
      leBytes 8 ((p.furrows.map (fun f => 2 ^ f)).sum) ++ leBytes 4 p.latencyNs ++ zeros 4
    let degr := p.coreList.any (fun k => decide (s.coreTines k < 16))
    (s4, if degr then ⟨rcDegradedOk, 2, body⟩ else Reply.ok body)

/-- A completion ring that a program may not use: absent, a work ring's (R324), or bound to time stamps (R253). -/
def State.runCqUnfit (s : State) (f : FuncId) (n : Nat) : Bool :=
  match s.cq f n with
  | none => true
  | some q => !q.tsPorts.isEmpty || (s.func f).rings.any (fun g => g.2.cq == some n)

/-- DRILL_LOAD (R316 to R320). -/
def drillLoadPlan (img0 : Bytes) (stoch : Option Nat) (descs : List StreamDesc) (c : Cmd) (s : State) : Plan :=
  let src := s.region (BitVec.ofNat 32 (c.u32 0))
  let d := s.loadImage c img0
  let img := d.1
  let bad := [imageError img stoch d.2, s.descError c.obj descs]
  let err := leastBad (bad.map (fun e => (e.isSome, e.getD 0)))
  let io := imageIo img 0
  let l := cmdBindings c img
  let short := s.shortfalls c.obj img l
  let startKind := c.u8 24
  let startBad := startKind != 1 && (io.getD (c.u8 25) (3, 0)).1 != (if startKind = 0 then 2 else 1)
  ⟨false, 56 + 24 * c.u8 30,
   ownedChecks s c 0 (src.map (fun r => r.func)) ++
   [argCheck 0 (match src with | some r => !r.grants accLocalRead | none => false), argCheck 4 (decide (c.u32 4 < 128)), argCheck 8 (c.u64 8 % 64 != 0),
    argCheckOn 8 [0, 4] (match src with | some r => decide (c.u64 8 + c.u32 4 > r.length) | none => false),
    argCheck 16 (c.u32 16 != noneId && s.runCqUnfit c.obj (c.u32 16)), argCheck 24 (decide (startKind > 2)),
    ⟨6, err.isSome, rcBadArg, 0xFFFF, [32, 36, 40], leBytes 8 (err.getD 0)⟩,
    ⟨6, startBad, rcBadArg, 57, [32, 36, 40, 56, 0xFFFF], []⟩,
    argCheckOn 26 [24] (startKind == 1 && (tget (s.func c.obj).trigs (c.u16 26)).isNone), argCheck 28 (badSource (c.u16 28)),
    ⟨6, decide (c.u8 30 ≠ io.length + (imageIo img 1).length), rcBadArg, 62, [32, 36, 40, 0xFFFF], []⟩,
    argCheckOn 40 [24] (startKind == 1 && outside (c.u64 40) 1 (2 ^ 32))] ++ reserved c 31 1 ++ reserved c 48 8 ++
   (List.range (c.u8 30)).flatMap (fun i => (bindingChecks c s img i).map (fun k => { k with deps := 32 :: 36 :: 40 :: 0xFFFF :: k.deps })) ++
   [⟨7, !short.isEmpty, rcDoesNotFit, 0, [32, 36, 40, 0xFFFF], shortReport short⟩,
    ⟨8, decide (0 < sectionLen img 3 + sectionLen img 4) && (decide (s.used c.obj 8 ≥ s.share c.obj 8) || (s.regionSeries.take 1048576).isNone),
      rcNoResource, 0, [32, 36, 40, 0xFFFF], []⟩,
    plainCheck 8 rcNoResource (decide (s.progs.length ≥ 256)), busyOn [] (s.loadHeld c.obj)],
   fun st => st.beginLoad c img descs⟩

/-- The answer of a CHECK_ONLY load that fits: FURROW_MASK alone (R320). -/
def drillDry (img0 : Bytes) (c : Cmd) (s : State) : Bytes :=
  zeros 12 ++ leBytes 8 (((s.chooseFurrows c.obj (s.loadImage c img0).1).chosen.map (fun f => 2 ^ f)).sum) ++ zeros 8

/-! ### The other commands (R334) -/

/-- The checks of a PROGRAM field. -/
def progChecks (c : Cmd) (s : State) (off : Nat) : List Check :=
  ownedChecks s c off ((s.prog (c.u32 off)).map (fun p => p.func)) ++ [busyOn [off] (s.progHeld (c.u32 off))]

/-- DRILL_UNLOAD: long; no more start events are taken (R334). -/
def drillUnloadPlan (c : Cmd) (s : State) : Plan :=
  ⟨false, 8, progChecks c s 0 ++ reserved c 4 4,
   fun st => (st.modProg (c.u32 0) (fun p => { p with unloading := true }), .long (.drillUnload (c.u32 0)) false)⟩

/-- STATE of DRILL_QUERY (R334). -/
def progStateCode : ProgState → Nat
  | .ready => 0
  | .running => 1
  | .disabled => 2
  | .failed => 3

/-- DRILL_QUERY (R334). -/
def drillQueryPlan (c : Cmd) (s : State) : Plan :=
  queryPlan false 8 (progChecks c s 0 ++ reserved c 4 4) (fun st => match st.prog (c.u32 0) with
    | none => []
    | some p => leBytes 1 (progStateCode p.state) ++ zeros 3 ++ leBytes 8 p.runs ++ leBytes 4 p.lastFlags.toNat ++ leBytes 4 p.detLate ++
        leBytes 4 p.overrun ++ leBytes 4 p.short ++ leBytes 4 p.badInput ++ leBytes 4 p.pulseLost)

/-- DRILL_CONTROL (R322, R332, R334): a FAILED program takes neither DISABLE nor ENABLE; WARM_HOLD is in ns (log entry 32). -/
def drillControlPlan (c : Cmd) (s : State) : Plan :=
  let op := c.u8 4
  setPlan false 16
    (progChecks c s 0 ++ [argCheck 4 (decide (op > 3))] ++ reserved c 5 3 ++
     [argCheckOn 8 [4] ((op == 2 && decide (c.u64 8 ≥ 2 ^ 32)) || (op == 3 && decide (c.u64 8 > 1000000000))),
      checkOn 5 rcBadState [0, 4] (decide (op < 2) && (match s.prog (c.u32 0) with | some p => p.state == .failed | none => false))])
    (fun st => st.modProg (c.u32 0) (fun p =>
      if op = 0 then { p with state := .disabled }
      else if op = 1 then { p with
        state := if p.state = .disabled then (if p.current.isSome then .running else .ready) else p.state
        waitSince := if p.state = .disabled then st.time else p.waitSince }
      else if op = 2 then { p with seed := BitVec.ofNat 32 (c.u64 8) }
      else { p with warmHold := c.u64 8 }))

/-- The function whose share holds a furrow (R376). -/
def State.furrowOwner (s : State) (fur : Nat) : Option FuncId := allFuncs.find? (fun f => bit (s.func f).furrows.toNat fur)

/-- FURROW_QUERY (R334). -/
def furrowQueryPlan (c : Cmd) (s : State) : Plan :=
  let fur := c.u8 0
  let owner := s.furrowOwner fur
  queryPlan false 8
    ([argCheck 0 (decide (fur > 39))] ++ reserved c 1 7 ++
     [checkOn 4 rcDenied [0] (c.f != s.manager && (match owner with | some f => f != c.f | none => false)),
      busyOn [0] (s.tinesHeld (BitVec.ofNat 40 (2 ^ fur)))])
    (fun st =>
      let tines := (List.range 16).map (fun k => st.coreTines (fur * 16 + k))
      leBytes 2 (match owner with | some f => f.val | none => 0xFFFF) ++ leBytes 1 (b2n (st.tines.warm.contains fur)) ++
      leBytes 1 (tines.filter (fun n => decide (n > 0))).length ++ leBytes 4 (match st.progAt fur with | some p => p.1 | none => noneId) ++
      leBytes 8 (match owner with | some f => st.freeTilth f false fur | none => 0) ++ tines.flatMap (leBytes 1))

/-- DRILL_LOAD (R316). -/
def execDrillLoad (f : FuncId) (img : Bytes) (code : ImageCode) (s : State) : Out :=
  next (s.runCommandC f 0x0800 (drillDry img) (drillLoadPlan img code.stochasticAt code.descs)).settle
/-- DRILL_UNLOAD (R334). -/
def execDrillUnload (f : FuncId) (s : State) : Out := s.perform f 0x0801 drillUnloadPlan
/-- DRILL_QUERY (R334). -/
def execDrillQuery (f : FuncId) (s : State) : Out := s.perform f 0x0802 drillQueryPlan
/-- DRILL_CONTROL (R334). -/
def execDrillControl (f : FuncId) (s : State) : Out := s.perform f 0x0803 drillControlPlan
/-- FURROW_QUERY (R334). -/
def execFurrowQuery (f : FuncId) (s : State) : Out := s.perform f 0x0810 furrowQueryPlan

end Sys2Proof.Machine
end

