-- ==== Sys2Proof/Machine/ObsCmds.lean ====
section
/-! DEFINITION. Machine/ObsCmds.lean: the commands of the 0x0Cxx range: module-wide counters, trace, fault queue, wait-for graph,
gleans and the global stop (R432 to R448). GLOBAL_RESUME stands in Machine/StopEvents.lean. -/

namespace Sys2Proof.Machine

/-! ### Module-wide counters (R432) -/

/-- Takes `n` free values. -/
def State.freshN : Nat → State → List Nat × State
  | 0, s => ([], s)
  | n + 1, s =>
    let d := s.fresh
    let r := State.freshN n d.2
    (d.1 :: r.1, r.2)

/-- The counters of a group (R432). Refresh stall time, which the manual gives no means to compute, is free (log entry 36). -/
def State.groupCounters (s : State) (group start : Nat) (use : List Nat) : List Nat :=
  let free := fun k => (Config.freeWord (use.getD k 0)).toNat
  let at_ := fun i => tgetD s.globals (group * 1024 + i) 0
  let b := s.fabric
  match group with
  | 0 => [0, 1].flatMap (fun d => [b.control.getD d 0, b.data.getD d 0, b.peak.getD d 0 * 65536 / linkBytes])
  | 1 => (List.range 16).map (fun i => if i % 4 = 3 then free (i / 4) else at_ i)
  | 2 => (List.range 4).map at_
  | 3 => [b.d2d.getD 0 0, b.d2d.getD 1 0]
  | 4 => (List.range 8).map at_
  | _ => (List.range (4 * min 126 (256 - start))).map (fun i => at_ (4 * start + i))

/-- A read of group 0 starts the measure of peak link occupancy anew (R432). -/
def State.peaksRead (s : State) (group : Nat) : State :=
  if group = 0 then { s with fabric := { s.fabric with peak := [0, 0] } } else s

/-- CNT_GLOBAL_READ (R432, R448). -/
def cntGlobalReadPlan (c : Cmd) (_s : State) : Plan :=
  ⟨true, 8,
   [argCheck 0 (decide (c.u8 0 > 5))] ++ reserved c 1 1 ++ [argCheckOn 2 [0] (decide (c.u8 0 = 5) && decide (c.u16 2 > 255))] ++ reserved c 4 4,
   fun st =>
    let d := State.freshN 4 st
    let l := st.groupCounters (c.u8 0) (c.u16 2) d.1
    (d.2.peaksRead (c.u8 0), .answer (Reply.ok (leBytes 4 l.length ++ zeros 4 ++ l.flatMap (fun v => leBytes 8 v))))⟩

/-! ### Trace (R433 to R437) -/

/-- The trace is ACTIVE or TRIGGERED. -/
def State.tracing (s : State) : Bool := s.trace.state == .active || s.trace.state == .triggered

/-- TRACE_CONFIG (R448). -/
def traceConfigPlan (c : Cmd) (s : State) : Plan :=
  setPlan true 16
    ([argCheck 0 (decide (c.u8 0 > 1)), argCheck 1 (decide (c.u8 1 > 100)), argCheck 2 (decide (c.u8 2 > 1))] ++ reserved c 3 1 ++
     [argCheck 8 (decide (c.u16 8 > 255) && c.u16 8 != 0xFFFF), argCheck 10 (decide (c.u8 10 > 15)), argCheck 11 (decide (c.u8 11 > 8)),
      plainCheck 5 rcBadState s.tracing, busyOn [] s.traceHeld])
    (fun st => { st with trace := { st.trace with
      wrap := c.u8 0 == 1, prePercent := c.u8 1, stopOnTrigger := c.u8 2 == 1, kindMask := BitVec.ofNat 32 (c.u32 4)
      func := c.u16 8, trigKind := c.u8 10, trigFaultClass := c.u8 11, trigObject := c.u32 12 } })

/-- TRACE_CONTROL START: every slot is emptied (R436). -/
def Trace.start (t : Trace) (now : Nat) : Trace :=
  { t with
    state := .active, slot0 := none, recs0 := [], recs1 := [], ignored := 0
    written := [0, 0], dropped := [0, 0], nextSlot := [1, 1], post := [0, 0], toMark := [0, 0], tokens := [4096, 4096], tokensAt := now }

/-- TRACE_CONTROL (R436, R448): an OP that R436 does not list for the state is BAD_STATE (log entry 37). -/
def traceControlPlan (c : Cmd) (s : State) : Plan :=
  let op := c.u8 0
  setPlan true 8
    ([argCheck 0 (decide (op > 2))] ++ reserved c 1 7 ++
     [checkOn 5 rcBadState [0] (op == 0 && s.tracing), checkOn 5 rcBadState [0] (op != 0 && s.trace.state == .idle),
      checkOn 8 rcNoResource [0] (op == 0 && s.mem.layout.traceMib == 0), busyOn [] s.traceHeld])
    (fun st =>
      if op = 0 then { st with trace := st.trace.start st.time }
      else if op = 1 then { st with trace := { st.trace with state := .stopped } }
      else st.traceTrigger 0 0 1)

/-- STATE of TRACE_QUERY (R448). -/
def traceStateCode : TraceState → Nat
  | .idle => 0
  | .active => 1
  | .triggered => 2
  | .stopped => 3

/-- TRACE_QUERY (R448). -/
def traceQueryPlan (_c : Cmd) (_s : State) : Plan :=
  queryPlan true 0 [] (fun s =>
    let t := s.trace
    leBytes 1 (traceStateCode t.state) ++ zeros 3 ++ leBytes 4 t.ignored ++
    [0, 1].flatMap (fun d => leBytes 8 (nth2 t.written d) ++ leBytes 8 (nth2 t.dropped d) ++ leBytes 4 (nth2 t.nextSlot d) ++ zeros 4))

/-- The 32 bytes of a trace record (R434). -/
def TraceRec.toBytes (r : TraceRec) : Bytes :=
  leBytes 8 r.time ++ leBytes 1 r.kind ++ leBytes 1 r.die ++ leBytes 2 r.func ++ leBytes 4 r.object ++ leBytes 4 r.other ++
  leBytes 8 r.value ++ leBytes 4 r.waitNs

/-- A die's records as TRACE_READ gives them: slot 0, cleared without a trigger, then the oldest first (R436, R448). -/
def Trace.readOut (t : Trace) (d : Nat) : List Bytes :=
  let l := t.recs d
  let n := nth2 t.nextSlot d
  let first := match t.slot0 with
    | some r => ({ r with die := d } : TraceRec).toBytes
    | none => zeros 32
  first :: ((l.filter (fun q => decide (n ≤ q.1))) ++ (l.filter (fun q => decide (q.1 < n)))).map (fun q => q.2.toBytes)

/-- The checks of a KEY, OFFSET and LENGTH that the module writes (R86, R448). -/
def outputChecks (c : Cmd) (s : State) (key off len : Nat) : List Check :=
  let r := s.region (BitVec.ofNat 32 (c.u32 key))
  [argCheck key (match r with | some g => !g.grants accLocalWrite | none => true),
   checkOn 4 rcDenied [key] (match r with | some g => g.func != c.obj | none => false),
   argCheckOn off [key, len] (match r with | some g => decide (c.u64 off + c.u64 len > g.length) | none => true)]

/-- TRACE_READ: long (R448). -/
def traceReadPlan (c : Cmd) (s : State) : Plan :=
  ⟨true, 24,
   [argCheck 0 (decide (c.u8 0 > 1))] ++ reserved c 1 3 ++ outputChecks c s 4 8 16 ++ [plainCheck 5 rcBadState s.tracing],
   fun st => (st, .long (.traceRead ⟨c.u8 0 % 2, by omega⟩ (c.u32 4) (c.u64 8) (c.u64 16)) false)⟩

/-- The work of TRACE_READ is done but for the write of its region, as many whole records as LENGTH takes; with that write the command
has committed (R42). -/
def State.traceOut (s : State) (f : FuncId) (die : DieId) (key off len : Nat) : State :=
  let l := (s.trace.readOut die.val).take (len / 32)
  let k := BitVec.ofNat 32 key
  let payload := leBytes 8 l.length
  match s.region k with
  | some r =>
    if l.isEmpty then s.answerLong f (Reply.ok payload)
    else (s.modMbx f (fun m => { m with long := some (.writing true payload, true) })).startWrite r.func k off l.flatten (.firmware f)
  | none => s.answerLong f (Reply.refuse rcBadState 0)

/-! ### Fault queue (R438, R439) -/

/-- The 32 bytes of a fault record (R439). -/
def FaultRec.toBytes (r : FaultRec) : Bytes :=
  leBytes 8 r.time ++ leBytes 4 r.seq ++ leBytes 1 r.cls ++ leBytes 1 r.code ++ leBytes 2 r.func ++ leBytes 4 r.object ++
  leBytes 4 r.detail ++ leBytes 8 r.address

/-- FAULT_READ: the oldest of the queue, which it removes, or the newest of the MRAM log (R448; log entry 38). -/
def faultReadPlan (c : Cmd) (_s : State) : Plan :=
  ⟨true, 8, [argCheck 0 (decide (c.u8 0 > 1))] ++ reserved c 1 7,
   fun st =>
    let log := st.mram.faultLog
    let l := if c.u8 0 = 0 then st.faults.take 124 else log.drop (log.length - 124)
    let s1 : State := if c.u8 0 = 0 then { st with faults := st.faults.drop 124 } else st
    (s1, .answer (Reply.ok (leBytes 4 l.length ++ zeros 4 ++
      (lrange 1 8).flatMap (fun k => leBytes 8 (tgetD st.faultSummary k 0)) ++ l.flatMap FaultRec.toBytes)))⟩

/-! ### Wait-for graph (R441, R442) -/

/-- The page requests that transfers of a kind wait for, by number. -/
def State.pageWaits (s : State) (mine : Purpose → Bool) : List Nat :=
  let waits := (s.xfers.filter (fun (q : Nat × Xfer) => mine q.2.purpose)).map Prod.fst
  (s.xlates.filter (fun (x : Nat × XlateReq) => x.2.paging && (s.waitersFor x.2).any (fun w => waits.contains w))).map Prod.fst

/-- What a work ring waits for (R110, R161, R265). -/
def State.ringWaits (s : State) (f : FuncId) (r : Nat) (g : Ring) : List WaitEdge :=
  let mk := fun (k i reason : Nat) => (⟨f.val, 1, r, k, i, reason, [g.cons, g.started]⟩ : WaitEdge)
  let oldest : List WaitEdge := match g.jobs.head? with
    | none => []
    | some j =>
      if j.done then []
      else match g.kind with
        | .coll => ((s.func f).ops.filter (fun o => o.entries.any (fun e => e.ring == r && e.slot == j.slot))).map (fun o => mk 5 o.gseq 1)
        | .send => if g.rawq.isSome then [] else [mk 3 (jobConn g j) 1]
        | .copy => []
  let held := g.held.drop 1
  let trig := if g.held.isEmpty || g.error then [] else match waitOf held with
    | some w => if s.trigValue f w.1 < w.2 then [mk 4 w.1 2] else []
    | none => []
  let res := if s.ringReady f r g && !s.canReserve f g then (g.cq.toList.map (fun c => mk 2 c 3)) else []
  oldest ++ trig ++ res ++ (s.pageWaits ((fun p => p.ofRing f r))).map (fun x => mk 10 x 11)

/-- What a connection waits for from its peer (R172, R178, R184). -/
def State.connWaits (n : Nat) (c : Conn) : List WaitEdge :=
  let mk := fun (reason : Nat) => (⟨c.func.val, 3, n, 8, c.peer, reason, [c.tx.next, c.tx.una, c.tx.credit]⟩ : WaitEdge)
  if c.state != .ready then []
  else
    (if c.tx.queue.isEmpty && c.tx.records.isEmpty then [] else
      (if c.tx.rnrPause then [mk 5] else []) ++
      (if !c.tx.queue.isEmpty && decide (c.psnSub c.tx.next c.tx.una ≥ c.tx.credit) then [mk 4] else []) ++
      (if c.tx.records.isEmpty then [] else [mk 6]))

/-- What an operation waits for at this node (R269, R270, R283). -/
def State.opWaits (s : State) (f : FuncId) (o : CollOp) : List WaitEdge :=
  let v := s.func f
  let mark := [o.nextChunk, o.granted, o.doneChunks.length, o.sealed.length, v.lastGseq]
  let mk := fun (k i kk j reason : Nat) => (⟨f.val, k, i, kk, j, reason, mark⟩ : WaitEdge)
  if !o.launched then []
  else if !o.admitted then
    if o.prev ≠ v.lastGseq then
      [mk 5 o.gseq 6 f.val 7,
       mk 6 f.val (if v.ops.any (fun q => q.gseq == o.prev) then 5 else 11) o.prev 7]
    else (v.ops.filter (fun q => q.admitted)).map (fun q => mk 5 o.gseq 5 q.gseq 8)
  else match s.comm f o.comm with
    | none => []
    | some c =>
      let ch := o.sealed.length
      let grant := if !c.root && decide (o.granted ≤ o.nextChunk) && decide (o.nextChunk < o.chunks) then [mk 5 o.gseq 3 (o.upEdge c) 9] else []
      let slot := o.slots.map Prod.snd
      let waiting := c.live.filter (fun k => !(slot.any (fun q => q.reports.contains k.conn)))
      grant ++ [mk 5 o.gseq 7 o.gseq 10] ++
      (if decide (ch < o.chunks) then (if o.ring then [] else waiting.map (fun k => mk 7 o.gseq 3 k.conn 10)) else [])

/-- What a program waits for (R322 to R324). -/
def State.progWaits (s : State) (n : Nat) (p : Prog) : List WaitEdge :=
  let mk := fun (k i reason : Nat) => (⟨p.func.val, 9, n, k, i, reason, [p.run, p.runs]⟩ : WaitEdge)
  (if p.current.isNone && p.state == .ready && p.startKind == 1 && !s.runDue p then [mk 4 p.startCounter 2] else []) ++
  (match p.current, p.cq with
    | some r, some c => if r.phase = .reserving then [mk 2 c 3] else []
    | _, _ => []) ++
  (s.pageWaits (Purpose.ofRun n)).map (fun x => mk 10 x 11)

/-- A sample of the waits of the module (R441). -/
def State.waits (s : State) : List WaitEdge :=
  allFuncs.flatMap (fun f =>
    let v := s.func f
    v.rings.flatMap (fun g => s.ringWaits f g.1 g.2) ++ v.ops.flatMap (fun o => s.opWaits f o)) ++
  s.conns.flatMap (fun q => State.connWaits q.1 q.2) ++ s.progs.flatMap (fun q => s.progWaits q.1 q.2)

/-- A node of the graph: kind, function, id. -/
abbrev GNode := Nat × Nat × Nat

/-- Function of a node as the graph numbers it: a module-wide object is the same whoever waits for it. -/
def gnode (k func i : Nat) : GNode := if k = 3 ∨ k = 8 ∨ k = 9 ∨ k = 10 then (k, 0, i) else (k, func, i)

/-- The nodes of a list of edges, in order of appearance. -/
def nodesOf (l : List WaitEdge) : List GNode :=
  (l.flatMap (fun e => [gnode e.fromKind e.func e.fromId, gnode e.toKind e.func e.toId])).foldl
    (fun acc g => if acc.contains g then acc else acc ++ [g]) []

/-- The nodes that can be reached from a list in `fuel` steps. -/
def reach (edges : List (GNode × GNode)) : Nat → List GNode → List GNode
  | 0, l => l
  | k + 1, l => reach edges k ((edges.filter (fun e => l.contains e.1)).foldl (fun acc e => if acc.contains e.2 then acc else acc ++ [e.2]) l)

/-- A node lies in a cycle: it is reached from one of the nodes it waits for. -/
def inCycle (edges : List (GNode × GNode)) (n : Nat) (g : GNode) : Bool :=
  (reach edges n ((edges.filter (fun e => e.1 == g)).map Prod.snd)).contains g

/-- STATE and VALUE of a node: STATE as the object's query gives it; what R442 does not say is free (log entry 39). -/
def State.nodeWords (s : State) (g : GNode) (use : Nat) : Nat × Nat :=
  let free := (Config.freeWord use).toNat % 2 ^ 32
  let f : FuncId := ⟨g.2.1 % 256, by omega⟩
  match g.1 with
  | 2 => (match s.cq f g.2.2 with | some q => cqStateCode q.state | none => free, free)
  | 4 => (free, s.trigValue f g.2.2 % 2 ^ 32)
  | 6 => (free, (s.func f).lastGseq)
  | 7 => (free, match s.collOp f g.2.2 with | some o => o.sealed.length | none => 0)
  | 8 => (free, match (tvals s.conns).find? (fun c => c.peer == g.2.2) with | some c => if c.node then c.nodeOf else 0 | none => 0)
  | 9 => (match s.prog g.2.2 with | some p => progStateCode p.state | none => free, free)
  | _ => (free, free)

/-- FUNC of a node: its function, or the owner of a module-wide object. -/
def State.nodeFunc (s : State) (g : GNode) : Nat :=
  match g.1 with
  | 3 => (match s.conn g.2.2 with | some c => c.func.val | none => 0)
  | 8 => (match (tvals s.conns).find? (fun c => c.peer == g.2.2) with | some c => c.func.val | none => 0)
  | 9 => (match s.prog g.2.2 with | some p => p.func.val | none => 0)
  | 10 => (match tget s.xlates g.2.2 with | some x => x.func.val | none => 0)
  | _ => g.2.1

/-- The bytes of the graph (R442), cut to `len`: whole nodes first, then whole edges. Gives NODES and EDGES too. -/
def State.graphBytes (s : State) (l : List WaitEdge) (len : Nat) (use : List Nat) : Bytes × Nat × Nat :=
  let nodes := nodesOf l
  let pairs := l.map (fun e => (gnode e.fromKind e.func e.fromId, gnode e.toKind e.func e.toId))
  let n := min nodes.length ((len - 32) / 16)
  let e := if n < nodes.length then 0 else min l.length ((len - 32 - 16 * n) / 12)
  let cyc := nodes.map (inCycle pairs nodes.length)
  let trunc := n < nodes.length || e < l.length
  let nodeB := (List.range n).flatMap (fun i =>
    let g := nodes.getD i (0, 0, 0)
    let w := s.nodeWords g (use.getD i 0)
    leBytes 1 g.1 ++ leBytes 1 (b2n (cyc.getD i false)) ++ leBytes 2 (s.nodeFunc g) ++ leBytes 4 g.2.2 ++ leBytes 4 w.1 ++ leBytes 4 w.2)
  let edgeB := (List.range e).flatMap (fun i =>
    let p := pairs.getD i ((0, 0, 0), (0, 0, 0))
    leBytes 4 (nodes.idxOf p.1) ++ leBytes 4 (nodes.idxOf p.2) ++ leBytes 2 ((l.getD i ⟨0, 0, 0, 0, 0, 0, []⟩).reason) ++ zeros 2)
  (leBytes 4 n ++ leBytes 4 e ++ leBytes 4 (b2n trunc + 2 * b2n (cyc.any id)) ++ zeros 4 ++
    leBytes 8 (32 + 16 * nodes.length + 12 * l.length) ++ leBytes 8 s.time ++ nodeB ++ edgeB, n, e)

/-- HANG_GRAPH: long; the first sample is taken at once (R441, R448). A LENGTH below the header's 32 bytes is BAD_ARG (log entry 39). -/
def hangGraphPlan (c : Cmd) (s : State) : Plan :=
  ⟨true, 24, reserved c 4 2 ++ outputChecks c s 0 8 16 ++ [argCheck 16 (decide (c.u64 16 < 32))],
   fun st => (st, .long (.hangGraph (c.u32 0) (c.u64 8) (c.u64 16) st.waits) false)⟩

/-- The second sample of HANG_GRAPH: the edges present in both, whose waiter made no progress, are written (R441), and the command
commits (R42). -/
def State.graphOut (s : State) (f : FuncId) (key off len : Nat) (sample : List WaitEdge) : State :=
  let now := s.waits
  let l := sample.filter (fun e => now.contains e)
  let d := State.freshN (nodesOf l).length s
  let b := s.graphBytes l len d.1
  let k := BitVec.ofNat 32 key
  match s.region k with
  | some r =>
    let payload := leBytes 4 b.2.1 ++ leBytes 4 b.2.2
    (d.2.modMbx f (fun m => { m with long := some (.writing false payload, true) })).startWrite r.func k off b.1 (.firmware f)
  | none => s.answerLong f (Reply.refuse rcBadState 0)

/-! ### Gleans (R443, R444) -/

/-- What the program a field names says, or false where no check lets it through. -/
def State.progD (s : State) (n : Nat) (g : Prog → Bool) : Bool := match s.prog n with | some p => g p | none => false

/-- GLEAN_ARM (R443, R448). -/
def gleanArmPlan (size : Option Nat) (c : Cmd) (s : State) : Plan :=
  let n := c.u32 0
  let need := size.getD 0
  ⟨false, 40,
   progChecks c s 0 ++ [argCheckOn 4 [0] size.isNone, argCheck 6 (badSource (c.u16 6))] ++ reserved c 20 4 ++
   (let r := s.region (BitVec.ofNat 32 (c.u32 16))
    [argCheck 16 (match r with | some g => !g.grants accLocalWrite | none => true),
     checkOn 4 rcDenied [16] (match r with | some g => g.func != c.obj | none => false),
     argCheckOn 24 [16, 32] (match r with | some g => decide (c.u64 24 + c.u64 32 > g.length) | none => true)]) ++
   [checkOn 5 rcBadState [0] (s.progD n (fun p => p.deterministic)),
    ⟨7, decide (c.u64 32 < need), rcDoesNotFit, 0, [32, 36, 64], leBytes 8 need⟩,
    busyOn [0] (s.progD n (fun p => p.glean.state == 1))],
   fun st => (st.modProg n (fun p => { p with
      glean := ⟨1, c.u16 4, c.u16 6, c.u32 8, c.u32 12, BitVec.ofNat 32 (c.u32 16), c.u64 24, need⟩ }),
    .answer (Reply.ok (leBytes 8 need)))⟩

/-- GLEAN_QUERY (R448). -/
def gleanQueryPlan (c : Cmd) (s : State) : Plan :=
  queryPlan false 8 (progChecks c s 0 ++ reserved c 4 4) (fun st => match st.prog (c.u32 0) with
    | some p => leBytes 1 p.glean.state ++ zeros 3 ++ leBytes 4 p.glean.run ++ leBytes 8 p.glean.bytes
    | none => [])

/-- GLEAN_CANCEL: a glean that is not armed is BAD_STATE (log entry 40); a copy in progress is given up and the run released. -/
def gleanCancelPlan (c : Cmd) (s : State) : Plan :=
  let n := c.u32 0
  setPlan false 8 (progChecks c s 0 ++ reserved c 4 4 ++ [checkOn 5 rcBadState [0] (s.progD n (fun p => p.glean.state != 1))])
    (fun st => (st.dropWhere (fun q => q == .glean n)).modProg n (fun p => { p with
      glean := { p.glean with state := 0 }
      current := p.current.map (fun r => if r.phase = .gleaning then { r with phase := .computing } else r) }))

/-! ### Global stop (R445, R447) -/

/-- GLOBAL_STOP: a module already stopped answers the time at which that stop began (R445). -/
def globalStopPlan (_c : Cmd) (_s : State) : Plan :=
  ⟨true, 0, [], fun st =>
    let s1 := st.globalStop false
    (s1, .answer (Reply.ok (leBytes 8 s1.stop.rootTime)))⟩

/-- The 24 bytes of a domain in STOP_READ (R447). -/
def State.domainBytes (s : State) (d : Nat) : Bytes :=
  leBytes 1 (domainGroup d).1 ++ leBytes 1 (domainGroup d).2 ++ leBytes 1 (b2n (s.stop.stopped && domainStops d)) ++ zeros 1 ++
  leBytes 4 (s.freqKhz d) ++ leBytes 8 (s.stop.counts.getD d 0) ++ leBytes 8 (s.stop.refCounts.getD d 0)

/-- STOP_READ: up to 168 domains from START (R447). -/
def stopReadPlan (c : Cmd) (_s : State) : Plan :=
  queryPlan true 8 (reserved c 2 6) (fun s =>
    let n := min 168 (236 - c.u16 0)
    leBytes 8 s.stop.refTime ++ leBytes 8 s.stop.rootTime ++ leBytes 4 n ++ zeros 4 ++ (lrange (c.u16 0) n).flatMap s.domainBytes)

/-- CNT_GLOBAL_READ (R432). -/
def execCntGlobalRead (f : FuncId) (s : State) : Out := s.perform f 0x0C00 cntGlobalReadPlan
/-- TRACE_CONFIG (R448). -/
def execTraceConfig (f : FuncId) (s : State) : Out := s.perform f 0x0C10 traceConfigPlan
/-- TRACE_CONTROL (R436). -/
def execTraceControl (f : FuncId) (s : State) : Out := s.perform f 0x0C11 traceControlPlan
/-- TRACE_QUERY (R448). -/
def execTraceQuery (f : FuncId) (s : State) : Out := s.perform f 0x0C12 traceQueryPlan
/-- TRACE_READ (R448). -/
def execTraceRead (f : FuncId) (s : State) : Out := s.perform f 0x0C13 traceReadPlan
/-- FAULT_READ (R448). -/
def execFaultRead (f : FuncId) (s : State) : Out := s.perform f 0x0C20 faultReadPlan
/-- HANG_GRAPH (R441). -/
def execHangGraph (f : FuncId) (s : State) : Out := s.perform f 0x0C30 hangGraphPlan
/-- GLEAN_ARM (R443). -/
def execGleanArm (f : FuncId) (size : Option Nat) (s : State) : Out := s.perform f 0x0C40 (gleanArmPlan size)
/-- GLEAN_QUERY (R448). -/
def execGleanQuery (f : FuncId) (s : State) : Out := s.perform f 0x0C41 gleanQueryPlan
/-- GLEAN_CANCEL (R448). -/
def execGleanCancel (f : FuncId) (s : State) : Out := s.perform f 0x0C42 gleanCancelPlan
/-- GLOBAL_STOP (R445). -/
def execGlobalStop (f : FuncId) (s : State) : Out := s.perform f 0x0C50 globalStopPlan
/-- STOP_READ (R447). -/
def execStopRead (f : FuncId) (s : State) : Out := s.perform f 0x0C52 stopReadPlan

end Sys2Proof.Machine
end

