-- ==== Sys2Proof/Machine/RegionCmds.lean ====
section
/-! DEFINITION. Machine/RegionCmds.lean: the commands of the 0x02xx range: regions, remapping, mirror invalidation and hot
pages (R84 to R99, R351, R353). -/

namespace Sys2Proof.Machine

/-- The checks of REGION_CREATE (R87, R88, R351, R353). -/
def regionCreateChecks (c : Cmd) (s : State) : List Check :=
  let kind := c.u8 0
  let acc := c.u16 2
  let base := c.u64 8
  let len := c.u64 16
  let ents := c.u32 32
  let pg := c.u8 36
  let mir := kind == 1
  let isMod := kind == 2
  let sealedBit := bit acc 7
  let pages := if bit acc 6 then pagesTouched base len else 0
  let live := s.regions.filter (fun r => r.2.kind == .module && r.2.meets base len)
  [argCheck 0 (kind > 2),
   argCheckOn 1 [0] (c.u8 1 > 1 || (isMod && c.u8 1 != 0)),
   argCheckOn 2 [0] (acc ≥ 256 || (isMod && (bit acc 5 || bit acc 6)) || (!isMod && sealedBit)),
   argCheckOn 4 [0] (c.u32 4 ≥ 2 ^ 20 || (kind != 0 && c.u32 4 != 0)),
   argCheckOn 8 [0] ((isMod && base ≥ 2 ^ 40) || (isMod && sealedBit && base % 4096 != 0)),
   argCheckOn 8 [0, 36] (mir && base ≥ 2 ^ mirrorLog2 pg),
   argCheck 16 (len = 0 || len > 2 ^ 40),
   argCheckOn 16 [0, 2] (isMod && sealedBit && len % 4096 != 0),
   argCheckOn 24 [0] (if mir then c.u64 24 % 64 != 0 else c.u64 24 != 0),
   argCheckOn 32 [0] (!mir && ents != 0),
   argCheckOn 32 [0, 8, 16, 36] (mir && ents < ceilDiv (base + len) (2 ^ mirrorLog2 pg)),
   argCheckOn 36 [0] (pg > 2 || (!mir && pg != 0)),
   checkOn 4 rcDenied [0, 8, 16] (isMod && (!s.inShares c.obj base len || s.mem.layout.touchesReserved base len)),
   checkOn 5 rcBadState [0] (kind == 0 && !(s.func c.obj).cfg.ats),
   checkOn 5 rcBadState [0, 2, 8, 16] (isMod && (if sealedBit then !live.isEmpty
     else live.any (fun r => r.2.sealKeys.isSome))),
   plainCheck 8 rcNoResource ((s.regionsOf c.obj).length ≥ s.share c.obj 8),
   checkOn 8 rcNoResource [0, 2, 8, 16] (s.countersOf c.obj + pages > s.share c.obj 9),
   busyOn [0, 8, 16] (isMod && s.rangeHeld base len)]
  ++ reserved c 37 3

/-- A key of a sealed region, 32 bytes of the hardware random source (R351). -/
def randomBytes (use n : Nat) : Bytes := (List.range n).map (fun i => Config.random use i)

/-- Creates the region in the next slot of the series, lowest never-used first (R85, R88). -/
def createRegion (c : Cmd) (s : State) : State × Verdict :=
  match s.regionSeries.take 1048576 with
  | none => (s, .answer (Reply.refuse rcNoResource 0))
  | some (slot, series) =>
    let acc := c.u16 2
    let gen := tgetD s.gens slot 0
    let (u, s1) := s.fresh
    let keys := if bit acc 7 then some (randomBytes u 32, (randomBytes u 64).drop 32) else none
    let r : Region :=
      { gen := gen, func := c.obj
        kind := if c.u8 0 = 0 then .hostAts else if c.u8 0 = 1 then .hostMirror else .module
        viaRoot := c.u8 1 == 1
        access := BitVec.ofNat 16 acc
        pasid := BitVec.ofNat 20 (c.u32 4)
        base := c.u64 8, length := c.u64 16
        mirrorAddr := c.u64 24, mirrorEntries := c.u32 32, mirrorPage := c.u8 36
        remap := [], sealKeys := keys, counters := [], weights := none, extents := [] }
    ({ s1 with regions := tset s1.regions slot r, regionSeries := series },
     .answer (Reply.ok (leBytes 4 (regionKey slot gen).toNat ++ leBytes 4 r.counterPages)))

/-- REGION_CREATE (R87, R88). -/
def regionCreatePlan (c : Cmd) (s : State) : Plan := ⟨false, 40, regionCreateChecks c s, createRegion c⟩

/-- The owner of the region a key field names. -/
def State.regionOwner (s : State) (k : Nat) : Option FuncId := (s.region (BitVec.ofNat 32 k)).map (fun r => r.func)

/-- A command's invalidation of the region is still running (R43). -/
def State.regionHeld (s : State) (slot : Nat) : Bool := s.invals.any (fun v => v.2.mail && v.2.slot == some slot)

/-- A live work ring, collective ring or completion ring lies in the region (R95). -/
def State.regionRings (s : State) (slot : Nat) : Bool :=
  allFuncs.any (fun f => (s.func f).rings.any (fun r => keyIndex r.2.key == slot && (s.region r.2.key).isSome) ||
    (s.func f).cqs.any (fun q => keyIndex q.2.key == slot && (s.region q.2.key).isSome))

/-- Leaves a command RUNNING until an invalidation ends (R93). -/
def waitInval (p : Nat × State) : State × Verdict := (p.2, .long (.invalidation p.1) true)

/-- REGION_DESTROY (R95). -/
def regionDestroyPlan (c : Cmd) (s : State) : Plan :=
  let slot := c.u32 0 % 2 ^ 20
  ⟨false, 8,
   ownedChecks s c 0 (s.regionOwner (c.u32 0)) ++ reserved c 4 4 ++
   [checkOn 5 rcBadState [0] (s.regionRings slot), busyOn [0] (s.regionHeld slot)],
   fun st => waitInval (st.destroyRegion slot true c.f)⟩

/-- The 40 creation bytes of a region (R87). -/
def Region.creation (r : Region) : Bytes :=
  leBytes 1 (match r.kind with | .hostAts => 0 | .hostMirror => 1 | .module => 2) ++ leBytes 1 (b2n r.viaRoot) ++
  leBytes 2 r.access.toNat ++ leBytes 4 r.pasid.toNat ++ leBytes 8 r.base ++ leBytes 8 r.length ++
  leBytes 8 r.mirrorAddr ++ leBytes 4 r.mirrorEntries ++ leBytes 1 r.mirrorPage ++ zeros 3

/-- REGION_QUERY: the creation bytes, then the transfers in flight (R99). -/
def regionQueryPlan (c : Cmd) (s : State) : Plan :=
  queryPlan false 8 (ownedChecks s c 0 (s.regionOwner (c.u32 0)) ++ reserved c 4 4) (fun st =>
    match st.region (BitVec.ofNat 32 (c.u32 0)) with
    | some r => r.creation ++ leBytes 4 (st.xfers.filter (fun x => x.2.region == c.u32 0 % 2 ^ 20 && !x.2.purpose.readsMirror)).length
    | none => [])

/-- The region a command names, for checks that depend on it. -/
def cmdRegion (s : State) (c : Cmd) : Region :=
  (s.region (BitVec.ofNat 32 (c.u32 0))).getD
    ⟨0, 0, .module, false, 0, 0, 0, 0, 0, 0, 0, [], none, [], none, []⟩

/-- Remaps one 2 MiB extent: R93 and R94 apply to the extent, with the module-local address in place of a fresh
translation; LOCAL 0 returns it to host translation. Transfers that wait for a translation in the extent look it up anew (R98). -/
def remapRegion (c : Cmd) (s : State) : State × Verdict :=
  let slot := c.u32 0 % 2 ^ 20
  let off := c.u64 8
  let r := cmdRegion s c
  let map := if c.u64 16 = 0 then tdel r.remap (off / 0x200000) else tset r.remap (off / 0x200000) (c.u64 16)
  let r1 := { r with remap := map }
  let s1 := { s with regions := tset s.regions slot r1 }
  let l := linkOf r.func
  let s2 := (s1.dropMirrorReads slot (fun p => overlap (p * 2 ^ r.pageLog2) (2 ^ r.pageLog2) (r.vaOf off) 0x200000)).rewait slot off 0x200000
  waitInval (s2.startInval l
    (fun e => e.func == r.func && e.mirror == (r.kind == .hostMirror) &&
      e.tag == (if r.kind = .hostMirror then slot else r.pasid.toNat) &&
      overlap (e.page * 2 ^ e.log2) (2 ^ e.log2) (r.vaOf off) 0x200000)
    (fun t p => if t.region == slot then p.within off 0x200000 else (p.off, 0))
    ⟨[], l, false, true, c.f, some slot, false⟩)

/-- REGION_REMAP (R98, R99). R99 gives no result for a MODULE region nor for an OFFSET at or past LENGTH: DESIGN CHOICE, BAD_ARG at KEY
and at OFFSET (log entry 50). -/
def regionRemapPlan (c : Cmd) (s : State) : Plan :=
  let r := cmdRegion s c
  let slot := c.u32 0 % 2 ^ 20
  let own := r.func
  ⟨false, 24,
   ownedChecks s c 0 (s.regionOwner (c.u32 0)) ++ reserved c 4 4 ++
   [argCheck 0 (!r.host),
    argCheck 8 (c.u64 8 % 0x200000 != 0),
    argCheckOn 8 [0] (c.u64 8 ≥ r.length),
    checkOn 4 rcDenied [0, 16] (c.u64 16 != 0 && (!s.inShares own (c.u64 16) 0x200000 || c.u64 16 + 0x200000 > tilthBase)),
    busyOn [0] (s.regionHeld slot)],
   remapRegion c⟩

/-- MIRROR_INVALIDATE (R92, R93, R99). -/
def mirrorInvalidatePlan (c : Cmd) (s : State) : Plan :=
  let r := cmdRegion s c
  let slot := c.u32 0 % 2 ^ 20
  let off := c.u64 8
  let len := c.u64 16
  let l := linkOf r.func
  ⟨false, 24,
   ownedChecks s c 0 (s.regionOwner (c.u32 0)) ++ reserved c 4 4 ++
   [argCheck 0 (r.kind != .hostMirror),
    argCheckOn 8 [0] (off ≥ r.length),
    argCheck 16 (len == 0),
    argCheckOn 16 [0, 8] (off + len > r.length),
    busyOn [0] (s.regionHeld slot)],
   fun st => waitInval ((st.dropMirrorReads slot (fun p => overlap (p * 2 ^ r.pageLog2) (2 ^ r.pageLog2) (r.base + off) len)).startInval l
     (fun e => e.mirror && e.func == r.func && e.tag == slot &&
       overlap (e.page * 2 ^ e.log2) (2 ^ e.log2) (r.base + off) len)
     (fun t p => if t.region == slot && p.host then p.within off len else (p.off, 0))
     ⟨[], l, false, true, c.f, some slot, false⟩)⟩

/-- HOT_CONFIG (R97, R99). -/
def hotConfigPlan (c : Cmd) (_s : State) : Plan :=
  setPlan false 12
    ([argCheck 0 (c.u32 0 < 1000 || c.u32 0 > 1000000), argCheck 8 (badSource (c.u16 8))] ++ reserved c 10 2)
    (fun st => st.modFunc c.obj (fun v =>
      { v with hotIntervalUs := c.u32 0, hotThreshold := c.u32 4, hotSource := c.u16 8 }))

/-- HOT_READ: returns and removes up to MAX entries, at most 253, and clears OVERFLOW (R99). -/
def hotReadPlan (c : Cmd) (_s : State) : Plan :=
  ⟨false, 8, reserved c 4 4, fun st =>
    let v := st.func c.obj
    let l := v.hotList.take (min (c.u32 0) 253)
    (st.modFunc c.obj (fun w => { w with hotList := w.hotList.drop l.length, hotOverflow := 0 }),
     .answer (Reply.ok (leBytes 4 l.length ++ leBytes 4 v.hotOverflow ++
       l.flatMap (fun h => leBytes 4 h.key.toNat ++ zeros 4 ++ leBytes 8 h.offset))))⟩

/-- REGION_CREATE (R88). -/
def execRegionCreate (f : FuncId) (s : State) : Out := s.perform f 0x0200 regionCreatePlan
/-- REGION_DESTROY (R95). -/
def execRegionDestroy (f : FuncId) (s : State) : Out := s.perform f 0x0201 regionDestroyPlan
/-- REGION_QUERY (R99). -/
def execRegionQuery (f : FuncId) (s : State) : Out := s.perform f 0x0202 regionQueryPlan
/-- REGION_REMAP (R98). -/
def execRegionRemap (f : FuncId) (s : State) : Out := s.perform f 0x0203 regionRemapPlan
/-- MIRROR_INVALIDATE (R92). -/
def execMirrorInvalidate (f : FuncId) (s : State) : Out := s.perform f 0x0210 mirrorInvalidatePlan
/-- HOT_CONFIG (R97). -/
def execHotConfig (f : FuncId) (s : State) : Out := s.perform f 0x0220 hotConfigPlan
/-- HOT_READ (R99). -/
def execHotRead (f : FuncId) (s : State) : Out := s.perform f 0x0221 hotReadPlan

end Sys2Proof.Machine
end

