-- ==== Sys2Proof/Machine/ResetCmds.lean ====
section
/-! DEFINITION. Machine/ResetCmds.lean: the commands of the 0x0Bxx range: resets, low power, firmware images, the boot log and the
life cycle (R411 to R428, R471), and the start of a firmware restart (R57, R414). -/

namespace Sys2Proof.Machine

/-! ### Firmware restart (R57, R414) -/

/-- A firmware restart begins: commands still POSTED are answered BUSY by the mailbox hardware, and the life-cycle nonce lapses
(R57, R414, R427). Causes 2 and 3 leave a fault record (R439). -/
def State.beginRestart (s : State) (cause image : Nat) : State :=
  let posted := allFuncs.filter (fun g => (s.func g).mbx.state == .posted)
  let s1 := forEach posted s (fun st g => st.hardwareBusy g)
  let s2 : State := { s1 with fw := .restarting, restart := some (cause, s.time, image), nonce := none }
  if cause = 1 then s2 else s2.fault 8 1 none 0 cause 0

/-- Image slot `k` (R422). -/
def Mram.slot (m : Mram) (k : Nat) : ImageSlot := if k = 0 then m.slot0 else m.slot1

/-- MRAM with image slot `k` replaced. -/
def Mram.setSlot (m : Mram) (k : Nat) (v : ImageSlot) : Mram := if k = 0 then { m with slot0 := v } else { m with slot1 := v }

/-- MODULE_RESET: the reset begins 100 µs after the response (R413). -/
def moduleResetPlan (_c : Cmd) (_s : State) : Plan :=
  setPlan true 0 [] (fun st => { st with resetAt := some (st.time + 100000) })

/-- The image an IMAGE field names: 0xFF stands for the running one (R428). -/
def restartImage (c : Cmd) (s : State) : Nat := if c.u8 0 = 255 then s.image else c.u8 0

/-- FW_RESTART (R414, R423): refused when the image named uses another firmware-store format, or its slot holds no valid image. Its own
response OK is written before the restart begins, with the RESTART_GEN of that time: DESIGN CHOICE, R57 and R414 do not say on which
side of the restart it stands (log entry 54). -/
def fwRestartPlan (c : Cmd) (s : State) : Plan :=
  let k := restartImage c s
  let slot := s.mram.slot k
  setPlan true 8
    ([argCheck 0 (decide (c.u8 0 > 1) && c.u8 0 != 255)] ++ reserved c 1 7 ++
     [checkOn 5 rcBadState [0] (k != s.image && (!slot.sameFormat || slot.state != 1))])
    (fun st => st.beginRestart 1 k)

/-- TINE_RESET: long (R415, R428). -/
def tineResetPlan (c : Cmd) (s : State) : Plan :=
  ⟨true, 8, [argCheck 0 (decide (c.u64 0 ≥ 2 ^ 40)), plainCheck 5 rcBadState (s.fw == .safeMode),
    busyOn [0] (s.tinesHeld (BitVec.ofNat 40 (c.u64 0)))],
   fun st => (st, .long (.tineReset (BitVec.ofNat 40 (c.u64 0))) false)⟩

/-! ### Fallow state (R420) -/

/-- What forbids the fallow state (R420). -/
def State.fallowBarred (s : State) : Bool :=
  s.conns.any (fun (c : Nat × Conn) => c.2.state == .ready) || !s.progs.isEmpty ||
  allFuncs.any (fun f => (s.func f).ops.any (fun o => o.launched) || (s.func f).cfg.d3hot)

/-- Entry into the fallow state: FALLOW_STATE reads 1, optical engines and tine array are off (R420). -/
def State.enterFallow (s : State) : State :=
  let s1 := forEach s.livePorts s (fun st p => st.portDown p)
  { s1 with
    fallow := true
    phys := (List.finRange 4).foldl (fun t ph => tset t ph.val { tgetD t ph.val PhysSt.reset with dark := true }) s1.phys
    tines := { s1.tines with warm := [] } }

/-- The exit from the fallow state is complete: ports that no boot step skipped may train again (R406, R420). -/
def State.leaveFallow (s : State) : State :=
  { s with
    fallow := false
    phys := s.phys.map (fun q => (q.1, { q.2 with dark := s.dataPathOff || s.mram.altMethod.contains (10 * 256 + q.1) })) }

/-- MODULE_FALLOW: long; FALLOW_STATE reads 1 from the start of entry (R420). An entry into the state, or an exit from it, that has
taken place already is BAD_STATE (log entry 33). -/
def moduleFallowPlan (c : Cmd) (s : State) : Plan :=
  let enter := c.u8 0 == 0
  ⟨true, 8,
   [argCheck 0 (decide (c.u8 0 > 1))] ++ reserved c 1 7 ++
   [checkOn 5 rcBadState [0] (enter == s.fallow), checkOn 5 rcBadState [0] (enter && s.fallowBarred)],
   fun st => (if enter then st.enterFallow else st, .long (.moduleFallow enter) true)⟩

/-! ### Wipe (R417) -/

/-- Destroys every key: key handles, the keys connections hold, and sealed regions with theirs (R353, R417, R427; log entry 34). -/
def State.destroyKeys (s : State) : State :=
  let s1 := forEach (tkeys s.keys) s (fun st k => st.destroyKey k)
  let s2 : State := { s1 with conns := s1.conns.map (fun c => (c.1, { c.2 with
    txKey := none, rxKey := none, nextTx := none, nextRx := none, oldTx := none, oldRx := none })) }
  let sealed := s2.regions.filter (fun (r : Nat × Region) => r.2.sealKeys.isSome)
  forEach sealed s2 (fun st r => (st.destroyRegion r.1 false r.2.func).2)

/-- Zeros with a good code in every byte of HBM, Tilth, local stores and exchange buffers (R417). -/
def State.zeroMemories (s : State) : State :=
  { s with
    mem := { s.mem with bytes := [], undef := [], poison := [] }
    tines := { s.tines with localStore := [], exchange := [], undef := [] } }

/-- The wipe of MODULE_WIPE: memories, the frames in port and transport buffers, and keys (R417). -/
def State.wipe (s : State) : State :=
  let s1 := forEach s.livePorts s (fun st p => st.discardQueues p)
  let s2 : State := { s1 with conns := s1.conns.map (fun c => (c.1, { c.2 with missed := [], missedRoce := [] })) }
  s2.zeroMemories.destroyKeys

/-- MODULE_WIPE: long, refused under the conditions of R341 (R417, R428). -/
def moduleWipePlan (_c : Cmd) (s : State) : Plan :=
  ⟨true, 0, [plainCheck 5 rcBadState s.memoryInUse, busyOn [] (s.rangeHeld 0 (2 ^ 64))], fun st => (st, .long .moduleWipe false)⟩

/-! ### Images (R422, R423) -/

/-- The 8 bytes of a slot in IMAGE_QUERY (R428). -/
def ImageSlot.toBytes (v : ImageSlot) : Bytes :=
  leBytes 1 v.state ++ zeros 1 ++ leBytes 2 v.securityVersion ++ leBytes 4 v.fwVersion.toNat

/-- IMAGE_QUERY (R428). -/
def imageQueryPlan (_c : Cmd) (_s : State) : Plan :=
  queryPlan true 0 [] (fun s => leBytes 1 s.image ++ leBytes 1 s.mram.next ++ leBytes 2 s.mram.minVersion ++
    s.mram.slot0.toBytes ++ s.mram.slot1.toBytes)

/-- IMAGE_PROGRAM: it checks, commits and erases the slot that is not running (R423). -/
def imageProgramPlan (img : ImageInfo) (c : Cmd) (s : State) : Plan :=
  let key := BitVec.ofNat 32 (c.u32 0)
  let slot := 1 - s.image
  ⟨true, 24,
   [argCheck 0 (match s.region key with | some r => !r.grants accLocalRead | none => true)] ++ reserved c 4 4 ++
   [argCheck 16 (decide (c.u32 16 > 0x2000000)),
    argCheckOn 8 [0, 16] (match s.region key with | some r => decide (c.u64 8 + c.u32 16 > r.length) | none => true)] ++ reserved c 20 4 ++
   [checkOn 4 rcDenied [0] (match s.region key with | some r => r.func != c.obj | none => false),
    checkOn 4 rcDenied [0, 8, 16] (!img.signatureGood || decide (img.securityVersion.toNat < s.mram.minVersion))],
   fun st => ({ st with mram := st.mram.setSlot slot { st.mram.slot slot with state := 2 } }, .long (.imageProgram slot img) true)⟩

/-- The end of IMAGE_PROGRAM: the slot's header is written (R423). -/
def State.imageDone (s : State) (slot : Nat) (img : ImageInfo) : State :=
  { s with mram := s.mram.setSlot slot ⟨1, img.securityVersion.toNat, img.fwVersion, img.sameFormat⟩ }

/-- IMAGE_SELECT: NEXT, and with LOCK_VERSION MIN_VERSION, which never falls (R422). -/
def imageSelectPlan (c : Cmd) (_s : State) : Plan :=
  setPlan true 8 ([argCheck 0 (decide (c.u8 0 > 1)), argCheck 1 (decide (c.u8 1 > 1))] ++ reserved c 2 6)
    (fun st =>
      let m := st.mram
      { st with mram := { m with
        next := c.u8 0
        minVersion := if c.u8 1 = 1 then max m.minVersion (m.slot st.image).securityVersion else m.minVersion } })

/-! ### Boot log (R407, R411) -/

/-- The 16 bytes of a boot-log record (R407). -/
def BootRec.toBytes (r : BootRec) : Bytes :=
  leBytes 4 r.boot ++ leBytes 1 r.step ++ leBytes 1 r.unit ++ leBytes 1 r.method ++ leBytes 1 r.result ++ leBytes 1 r.failCount ++
  zeros 3 ++ leBytes 4 r.timeMs

/-- BOOT_LOG_READ: up to 253 records from FROM_BOOT on, oldest first (R428). -/
def bootLogReadPlan (c : Cmd) (_s : State) : Plan :=
  queryPlan true 8 (reserved c 4 4) (fun s =>
    let l := (s.mram.bootLog.filter (fun r => decide (c.u32 0 ≤ r.boot))).take 253
    leBytes 4 l.length ++ leBytes 4 s.mram.bootNo ++ l.flatMap BootRec.toBytes)

/-- BOOT_LOG_CLEAR: every FAIL_COUNT 0, every method NORMAL (R411). -/
def bootLogClearPlan (_c : Cmd) (_s : State) : Plan :=
  setPlan true 0 [] (fun st => { st with mram := { st.mram with failCount := [], altMethod := [] } })

/-! ### Life cycle (R424 to R427) -/

/-- LC_QUERY (R428). -/
def lcQueryPlan (_c : Cmd) (_s : State) : Plan :=
  queryPlan true 0 [] (fun s => leBytes 1 s.mram.lc ++ zeros 3 ++ leBytes 4 s.mram.transitions ++ fit 48 s.mram.ownerHash)

/-- LC_CHALLENGE: a fresh nonce, which replaces the last one (R427). -/
def lcChallengePlan (_c : Cmd) (_s : State) : Plan :=
  ⟨true, 0, [], fun st =>
    let d := st.fresh
    let nonce := (List.range 16).map (fun i => Config.random d.1 i)
    ({ d.2 with nonce := some nonce }, .answer (Reply.ok nonce))⟩

/-- The transitions of R425, by FROM, TO and SIGNER (0 Pliath, 1 owner). -/
def lcAllowed (fromState toState signer : Nat) : Bool :=
  match fromState, toState, signer with
  | 0, 1, 0 => true
  | 1, 2, 1 => true
  | 2, 1, 1 => true
  | 1, 3, 1 => true
  | 2, 3, 1 => true
  | 3, 1, 0 => true
  | k, 4, _ => decide (k < 4)
  | _, _, _ => false

/-- SERIAL of the module (R56). -/
def serialBytes : Bytes := (List.finRange 16).map Config.serial

/-- LC_TRANSITION: long (R425 to R428). A token that passes commits: the intent record is written, keys are destroyed, the nonce is
used up. One that is refused leaves the nonce as it was: DEDUCED from R42, by which a command with a RESULT other than OK changes nothing
(log entry 164). -/
def lcTransitionPlan (signatureGood : Bool) (c : Cmd) (s : State) : Plan :=
  let to_ := c.u8 7
  let hash := c.bytes 48 48
  let shape := [0, 4, 6, 7, 40]
  ⟨true, if to_ = 1 then 292 else 192,
   [argCheck 0 (c.bytes 0 4 != ascii "LCTK"), argCheck 4 (c.u16 4 != 1), argCheck 6 (decide (c.u8 6 > 4)), argCheck 7 (decide (to_ > 4)),
    argCheck 40 (decide (c.u8 40 > 1))] ++ reserved c 41 7 ++
   [argCheckOn 48 [7] (to_ != 1 && hash != zeros 48),
    argCheckOn 192 [7] (to_ == 1 && sha384 (c.bytes 192 97) != hash)] ++ (if to_ = 1 then reserved c 289 3 else []) ++
   [checkOn 4 rcDenied shape (!signatureGood),
    checkOn 4 rcDenied shape (c.bytes 8 16 != serialBytes || some (c.bytes 24 16) != s.nonce),
    checkOn 5 rcBadState shape (c.u8 6 != s.mram.lc),
    checkOn 5 rcBadState shape (!lcAllowed (c.u8 6) to_ (c.u8 40))],
   fun st =>
    let h := if to_ = 1 then hash else st.mram.ownerHash
    (({ st with mram := { st.mram with intent := some (to_, h) }, nonce := none } : State).destroyKeys, .long (.lcTransition to_ h) true)⟩

/-- A factory-test opcode: refused outside MANUFACTURE and RETURNED, and there BAD_OPCODE for the manager, as R471 allows. -/
def factoryTestPlan (c : Cmd) (s : State) : Plan :=
  let open_ := s.mram.lc == 0 || s.mram.lc == 3
  ⟨true, c.length,
   [plainCheck 3 rcBadOpcode (open_ && c.f == s.manager), plainCheck 5 rcBadState (!open_)],
   fun st => (st, .answer (Reply.refuse rcBadOpcode 0))⟩

/-- MODULE_RESET (R413). -/
def execModuleReset (f : FuncId) (s : State) : Out := s.perform f 0x0B00 moduleResetPlan
/-- FW_RESTART (R414). -/
def execFwRestart (f : FuncId) (s : State) : Out := s.perform f 0x0B01 fwRestartPlan
/-- TINE_RESET (R415). -/
def execTineReset (f : FuncId) (s : State) : Out := s.perform f 0x0B02 tineResetPlan
/-- MODULE_FALLOW (R420). -/
def execModuleFallow (f : FuncId) (s : State) : Out := s.perform f 0x0B03 moduleFallowPlan
/-- MODULE_WIPE (R417). -/
def execModuleWipe (f : FuncId) (s : State) : Out := s.perform f 0x0B04 moduleWipePlan
/-- IMAGE_QUERY (R428). -/
def execImageQuery (f : FuncId) (s : State) : Out := s.perform f 0x0B10 imageQueryPlan
/-- IMAGE_PROGRAM (R423). -/
def execImageProgram (f : FuncId) (img : ImageInfo) (s : State) : Out := s.perform f 0x0B11 (imageProgramPlan img)
/-- IMAGE_SELECT (R422). -/
def execImageSelect (f : FuncId) (s : State) : Out := s.perform f 0x0B12 imageSelectPlan
/-- BOOT_LOG_READ (R428). -/
def execBootLogRead (f : FuncId) (s : State) : Out := s.perform f 0x0B20 bootLogReadPlan
/-- BOOT_LOG_CLEAR (R411). -/
def execBootLogClear (f : FuncId) (s : State) : Out := s.perform f 0x0B21 bootLogClearPlan
/-- LC_QUERY (R428). -/
def execLcQuery (f : FuncId) (s : State) : Out := s.perform f 0x0B30 lcQueryPlan
/-- LC_CHALLENGE (R427). -/
def execLcChallenge (f : FuncId) (s : State) : Out := s.perform f 0x0B31 lcChallengePlan
/-- LC_TRANSITION (R427). -/
def execLcTransition (f : FuncId) (signatureGood : Bool) (s : State) : Out := s.perform f 0x0B32 (lcTransitionPlan signatureGood)
/-- FACTORY_TEST: opcodes 0x0B80 to 0x0BFF (R471). -/
def execFactoryTest (f : FuncId) (s : State) : Out :=
  let op := (s.cmd f).opcode
  if 0x0B80 ≤ op ∧ op ≤ 0x0BFF then s.perform f op factoryTestPlan else next s

end Sys2Proof.Machine
end

