-- ==== Sys2Proof/Machine/SpareCmds.lean ====
section
/-! DEFINITION. Machine/SpareCmds.lean: the commands of the 0x0Axx range (R386, R404, R405). -/

namespace Sys2Proof.Machine

/-- SPARE_QUERY (R405). -/
def spareQueryPlan (_c : Cmd) (_s : State) : Plan :=
  queryPlan true 0 [] (fun s =>
    let cores := (List.range 640).map s.coreTines
    leBytes 4 (640 - s.tines.drawn.length) ++ leBytes 4 (cores.filter (fun n => decide (0 < n) && decide (n < 16))).length ++
    leBytes 4 (cores.filter (fun n => n == 0)).length ++
    leBytes 1 (((List.finRange 4).filter (fun ph => !(s.physPort ph).spareUsed)).map (fun ph => 2 ^ ph.val)).sum ++ zeros 3 ++
    leBytes 4 ((List.range 40).map s.mem.tilthRowsLeft).sum ++ leBytes 4 s.mem.retired.length ++
    leBytes 4 (4 * Config.hbmBanks - ((tvals s.mem.hbmRows).map List.length).sum) ++
    (List.range 4).flatMap (fun k => leBytes 1 (tgetD s.mem.channelsOut k []).length) ++ leBytes 4 s.power.holdupMj)

/-- UNIT of a REPAIR of a tine: furrow, core, tine (R394). -/
def tineUnit (u : Nat) : Nat × Nat × Nat := (bits u 23 16, bits u 15 8, bits u 7 0)

/-- A UNIT field names no unit of its kind. -/
def unitBad (kind u : Nat) : Bool :=
  if kind = 1 then decide (bits u 31 24 ≠ 0) || decide ((tineUnit u).1 > 39) || decide ((tineUnit u).2.1 > 15) || decide ((tineUnit u).2.2 > 15)
  else if kind = 3 then decide (u / 256 > 3) || decide (u % 256 > 7)
  else if kind = 9 then decide (u / 256 > 3) || decide (u % 256 > 31)
  else u != 0

/-- The pool of a tine or lane is empty (R405). -/
def State.poolEmpty (s : State) (kind u : Nat) : Bool :=
  if kind = 1 then thas s.tines.drawn ((tineUnit u).1 * 16 + (tineUnit u).2.1)
  else if kind = 3 then !s.spareReady ⟨u / 256 % 4, by omega⟩ (u % 256)
  else false

/-- What a REPAIR does: the spare is drawn as if by a threshold, or the channel mapped out (R386, R388, R391, R392). -/
def State.repaired (s : State) (kind u a : Nat) : State :=
  if kind = 1 then s.drawSpare (tineUnit u).1 (tineUnit u).2.1 (tineUnit u).2.2
  else if kind = 3 then
    let ph : PhysId := ⟨u / 256 % 4, by omega⟩
    if s.spareReady ph (u % 256) then (s.beginSwap ph (u % 256) true).swapDone ph else s
  else if kind = 9 then s.mapOut (u / 256) (u % 256)
  else s.repairRow a

/-- REPAIR: long (R405). A channel that is out already, or a ninth of its stack (R393), is BAD_STATE. HBM is repaired at once: a map-out's
rehash, which the progress records count, goes on until REHASH_DONE (R392). -/
def repairPlan (c : Cmd) (s : State) : Plan :=
  let kind := c.u8 0
  let u := c.u32 4
  let a := c.u64 8
  let row := kind == 6 || kind == 8
  let out := tgetD s.mem.channelsOut (u / 256) []
  ⟨true, 16,
   [argCheck 0 (!([1, 3, 6, 8, 9].contains kind)), argCheckOn 4 [0] (unitBad kind u),
    argCheckOn 8 [0] (if row then !populated a || inTilth a != (kind == 6) else a != 0),
    checkOn 5 rcBadState [0, 4] (kind == 9 && (out.contains (u % 256) || decide (out.length ≥ 8))),
    checkOn 8 rcNoResource [0, 4] (s.poolEmpty kind u),
    busyOn [0, 4] (s.heldBy (fun j => match j with | .repair k v b => k == kind && v == u && b == a | _ => false))] ++ reserved c 1 3,
   fun st => if kind = 8 ∨ kind = 9 then (st.repaired kind u a, .long (.repair kind u a) true) else (st, .long (.repair kind u a) false)⟩

/-- A measurement of the hold-up store: below 1.7 J HOLDUP is fallow (R404). -/
def State.holdupMeasured (s : State) (mj : Nat) : State :=
  let low := decide (mj < 1700)
  let s1 : State := { s with power := { s.power with holdupMj := mj, holdupFallow := s.power.holdupFallow || low }, degraded := s.degraded || low }
  if low && !s.power.holdupFallow then s1.postFallow 11 3 0 0 0 s.power.holdupMj mj [] else s1

/-- HOLDUP_TEST (R405). -/
def holdupTestPlan (mj : Nat) (_c : Cmd) (_s : State) : Plan :=
  ⟨true, 0, [], fun st => (st.holdupMeasured mj, .answer (Reply.ok (leBytes 4 mj ++ zeros 4)))⟩

/-- SPARE_QUERY (R405). -/
def execSpareQuery (f : FuncId) (s : State) : Out := s.perform f 0x0A00 spareQueryPlan
/-- REPAIR (R405). -/
def execRepair (f : FuncId) (s : State) : Out := s.perform f 0x0A01 repairPlan
/-- HOLDUP_TEST (R404). -/
def execHoldupTest (f : FuncId) (mj : Nat) (s : State) : Out := s.perform f 0x0A02 (holdupTestPlan mj)

end Sys2Proof.Machine
end

