-- ==== Sys2Proof/Machine/MailEvents.lean ====
section
/-! DEFINITION. Machine/MailEvents.lean: the end, the progress and the deadline of long commands (R39, R44, R47), and the mailbox
registers GO, EVT_CONS and EVT_LOST (R35, R39, R40, R48, R57). -/

namespace Sys2Proof.Machine

/-- Firmware serves mailboxes (R35, R41). -/
def State.serving (s : State) : Bool := s.fw == .running || s.fw == .safeMode

/-- Lanes a logical port has left: those of its breakout less its failed ones, and less the one that the spare replaces where the partner
is no 7440, towards which the spare stays dark (R228, R231, R233). -/
def State.lanesLeft (s : State) (p : LPort) : Nat :=
  let h := s.physPort (physOf p)
  let k := breakoutLanes h.breakout
  let lost := if (s.port p).peer7440 then h.failedLanes else (h.spareFor.toList.foldl linsert h.failedLanes)
  k - (lost.filter (fun l => decide (p.val % 8 ≤ l) && decide (l < p.val % 8 + k))).length

/-- A port that trained comes up, unless it is dark, gone, or left without lanes; towards a partner that is no 7440, only with all of them
(R229, R233, R255, R420). -/
def State.trainPort (s : State) (p : LPort) : State :=
  if (s.port p).up || !s.portExists p || (s.physPort (physOf p)).dark || s.fallow || s.lanesLeft p == 0 ||
    (!(s.port p).peer7440 && s.lanesLeft p != breakoutLanes (s.physPort (physOf p)).breakout) then s
  else s.portComeUp p (s.lanesLeft p)

/-- What the end of a long command's work leads to: its effect, where that was not made at its start, and its response; none where
the work cannot be over yet. -/
def State.longDone (s : State) (f : FuncId) (job : LongJob) : State :=
  let ok := fun (st : State) => st.answerLong f (Reply.ok [])
  match job with
  | .funcDestroy g =>
    let s1 := s.teardownDone g
    if (s1.func g).state = .destroying then s else ok s1
  | .ringRestart g r => (match s.ring g r with
    | some v => if v.jobs.isEmpty && v.posts.isEmpty && v.postWait.isNone then ok (s.ringRestarted g r) else s
    | none => ok s)
  | .portBreakout _ _ => ok s
  | .portReset p => ok (s.trainPort p)
  | .drillLoad n =>
    let d := s.drillLoaded n
    d.1.answerLong f d.2
  | .drillUnload n => if s.progD n (fun p => p.current.isSome) then s else ok (s.freeProg n)
  | .memLayoutSet w t n l => ok (s.setLayout ⟨w, t, n, l⟩)
  | .shareScrub base len => ok (s.scrub base len)
  | .granuleRevoke _ tilth base len =>
    let g := if tilth then tilthGranule else hbmGranule
    ok (s.poolReturn tilth (lrange (base / g) (len / g)))
  | .repair kind unit addr =>
    if kind = 9 then (if s.mem.rehashing.contains (unit / 256) then s else ok s)
    else if kind = 8 then (if s.mem.rehashing.contains (stackOf addr) then s else ok s)
    else ok (s.repaired kind unit addr)
  | .tineReset mask => ok (s.resetTines mask.toNat)
  | .moduleFallow enter => ok (if enter then s else s.leaveFallow)
  | .moduleWipe => ok s.wipe
  | .imageProgram slot img => ok (s.imageDone slot img)
  | .lcTransition _ _ => ok { s with resetAt := some s.time }
  | .traceRead die key off len => s.traceOut f die key off len
  | .hangGraph key off len sample => s.graphOut f key off len sample
  | .writing _ _ => s
  | .invalidation _ => s

/-- Takes back what a long command that has not committed holds (R42). -/
def State.abandonJob (s : State) (job : LongJob) : State :=
  match job with
  | .drillLoad n => s.freeProg n
  | .drillUnload n => s.modProg n (fun p => { p with unloading := false })
  | _ => s

/-- LONG_COMMAND_DONE: firmware writes the response, RESULT and DONE (R39). -/
def execLongCommandDone (f : FuncId) (s : State) : Out :=
  next (match (s.func f).mbx.long with
    | some (job, _) => if s.serving then (s.longDone f job).settle else s
    | none => s)

/-- STAGE of a progress record: IMAGE_PROGRAM alone defines stages, 1 and 2 (R51, R423). -/
def LongJob.stage (j : LongJob) (reported : Nat) : Nat :=
  match j with
  | .imageProgram _ _ => reported
  | _ => 0

/-- DONE_UNITS and TOTAL_UNITS of a progress record (R51): bytes of IMAGE_PROGRAM, granules of the memory commands, GiB of REPAIR, as
the work stands; of RING_RESTART the started requests, those outstanding now counted as not done (R132, R356, R391, R423). A command
that defines no units reports 0. -/
def State.jobUnits (s : State) (j : LongJob) (done total : Nat) : Nat × Nat :=
  match j with
  | .imageProgram _ _ => (done, total)
  | .memLayoutSet _ _ _ _ => (done, total)
  | .shareScrub base len =>
    let n := len / (if inTilth base then tilthGranule else hbmGranule)
    (min done n, n)
  | .granuleRevoke _ tilth _ len =>
    let n := len / (if tilth then tilthGranule else hbmGranule)
    (min done n, n)
  | .repair kind unit _ =>
    let n := if kind = 9 then 64 - 2 * (tgetD s.mem.channelsOut (unit / 256) []).length else 0
    (min done n, n)
  | .ringRestart g r =>
    let left := match s.ring g r with
      | some v => v.jobs.length
      | none => 0
    (max total left - left, max total left)
  | _ => (0, 0)

/-- PROGRESS_RECORD: a command still RUNNING is reported to its function (R47, R51). -/
def execProgressRecord (f : FuncId) (stage : BitVec 16) (doneUnits totalUnits : Word64) (remainingMs : Word32) (s : State) : Out :=
  let m := (s.func f).mbx
  next (match m.long with
    | none => s
    | some (job, _) =>
      if m.state = .running ∧ s.serving then
        let u := s.jobUnits job doneUnits.toNat totalUnits.toNat
        s.post f 0x0001 m.copyToken (leBytes 2 m.opcode ++ leBytes 2 (job.stage stage.toNat) ++ zeros 4 ++ leBytes 8 u.1 ++
          leBytes 8 u.2 ++ leBytes 4 remainingMs.toNat)
      else s)

/-- COMMAND_TIMEOUT: a command that has not committed by its deadline is abandoned (R44). -/
def execCommandTimeout (f : FuncId) (s : State) : Out :=
  let m := (s.func f).mbx
  next (match m.long with
    | some (job, false) =>
      if s.serving ∧ m.timeoutMs ≠ 0 then ((s.abandonJob job).answerLong f (Reply.refuse rcTimeout 0)).settle else s
    | _ => s)

/-- A function's BARs can be reached: it is not DISABLED, and its link is up (R61, R375). -/
def State.reachable (s : State) (f : FuncId) : Bool := (s.func f).state != .disabled && (s.link (linkOf f)).up

/-- Queues an arrival that a global stop holds, with the PTP time, which runs on (R250, R445). -/
def State.holdArrival (s : State) (c : Instr) : State := { s with held := s.held ++ [(s.ptp, s.ptpFrac, c)] }

/-- A register access of a function crosses the fabric from its link to Headland (R357). -/
def State.regSent (s : State) (f : FuncId) : State := s.fabSend (.link (linkOf f)) .headland .creq 8

/-- What a register read returns: it crosses the fabric back, and leaves on the function's link (R357). -/
def State.regReturns (s : State) (f : FuncId) (b : Bytes) : State :=
  (s.fabSend .headland (.link (linkOf f)) .crsp b.length).emit (.readData f b false)

/-- The effect of a register access that a global stop serves: it takes place where the function can be reached (R61, R445). -/
def State.hostAccess (s : State) (f : FuncId) (g : State → State) : State := if s.reachable f then g (s.regSent f) else s

/-- The effect of an access that a global stop holds: it waits while the module is stopped (R445). -/
def State.barAccess (s : State) (f : FuncId) (c : Instr) (g : State → State) : State :=
  if !s.reachable f then s else if s.stop.stopped then s.holdArrival c else g s

/-- The effect of a register access that a global stop holds. -/
def State.regAccess (s : State) (f : FuncId) (c : Instr) (g : State → State) : State := s.barAccess f c (fun st => g (st.regSent f))

/-- A write of GO (R39, R40, R57). -/
def State.go (s : State) (f : FuncId) (value : Word32) : State :=
  let m := (s.func f).mbx
  if !bit value.toNat 0 then s
  else if m.state = .posted ∨ m.state = .running then s.count f cntProtocol 1
  else
    let s1 := s.count f cntMailbox 1
    if !s.serving then s1.hardwareBusy f
    else
      let c := s1.cmd f
      let s2 := s1.fresh.2.modMbx f (fun v => { v with
        state := .posted, token := BitVec.ofNat 16 (c.hdr 2 2), mixed := [], goOrder := s.goNext })
      { s2 with goNext := s.goNext + 1 }

/-- MBX_GO (R39). -/
def execMbxGo (f : FuncId) (value : Word32) (s : State) : Out := next (s.hostAccess f (fun st => st.go f value))

/-- A write of MBX_EVT_CONS: a move past the producer is ignored and counted (R48). -/
def State.evtCons (s : State) (f : FuncId) (value : Word32) : State :=
  let m := (s.func f).mbx
  let new := BitVec.ofNat 7 value.toNat
  if (new - m.evtCons).toNat > m.occupied then s.count f cntProtocol 1
  else (s.modMbx f (fun v => { v with evtCons := new })).refillEvents f

/-- MBX_EVT_CONS_WRITE (R48). -/
def execMbxEvtConsWrite (f : FuncId) (value : Word32) (s : State) : Out := next (s.hostAccess f (fun st => st.evtCons f value))

/-- MBX_EVT_LOST_READ: the count is returned and cleared (R11, R35). -/
def execMbxEvtLostRead (f : FuncId) (s : State) : Out :=
  next (s.hostAccess f (fun st =>
    (st.modMbx f (fun v => { v with lost := 0 })).regReturns f (leBytes 4 (st.func f).mbx.lost)))

end Sys2Proof.Machine
end

