-- ==== Sys2Proof/Machine/RegEvents.lean ====
section
/-! DEFINITION. Machine/RegEvents.lean: register and window accesses of a function: plain registers and the command mailbox (R9, R34,
R35, R40, R63), module time (R64), the BAR2 window (R65 to R68), the event controller (R74 to R79), MSI-X (R79, R82) and the
counter snapshot (R429). -/

namespace Sys2Proof.Machine

/-! ### Event controller (R75 to R78) -/

/-- A read of EVC_CLAIM (R77). -/
def State.evcClaim (s : State) (f : FuncId) : State :=
  let e := (s.func f).evc
  match e.best with
  | none => s.regReturns f (leBytes 4 0xFFF)
  | some src =>
    (s.setEvc f { e with pending := lerase e.pending src, active := linsert e.active src }).regReturns f (leBytes 4 src)

/-- A write of EVC_EOI (R78). -/
def State.evcEoi (s : State) (f : FuncId) (value : Word32) : State :=
  let e := (s.func f).evc
  let src := bits value.toNat 11 0
  if src = 0xFFF then s
  else if e.active.contains src then s.setEvc f { e with active := lerase e.active src }
  else s.count f cntProtocol 1

/-- A write of EVC_THRESHOLD (R75, R79). -/
def State.evcThreshold (s : State) (f : FuncId) (value : Word32) : State :=
  s.setEvc f { (s.func f).evc with threshold := BitVec.ofNat 4 value.toNat }

/-- A write of EVC_RAISE (R75, R76). -/
def State.evcRaise (s : State) (f : FuncId) (value : Word32) : State :=
  let src := bits value.toNat 11 0
  if src = 0xFFF then s
  else if !validSource src then s.count f cntProtocol 1
  else if bit value.toNat 31 then s.withdraw f src
  else s.signal f src

/-- A write of EVC_CTRL: MSG_EN going from 0 to 1 lets messages out (R79). -/
def State.evcCtrl (s : State) (f : FuncId) (value : Word32) : State :=
  let e := (s.func f).evc
  let s1 := s.modFunc f (fun v => { v with evc := { v.evc with msgEn := bit value.toNat 0 } })
  if bit value.toNat 0 && !e.msgEn then s1.sendAllGroups f else s1

/-- A write of a route table entry; its reserved bits read 0 (R12, R75). -/
def State.evcRoute (s : State) (f : FuncId) (src : Nat) (value : Word32) : State :=
  let e := (s.func f).evc
  if src ≥ 4095 then s.count f cntRegAccess 1
  else
    let w := value &&& 0x8F0007FF#32
    s.setEvc f { e with route := if w = 0 then tdel e.route src else tset e.route src w }

/-! ### MSI-X (R79) -/

/-- A vector is unmasked: with its pending bit set, its message goes out if its group still has an eligible source; the pending bit
is cleared (R79). DESIGN CHOICE: it is cleared, and nothing is sent, also while MSG_EN is 0 or MSI-X Enable is clear; R79 does not say
which holds then (log entry 55). -/
def State.unmasked (s : State) (f : FuncId) (v : Nat) : State :=
  let x := s.func f
  if !x.msix.pba.contains v || x.msix.fmask || (x.msix.entry v).masked then s
  else
    let s1 := s.modFunc f (fun w => { w with msix := { w.msix with pba := lerase w.msix.pba v } })
    if x.evc.msgEn && x.msix.enable && x.evc.groups.contains v then s1.sendVector f v else s1

/-- Changes an MSI-X table entry. -/
def State.modEntry (s : State) (f : FuncId) (v : Nat) (g : MsixEntry → MsixEntry) : State :=
  s.modFunc f (fun w => { w with msix := { w.msix with table := tset w.msix.table v (g (w.msix.entry v)) } })

/-- The mask bit of a vector is cleared (R79). -/
def State.unmaskVector (s : State) (f : FuncId) (v : Nat) : State :=
  if v ≥ s.vectors f then s else (s.modEntry f v (fun e => { e with masked := false })).unmasked f v

/-- The Function Mask is cleared (R79). -/
def State.unmaskFunction (s : State) (f : FuncId) : State :=
  let s1 := s.modFunc f (fun w => { w with msix := { w.msix with fmask := false } })
  forEach (s1.func f).msix.pba s1 (fun st v => st.unmasked f v)

/-- MSI-X Enable is set (R79). -/
def State.enableMsix (s : State) (f : FuncId) : State :=
  if (s.func f).msix.enable then s
  else (s.modFunc f (fun w => { w with msix := { w.msix with enable := true } })).sendAllGroups f

/-! ### Windows and counters (R65, R429) -/

/-- A write of WIN_BASE or WIN_CTRL (R65). -/
def State.winSet (s : State) (f : FuncId) (reg : WinReg) (value : Word32) : State :=
  match reg with
  | .base => s.modFunc f (fun v => { v with win := { v.win with base := BitVec.ofNat 19 value.toNat } })
  | .ctrl => s.modFunc f (fun v => { v with win := { v.win with enable := bit value.toNat 0, writeEn := bit value.toNat 1 } })

/-- A write of CNT_CTRL: the counters and module time of this instant go to the shadow; SNAP reads 1 until the copy is done (R429; log
entry 41). -/
def State.cntSnap (s : State) (f : FuncId) (value : Word32) : State :=
  if !bit value.toNat 0 || (s.func f).cnt.snap then s
  else s.modFunc f (fun v => { v with cnt := { v.cnt with shadow := v.cnt.live, snapTime := s.time, snap := true } })

/-! ### Plain registers and the command mailbox (R9, R34, R35, R40, R63) -/

/-- A write into the command mailbox: while POSTED each byte may hold its old or its new value in firmware's copy (R40); the old value of
an undefined byte is free (R38). -/
def State.mailWrite (s : State) (f : FuncId) (off : Nat) (data : Bytes) : State :=
  s.fresh.2.modMbx f (fun m => { m with
    cmd := mwrite m.cmd off data
    cmdUndef := cutRanges m.cmdUndef off data.length
    mixed := if m.state = .posted then
        (List.range data.length).foldl (fun t i =>
          let a := off + i
          tset t a (tgetD t a [m.held s.free a] ++ [data.getD i 0])) m.mixed
      else m.mixed })

/-- A write to a reserved offset is discarded and counted (R63). -/
def State.reservedWrite (s : State) (f : FuncId) : State := s.count f cntRegAccess 1

/-- A 32-bit write in BAR0 outside the mailboxes (R63): what it reaches, reserved bits ignored. -/
def State.regWrite0 (s : State) (f : FuncId) (off : Nat) (v : Word32) : State :=
  if off < 0x20 then
    if off = 0x04 then
      if isVf f then s else s.modLink (linkOf f) (fun l => { l with retain := bit v.toNat 2 })
    else if [0x00, 0x08, 0x10, 0x14].contains off then s else s.reservedWrite f
  else if 0x400 ≤ off ∧ off < 0x420 then
    if off = 0x400 then s.go f v
    else if off = 0x40C then s.evtCons f v
    else if off = 0x41C then s.modMbx f (fun m => { m with doneEn := bit v.toNat 0, evtEn := bit v.toNat 1 })
    else s
  else if off = 0x800 then s.winSet f .base v
  else if off = 0x804 then s.winSet f .ctrl v
  else if off = 0x808 then s.modFunc f (fun x => { x with win := { x.win with fault := x.win.fault && !bit v.toNat 0 } })
  else if 0xC00 ≤ off ∧ off < 0xC18 then
    if off = 0xC04 then s.evcEoi f v
    else if off = 0xC08 then s.evcThreshold f v
    else if off = 0xC10 then s.evcRaise f v
    else if off = 0xC14 then s.evcCtrl f v
    else s
  else if 0x4000 ≤ off ∧ off < 0x8000 then s.evcRoute f ((off - 0x4000) / 4) v
  else if 0x8000 ≤ off ∧ off < 0x8200 then s
  else if 0x9000 ≤ off ∧ off < 0xA000 then
    if off = 0x9000 then s.cntSnap f v
    else if off = 0x9008 ∨ off = 0x900C ∨ (0x9100 ≤ off ∧ off < 0x9100 + 8 * 26) then s
    else s.reservedWrite f
  else if 0x100000 ≤ off ∧ off < 0x380000 then s.count f cntDoorbell 1
  else s.reservedWrite f

/-- A 32-bit write in BAR4: the MSI-X table; the pending-bit array is read-only (R62, R82). -/
def State.regWrite4 (s : State) (f : FuncId) (off : Nat) (v : Word32) : State :=
  let n := off / 16
  if off < 0x8000 ∧ n < s.vectors f then
    match off % 16 / 4 with
    | 0 => s.modEntry f n (fun e => { e with addr := BitVec.ofNat 64 (e.addr.toNat / 2 ^ 32 * 2 ^ 32 + v.toNat) })
    | 1 => s.modEntry f n (fun e => { e with addr := BitVec.ofNat 64 (v.toNat * 2 ^ 32 + e.addr.toNat % 2 ^ 32) })
    | 2 => s.modEntry f n (fun e => { e with data := v })
    | _ => if bit v.toNat 0 then s.modEntry f n (fun e => { e with masked := true }) else s.unmaskVector f n
  else if 0x8000 ≤ off ∧ off < 0x8000 + 8 * ((s.vectors f + 63) / 64) then s
  else s.reservedWrite f

/-- A register access that R9 or R34 refuses: the wrong size or alignment, or a write of the event mailbox. The command mailbox takes
writes of 8 bytes too. -/
def badAccess (bar : Bar) (write : Bool) (off size : Nat) : Bool :=
  let inCmd := bar == .bar0 && decide (0x1000 ≤ off) && decide (off < 0x2000)
  let inEvt := bar == .bar0 && decide (0x2000 ≤ off) && decide (off < 0x3000)
  if inEvt && write then true
  else if inCmd && write && size == 8 then off % 8 != 0
  else size != 4 || off % 4 != 0

/-- An offset among the doorbells (R63, R107). -/
def inDoorbells (bar : Bar) (off : Nat) : Bool := bar == .bar0 && decide (0x100000 ≤ off) && decide (off < 0x380000)

/-- A doorbell written whole: a row of its own, and no refused access (R10). -/
def wholeDoorbell (bar : Bar) (write : Bool) (off size : Nat) : Bool := inDoorbells bar off && write && size == 8 && off % 8 == 0

/-- The counter of a refused access: a piece of a doorbell counts as a discarded doorbell (R10, R430). -/
def accessCounter (bar : Bar) (write : Bool) (off : Nat) : Nat :=
  if write && inDoorbells bar off then cntDoorbell else cntRegAccess

/-- A global stop serves the mailboxes and their registers, and reads of the ID_, MBX_ and CNT_ blocks; every other access waits
(R445). -/
def stopServes (bar : Bar) (write : Bool) (off : Nat) : Bool :=
  bar == .bar0 && ((decide (0x400 ≤ off) && decide (off < 0x800)) || (decide (0x1000 ≤ off) && decide (off < 0x3000)) ||
    (!write && (decide (off < 0x400) || (decide (0x9000 ≤ off) && decide (off < 0xA000)))))

/-- A write access to BAR0 or BAR4 (R9, R34, R35, R63). -/
def State.regWrite (s : State) (f : FuncId) (bar : Bar) (off size : Nat) (value : Word64) : State :=
  if badAccess bar true off size then s.count f (accessCounter bar true off) 1
  else match bar with
    | .bar0 => if 0x1000 ≤ off ∧ off < 0x2000 then s.mailWrite f (off - 0x1000) (leBytes size value.toNat)
        else s.regWrite0 f off (BitVec.ofNat 32 value.toNat)
    | .bar4 => s.regWrite4 f off (BitVec.ofNat 32 value.toNat)

/-- A refused access is counted; a read returns all ones (R9, R34). -/
def State.badAccessed (s : State) (f : FuncId) (bar : Bar) (write : Bool) (off size : Nat) : State :=
  let s1 := s.count f (accessCounter bar write off) 1
  if write then s1 else s1.regReturns f (List.replicate size 0xFF)

/-- REG_WRITE (R9, R34, R35, R63). -/
def execRegWrite (f : FuncId) (bar : Bar) (off size : Nat) (value : Word64) (s : State) : Out :=
  next (if stopServes bar true off then s.hostAccess f (fun st => st.regWrite f bar off size value)
    else s.regAccess f (.regWrite f bar off size value) (fun st => st.regWrite f bar off size value))

/-- BAD_REG_ACCESS: counted; a read returns all ones (R9, R34). -/
def execBadRegAccess (f : FuncId) (bar : Bar) (write : Bool) (off size : Nat) (s : State) : Out :=
  next (if !badAccess bar write off size || wholeDoorbell bar write off size then s
    else if stopServes bar write off then s.hostAccess f (fun st => st.badAccessed f bar write off size)
    else s.regAccess f (.badRegAccess f bar write off size) (fun st => st.badAccessed f bar write off size))

/-- ID_TIME_LO_READ: the high word of module time is latched (R64). -/
def execIdTimeLoRead (f : FuncId) (s : State) : Out :=
  next (s.hostAccess f (fun st =>
    (st.modFunc f (fun v => { v with timeHi := st.time / 2 ^ 32 % 2 ^ 32 })).regReturns f (leBytes 4 (st.time % 2 ^ 32))))

/-- WIN_SET (R66). -/
def execWinSet (f : FuncId) (reg : WinReg) (value : Word32) (s : State) : Out :=
  next (s.regAccess f (.winSet f reg value) (fun st => st.winSet f reg value))

/-! ### BAR2 (R65 to R68) -/

/-- The module-local address of a BAR2 offset (R65). -/
def State.winAddr (s : State) (f : FuncId) (off : Nat) : Nat := (s.func f).win.base.toNat * 0x200000 + off

/-- R67 refuses an access, also on sealed bytes (R352, R355); in safe mode and in the fallow state every access (R410, R420). -/
def State.winRefused (s : State) (f : FuncId) (write : Bool) (a n : Nat) : Bool :=
  let w := (s.func f).win
  !w.enable || (write && !w.writeEn) || s.dataPathOff || s.fallow || !s.inShares f a n || s.mem.layout.touchesReserved a n || s.sealedAt a n

/-- A refused BAR2 access (R67). -/
def State.winFault (s : State) (f : FuncId) : State :=
  ((s.modFunc f (fun v => { v with win := { v.win with fault := true } })).count f cntWinFault 1).signal f 3

/-- A read through BAR2 asks the memory's controller over the fabric, and is answered (R357). -/
def State.winAsks (s : State) (f : FuncId) (a len : Nat) : State :=
  (s.fabSend (.link (linkOf f)) (s.unitOfAddr a) .dreq 0).fabSend (s.unitOfAddr a) (.link (linkOf f)) .drsp len

/-- Data written through BAR2 goes to the memory's controller over the fabric (R357). -/
def State.winSends (s : State) (f : FuncId) (a len : Nat) : State := s.fabSend (.link (linkOf f)) (s.unitOfAddr a) .dreq len

/-- A read through BAR2, which crosses the fabric to the memory's controller and back; data that met an uncorrectable block returns all
ones, poisoned (R67, R68, R345, R357). -/
def State.bar2Read (s : State) (f : FuncId) (off len : Nat) (obs : List BlockObs) : State :=
  let a := s.winAddr f off
  if s.winRefused f false a len then (s.winFault f).emit (.readData f (List.replicate len 0xFF) false)
  else
    let d := (s.winAsks f a len).memRead a len obs
    d.1.emit (.readData f (if d.2.2.1 then List.replicate len 0xFF else d.2.1) d.2.2.1)

/-- A write through BAR2 (R67, R68, R357, R470). -/
def State.bar2Write (s : State) (f : FuncId) (off : Nat) (data : Bytes) (obs : List BlockObs) : State :=
  let a := s.winAddr f off
  if s.winRefused f true a data.length then s.winFault f
  else ((s.winSends f a data.length).memWrite a data obs).1

/-- BAR2_READ (R68). -/
def execBar2Read (f : FuncId) (off len : Nat) (obs : List BlockObs) (s : State) : Out :=
  next (s.barAccess f (.bar2Read f off len obs) (fun st => st.bar2Read f off len obs))

/-- BAR2_WRITE (R68). -/
def execBar2Write (f : FuncId) (off : Nat) (data : Bytes) (obs : List BlockObs) (s : State) : Out :=
  next (s.barAccess f (.bar2Write f off data obs) (fun st => st.bar2Write f off data obs))

/-! ### Event-controller and MSI-X rows -/

/-- EVC_CLAIM_READ (R77). -/
def execEvcClaimRead (f : FuncId) (s : State) : Out :=
  next (s.regAccess f (.evcClaimRead f) (fun st => st.evcClaim f))
/-- EVC_EOI_WRITE (R78). -/
def execEvcEoiWrite (f : FuncId) (value : Word32) (s : State) : Out :=
  next (s.regAccess f (.evcEoiWrite f value) (fun st => st.evcEoi f value))
/-- EVC_THRESHOLD_WRITE (R79). -/
def execEvcThresholdWrite (f : FuncId) (value : Word32) (s : State) : Out :=
  next (s.regAccess f (.evcThresholdWrite f value) (fun st => st.evcThreshold f value))
/-- EVC_RAISE_SIGNAL: a write with WITHDRAW 0 (R76). -/
def execEvcRaiseSignal (f : FuncId) (value : Word32) (s : State) : Out :=
  next (if bit value.toNat 31 then s else s.regAccess f (.evcRaiseSignal f value) (fun st => st.evcRaise f value))
/-- EVC_RAISE_WITHDRAW: a write with WITHDRAW 1 (R76). -/
def execEvcRaiseWithdraw (f : FuncId) (value : Word32) (s : State) : Out :=
  next (if bit value.toNat 31 then s.regAccess f (.evcRaiseWithdraw f value) (fun st => st.evcRaise f value) else s)
/-- EVC_CTRL_WRITE (R79). -/
def execEvcCtrlWrite (f : FuncId) (value : Word32) (s : State) : Out :=
  next (s.regAccess f (.evcCtrlWrite f value) (fun st => st.evcCtrl f value))
/-- EVC_ROUTE_WRITE (R79). -/
def execEvcRouteWrite (f : FuncId) (source : Nat) (value : Word32) (s : State) : Out :=
  next (s.regAccess f (.evcRouteWrite f source value) (fun st => st.evcRoute f source value))
/-- EVC_SOURCE_SIGNAL: a unit of the module signals a source (R76). -/
def execEvcSourceSignal (f : FuncId) (source : Nat) (s : State) : Out := next (s.signal f source)
/-- EVC_SOURCE_WITHDRAW: a unit of the module withdraws a source (R76). -/
def execEvcSourceWithdraw (f : FuncId) (source : Nat) (s : State) : Out := next (s.withdraw f source)
/-- MSIX_VECTOR_UNMASK (R79). -/
def execMsixVectorUnmask (f : FuncId) (vector : Nat) (s : State) : Out :=
  next (s.regAccess f (.msixVectorUnmask f vector) (fun st => st.unmaskVector f vector))
/-- MSIX_FUNCTION_UNMASK (R79). -/
def execMsixFunctionUnmask (f : FuncId) (s : State) : Out := next (s.hostAccess f (fun st => st.unmaskFunction f))
/-- MSIX_ENABLE_SET (R79). -/
def execMsixEnableSet (f : FuncId) (s : State) : Out := next (s.hostAccess f (fun st => st.enableMsix f))
/-- MSIX_FUNCTION_MASK_SET (R79). -/
def execMsixFunctionMaskSet (f : FuncId) (s : State) : Out :=
  next (s.hostAccess f (fun st => st.modFunc f (fun w => { w with msix := { w.msix with fmask := true } })))
/-- MSIX_ENABLE_CLEAR (R79). -/
def execMsixEnableClear (f : FuncId) (s : State) : Out :=
  next (s.hostAccess f (fun st => st.modFunc f (fun w => { w with msix := { w.msix with enable := false } })))
/-- CNT_SNAP (R429). -/
def execCntSnap (f : FuncId) (value : Word32) (s : State) : Out :=
  next (s.regAccess f (.cntSnap f value) (fun st => st.cntSnap f value))
/-- CNT_SNAP_DONE (R429). -/
def execCntSnapDone (f : FuncId) (s : State) : Out := next (s.modFunc f (fun v => { v with cnt := { v.cnt with snap := false } }))

end Sys2Proof.Machine
end

