-- ==== Sys2Proof/Machine/Doorbells.lean ====
section
/-! DEFINITION. Machine/Doorbells.lean: doorbells of work rings and completion rings (R10, R107, R108, R116 to R118, R134, R468). -/

namespace Sys2Proof.Machine

/-- In safe mode and in the fallow state doorbells are discarded and counted (R410, R420); so is one that arrived in pieces (R10). -/
def State.dblRefused (s : State) (whole : Bool) : Bool := !whole || s.dataPathOff || s.fallow

/-- A discarded doorbell is counted (R10, R108). -/
def State.dblDiscard (s : State) (f : FuncId) : State := s.count f cntDoorbell 1

/-- A doorbell crosses the fabric from the host's link to the engine that serves the ring, on the function's home die (R357). -/
def State.dblSent (s : State) (f : FuncId) (u : FabUnit) : State := s.fabSend (.link (linkOf f)) u .creq 8

/-- The engine that serves a ring's kind (R361). -/
def RingKind.engine (k : RingKind) (d : DieId) : FabUnit :=
  match k with
  | .copy => .copy d
  | .send => .transport d
  | .coll => .collective d

/-- A DBL_WORK: the producer index moves, and the ring may join the active set (R108, R110). -/
def State.dblWork (s : State) (f : FuncId) (r : Nat) (value : Word64) (whole : Bool) : State :=
  if s.dblRefused whole then s.dblDiscard f
  else match s.ring f r with
    | none => s.dblDiscard f
    | some g =>
      let v := value.toNat
      let p := linearOf g.n v
      let ok := decide (bits v 15 0 < g.n) && decide (ringDist g.n g.prod g.cons ≤ ringDist g.n p g.cons) && decide (ringDist g.n p g.cons ≤ g.n)
      if !ok then s.dblDiscard f
      else
        let s1 := (s.dblSent f (g.kind.engine (dieOf f))).modRing f r (fun w => { w with prod := p })
        s1.refreshSet (dieOf f)

/-- The trace records of the rings and connections that a completion ring held back (R433). -/
def State.cqReleased (s : State) (f : FuncId) (c since : Nat) : State :=
  match s.cq f c with
  | none => s
  | some q =>
    let d := dieOf f
    let rings := ((s.func f).rings.filter (fun g => g.2.cq == some c && chainOf g.2.held == .complete && !g.2.error)).map Prod.fst
    let conns := (s.conns.filter (fun (k : Nat × Conn) => k.2.func == f && k.2.state == .ready && s.creditCq k.2 == some c)).map Prod.fst
    forEach (rings ++ conns) s (fun st n => st.traceRecord d f 0x06 n c q.free (s.time - since))

/-- What a completion ring held back resumes: its rings may start, its READY connections grant credit again, with an ACK that carries it
(R117, R178). -/
def State.cqResume (s : State) (f : FuncId) (c : Nat) : State :=
  let conns := (s.conns.filter (fun (k : Nat × Conn) => k.2.func == f && k.2.state == .ready && s.creditCq k.2 == some c)).map Prod.fst
  (forEach conns s (fun st n => match st.conn n with
    | none => st
    | some k =>
      let t := st.grantCredit n
      if k.native && k.state == .ready && (match t.conn n with | some v => decide (v.rx.credit > k.rx.credit) | none => false) then t.sendAck n 0x10 0 0 k.rx.echo
      else t)).refreshSet (dieOf f)

/-- A DBL_CQ on a FAULTED ring retries the write that failed; a ring whose fence found nothing to write leaves FAULTED once the fence has
lifted (R468). -/
def State.cqRetry (s : State) (f : FuncId) (c : Nat) (obs : List BlockObs) : State :=
  match s.cq f c with
  | none => s
  | some q =>
    if !q.faulted || q.waiting.isSome || q.occupied ≥ q.n then s
    else match q.windrow with
      | e :: rest =>
        let e1 := match obs.headD .good with
          | .uncorrectable => e.lost
          | _ => e
        (s.modCq f c (fun v => { v with windrow := rest })).writeCqe f c { e1 with fromWindrow := true }
      | [] =>
        if q.tsPorts.isEmpty then
          (if (s.region q.key).any s.regionFenced then s else s.modCq f c (fun v => { v with faulted := false }))
        else match (q.tsPorts.flatMap (fun ph => ((s.physPort ph).tsQueue.take 1))).head? with
          | none => s
          | some e => (s.modPhys e.home (fun v => { v with tsQueue := v.tsQueue.drop 1 })).writeTs f c e

/-- The consumer index of a completion ring moves: the windrow drains, reservations and credits free up (R108, R116, R117). -/
def State.cqConsume (s : State) (f : FuncId) (c : Nat) (l : Nat) (obs : List BlockObs) : State :=
  match s.cq f c with
  | none => s
  | some q =>
    let held := decide (q.free = 0)
    let s1 := (s.modCq f c (fun v => { v with cons := l })).noteCq f c
    let s2 := if held && decide (l ≠ q.cons) then s1.cqReleased f c q.blockedAt else s1
    let s3 := if q.faulted then s2.cqRetry f c obs else s2.drainCq f c obs
    let s4 := if q.faulted then s3 else forEach q.tsPorts s3 (fun st ph => st.tsPump ph)
    s4.cqResume f c

/-- Entries that stand written in the ring beyond its consumer index: those whose writes wait are not there yet (R134, R468). -/
def State.entriesWritten (s : State) (q : Cq) : Nat := q.occupied - q.unwritten.length - b2n (s.entryWaits q)

/-- ARM: one signal at the next completion, or at once if an entry lies beyond the new consumer index (R134). -/
def State.armCq (s : State) (f : FuncId) (c : Nat) : State :=
  match s.cq f c with
  | none => s
  | some q =>
    if s.entriesWritten q > 0 then s.signalBound f q.eventSource else s.modCq f c (fun v => { v with armed := true })

/-- A DBL_CQ value names a live ring and an index that R108 accepts. -/
def State.dblCqOk (s : State) (f : FuncId) (c : Nat) (value : Word64) : Bool :=
  match s.cq f c with
  | none => false
  | some q =>
    let v := value.toNat
    decide (bits v 15 0 < q.n) && decide (ringDist q.n (linearOf q.n v) q.cons ≤ ringDist q.n q.prod q.cons)

/-- The consumer index a DBL_CQ gives, linear. -/
def State.dblCqIndex (s : State) (f : FuncId) (c : Nat) (value : Word64) : Nat :=
  match s.cq f c with
  | some q => linearOf q.n value.toNat
  | none => 0

/-- A DBL_CQ (R108, R116, R134, R468). -/
def State.dblCq (s : State) (f : FuncId) (c : Nat) (value : Word64) (whole : Bool) (obs : List BlockObs) : State :=
  if s.dblRefused whole || !s.dblCqOk f c value then s.dblDiscard f
  else
    let s1 := (s.dblSent f (.transport (dieOf f))).cqConsume f c (s.dblCqIndex f c value) obs
    if bit value.toNat 31 then s1.armCq f c else s1

/-- A DBL_CQ whose effect is its ARM: the ring's windrow blocks are read as good (R134). -/
def State.dblArm (s : State) (f : FuncId) (c : Nat) (value : Word64) (whole : Bool) : State :=
  if s.dblRefused whole || !s.dblCqOk f c value then s.dblDiscard f
  else ((s.dblSent f (.transport (dieOf f))).cqConsume f c (s.dblCqIndex f c value) []).armCq f c

/-- DBL_WORK (R108). -/
def execDblWork (f : FuncId) (ring : Nat) (value : Word64) (whole : Bool) (s : State) : Out :=
  next (s.barAccess f (.dblWork f ring value whole) (fun st => st.dblWork f ring value whole))

/-- DBL_CQ (R116). -/
def execDblCq (f : FuncId) (cq : Nat) (value : Word64) (whole : Bool) (obs : List BlockObs) (s : State) : Out :=
  next (s.barAccess f (.dblCq f cq value whole obs) (fun st => (st.dblCq f cq value whole obs).settle))

/-- DBL_CQ_ARM: a doorbell with ARM set (R134). -/
def execDblCqArm (f : FuncId) (cq : Nat) (value : Word64) (whole : Bool) (s : State) : Out :=
  next (if bit value.toNat 31 then s.barAccess f (.dblCqArm f cq value whole) (fun st => (st.dblArm f cq value whole).settle) else s)

end Sys2Proof.Machine
end

