-- ==== Sys2Proof/Machine/WorkReqs.lean ====
section
/-! DEFINITION. Machine/WorkReqs.lean: the rows that read ring entries (R104, R109, R469) and start requests of work rings (R106, R110,
R119, R148, R161, R247, R262). A row starts the next request of its ring when the arbiter picks that ring. -/

namespace Sys2Proof.Machine

/-- A network request of an opcode on a send ring, raw queues apart. -/
def isNet (op : Nat) (g : Ring) (e : Bytes) (_ : List Bytes) : Bool := g.kind == .send && entOp e == op && !isRaw g e

/-- A collective request of an opcode. -/
def isColl (op : Nat) (g : Ring) (e : Bytes) (_ : List Bytes) : Bool := g.kind == .coll && entOp e == op

/-- COPY (R119). -/
def execCopy (f : FuncId) (ring : Nat) (s : State) : Out := next (s.startRow f ring (fun g _ _ => g.kind == .copy)).settle
/-- WRITE (R148). -/
def execWrite (f : FuncId) (ring : Nat) (s : State) : Out := next (s.startRow f ring (isNet 0x10)).settle
/-- READ (R148). -/
def execRead (f : FuncId) (ring : Nat) (s : State) : Out := next (s.startRow f ring (isNet 0x11)).settle
/-- SEND (R148). -/
def execSend (f : FuncId) (ring : Nat) (s : State) : Out := next (s.startRow f ring (isNet 0x12)).settle
/-- RECV: posts a receive buffer for a connection, or for a raw queue (R151, R154, R247). -/
def execRecv (f : FuncId) (ring : Nat) (s : State) : Out :=
  next (s.startRow f ring (fun g e _ => g.kind == .send && entOp e == 0x13)).settle
/-- FETCH_ADD (R155). -/
def execFetchAdd (f : FuncId) (ring : Nat) (s : State) : Out := next (s.startRow f ring (isNet 0x14)).settle
/-- CMP_SWAP (R155). -/
def execCmpSwap (f : FuncId) (ring : Nat) (s : State) : Out := next (s.startRow f ring (isNet 0x15)).settle
/-- SWAP (R155). -/
def execSwap (f : FuncId) (ring : Nat) (s : State) : Out := next (s.startRow f ring (isNet 0x16)).settle
/-- RAW_SEND: a request of a raw queue other than a RECV (R249). -/
def execRawSend (f : FuncId) (ring : Nat) (s : State) : Out :=
  next (s.startRow f ring (fun g e _ => g.kind == .send && isRaw g e && entOp e != 0x13)).settle
/-- ALLREDUCE (R262). -/
def execAllreduce (f : FuncId) (ring : Nat) (s : State) : Out := next (s.startRow f ring (isColl 0x80)).settle
/-- REDUCE (R262). -/
def execReduce (f : FuncId) (ring : Nat) (s : State) : Out := next (s.startRow f ring (isColl 0x81)).settle
/-- BROADCAST (R262). -/
def execBroadcast (f : FuncId) (ring : Nat) (s : State) : Out := next (s.startRow f ring (isColl 0x82)).settle
/-- REDUCE_SCATTER (R262). -/
def execReduceScatter (f : FuncId) (ring : Nat) (s : State) : Out := next (s.startRow f ring (isColl 0x83)).settle
/-- ALLGATHER (R262). -/
def execAllgather (f : FuncId) (ring : Nat) (s : State) : Out := next (s.startRow f ring (isColl 0x84)).settle

/-- TRIGGERED_START: a request with a WAIT extension starts once its counter has reached the threshold (R161). -/
def execTriggeredStart (f : FuncId) (ring : Nat) (s : State) : Out := next (s.startRow f ring (fun _ _ x => (waitOf x).isSome)).settle

/-- ENTRY_READ_DONE; an entry in module memory is read as any block there (R104, R105, R109, R342 to R344). -/
def execEntryReadDone (f : FuncId) (ring : Nat) (got : EntryCopy) (lastReread : Bool) (s : State) : Out :=
  next (if s.stop.stopped then s.holdArrival (.entryReadDone f ring got lastReread) else (s.entryRead f ring got.bytes lastReread got.obs).settle)

/-- ENTRY_READ_FAULT (R469). -/
def execEntryReadFault (f : FuncId) (ring : Nat) (cause : EntryFault) (s : State) : Out :=
  next (if s.stop.stopped then s.holdArrival (.entryReadFault f ring cause) else (s.entryFault f ring cause).settle)

end Sys2Proof.Machine
end

