-- ==== Sys2Proof/Machine/DmaEvents.lean ====
section
/-! DEFINITION. Machine/DmaEvents.lean: the answers of host memory, of module memory and of the host's translation agent, and the
invalidations that the host asks for (R26, R71, R73, R89, R90, R93). -/

namespace Sys2Proof.Machine

/-- An event of the module's own engines and timers: nothing happens while the module is off or globally stopped (R445). -/
def State.engine (s : State) (g : State → State) : Out := next (if !s.power.on || s.stop.stopped then s else (g s).settle)

/-- An arrival from outside: held during a global stop, in order (R445); an unpowered module takes none. -/
def State.arrival (s : State) (c : Instr) (g : State → State) : Out :=
  next (if !s.power.on then s else if s.stop.stopped then s.holdArrival c else (g s).settle)

/-- A function's configuration space changes: what happens to it while its link is down makes the outage no retrain (R80). -/
def State.configWrite (s : State) (l : LinkId) : State := s.modLink l (fun k => { k with cfgTouched := k.cfgTouched || k.downAt.isSome })

/-- DMA_READ_COMPLETION (R26). -/
def execDmaReadCompletion (x : Nat) (bytes : Bytes) (s : State) : Out :=
  s.arrival (.dmaReadCompletion x bytes) (fun st => st.hostReadDone x bytes)

/-- MEM_READ_RESPONSE (R342 to R345). -/
def execMemReadResponse (x : Nat) (obs : List BlockObs) (s : State) : Out := s.engine (fun st => st.memReadDone x obs)

/-- MEM_WRITE_RESPONSE (R21, R470). -/
def execMemWriteResponse (x : Nat) (obs : List BlockObs) (s : State) : Out := s.engine (fun st => st.memWriteDone x obs)

/-- FLUSH_COMPLETE (R71). -/
def execFlushComplete (id : Nat) (s : State) : Out := s.arrival (.flushComplete id) (fun st => st.flushDone id)

/-- FLUSH_FAILED (R73). -/
def execFlushFailed (id : Nat) (s : State) : Out := s.arrival (.flushFailed id) (fun st => st.flushFail id)

/-- PROBE_FLUSH_TIMER: every 10 ms each fenced path is probed (R73). -/
def execProbeFlushTimer (s : State) : Out := s.engine (fun st => forEach (List.finRange 4) st (fun w l => w.probeLink l))

/-- ATS_TRANSLATION_DONE (R89). -/
def execAtsTranslationDone (x : Nat) (ans : AtsAnswer) (s : State) : Out :=
  s.arrival (.atsTranslationDone x ans) (fun st => st.xlateDone x ans)

/-- PAGE_REQUEST_RESPONSE (R90). -/
def execPageRequestResponse (x : Nat) (ans : PriAnswer) (s : State) : Out :=
  s.arrival (.pageRequestResponse x ans) (fun st => st.pageAnswered x (ans == .success) (ans == .responseFailure))

/-- PAGE_REQUEST_TIMEOUT: 100 ms without a response (R90). -/
def execPageRequestTimeout (x : Nat) (s : State) : Out := s.engine (fun st => st.pageDone x false false)

/-- The transfers of a function's HOST_ATS regions (R89). -/
def State.atsXfer (s : State) (f : FuncId) (t : Xfer) : Bool :=
  t.func == f && match tget s.regions t.region with
    | some r => r.kind == .hostAts
    | none => false

/-- An Invalidate Request of a PASID and virtual range (R93). -/
def State.invalidateAts (s : State) (l : LinkId) (f : FuncId) (pasid base len : Nat) : State :=
  ((s.staleXlates (fun q => q.link == l && q.func == f && q.pasid == pasid && overlap (q.page * 4096) 4096 base len)).startInval l
    (fun e => !e.mirror && e.func == f && e.tag == pasid && overlap (e.page * 2 ^ e.log2) (2 ^ e.log2) base len)
    (fun t p => match tget s.regions t.region with
      | some r =>
        if p.host && s.atsXfer f t && r.pasid.toNat == pasid && overlap (r.base + p.off) p.len base len then
          p.within (base - r.base) (base + len - (r.base + (base - r.base)))
        else (p.off, 0)
      | none => (p.off, 0))
    ⟨[], l, true, false, f, none, false⟩).2

/-- INVALIDATE_REQUEST (R32, R93). -/
def execInvalidateRequest (l : LinkId) (f : FuncId) (pasid : BitVec 20) (base : Word64) (len : Nat) (s : State) : Out :=
  s.arrival (.invalidateRequest l f pasid base len) (fun st =>
    if linkOf f != l || !(st.link l).up then st else st.invalidateAts l f pasid.toNat base.toNat len)

/-- INVALIDATE_READ_TIMEOUT (R93 step 5). -/
def execInvalidateReadTimeout (id : Nat) (s : State) : Out := s.engine (fun st => st.abandonReads id)

/-- Clears ATS Enable of a function: its cached entries are dropped, its transfers drained or fenced, what it has asked for is not cached
any more; later accesses, and those that wait, fail as translation faults (R89, R93). -/
def State.disableAts (s : State) (f : FuncId) : State :=
  let l := linkOf f
  let s1 := s.modFunc f (fun v => { v with cfg := { v.cfg with ats := false } })
  let s2 := s1.staleXlates (fun q => q.func == f)
  let ws := (s2.xfers.filter (fun (q : Nat × Xfer) => s2.atsXfer f q.2 && (match q.2.phase with
    | .waitPage _ => true
    | _ => false))).map Prod.fst
  let s3 := forEach ws s2 (fun st x => st.endXfer x .xlateFault)
  (s3.startInval l (fun e => !e.mirror && e.func == f) (fun t p => if p.host && s.atsXfer f t then (p.off, p.len) else (p.off, 0))
    ⟨[], l, false, false, f, none, false⟩).2

/-- ATS_DISABLE (R89). -/
def execAtsDisable (f : FuncId) (s : State) : Out := next ((s.configWrite (linkOf f)).disableAts f).settle

/-- ATS_ENABLE_SET (R88, R89). -/
def execAtsEnableSet (f : FuncId) (s : State) : Out :=
  next ((s.configWrite (linkOf f)).modFunc f (fun v => { v with cfg := { v.cfg with ats := true } }))

/-- PRI_REENABLE: page requests are sent again (R90). -/
def execPriReenable (f : FuncId) (s : State) : Out :=
  next ((s.configWrite (linkOf f)).modFunc f (fun v => { v with cfg := { v.cfg with priStopped := false } }))

end Sys2Proof.Machine
end

