-- ==== Sys2Proof/Machine/PacketTx.lean ====
section
/-! DEFINITION. Machine/PacketTx.lean: sending packets (R168 to R171, R209, R210), starting and ending frames on a logical port
(R213, R225, R240, R249), and the refills and gates that pace them (R217, R221, R222). -/

namespace Sys2Proof.Machine

/-- The paths of a NODE connection that the relay tables give no usable next hop fail: an empty set is the report of unreachability that
R190 names. With `offered`, a packet that is to be sent is dropped and counted on each such path in turn (R368). -/
def State.failUnroutable (s : State) (n : Nat) (offered : Bool) : State :=
  match s.conn n with
  | none => s
  | some c =>
    if !c.node || c.state != .ready then s
    else forEach c.livePaths s (fun st p =>
      let hops := match st.relay.lookup (c.pathCc p).epoch c.nodeOf with
        | some q => st.usableHops (c.pathCc p).epoch q
        | none => []
      if !hops.isEmpty then st
      else if offered && !(c.tx.queue.isEmpty && c.tx.resend.isEmpty && c.tx.coll.isEmpty) then
        (st.noRoute c.nodeOf (c.pathCc p).epoch c.dscp).pathFail n p
      else st.pathFail n p)

/-- The same for every connection, after a next hop was lost (R190, R368). -/
def State.failUnroutableAll (s : State) : State := forEach (tkeys s.conns) s (fun st n => st.failUnroutable n false)

/-- PACKET_SEND: a connection of a function that may work sends one packet (R171, R209). -/
def execPacketSend (conn : Nat) (s : State) : Out :=
  s.engine (fun st => match st.conn conn with
    | none => st
    | some c => if st.fenced c.func || (st.func c.func).cfg.d3hot then st else (st.failUnroutable conn true).packetSend conn)

/-- EGRESS_FRAME_START (R213, R225, R240). -/
def execEgressFrameStart (p : LPort) (s : State) : Out := s.engine (fun st => st.egressStart p)

/-- TX_FRAME_END (R249, R254). -/
def execTxFrameEnd (p : LPort) (s : State) : Out := s.engine (fun st => st.txEnd p)

/-- SHAPER_REFILL: every 64 ns (R217). -/
def execShaperRefill (s : State) : Out := s.engine (fun st => st.refillAll)

/-- GATE_INTERVAL_END (R221). -/
def execGateIntervalEnd (p : LPort) (s : State) : Out := s.engine (fun st => st.gateNext p)

/-- GATE_LIST_SWITCH (R222). -/
def execGateListSwitch (p : LPort) (s : State) : Out := s.engine (fun st => st.gateSwitch p)

end Sys2Proof.Machine
end

