-- ==== Sys2Proof/Machine/RxNative.lean ====
section
/-! DEFINITION. Machine/RxNative.lean: received native frames: length and frame check (R17, R235), policing (R218 to R220), the
miss buffer (R140, R141), the steps of R174, and what each packet type does. -/

namespace Sys2Proof.Machine

/-! ### Before the transport (R235, R243) -/

/-- What the link layer makes of a frame of a class: discarded, or handed on with whether its frame check sequence and length
hold, whether no codeword of it was uncorrectable and no fragment bad (R17, R234, R235, R241, R243). -/
def State.rxLink (s : State) (p : LPort) (l : L2) (cls : Nat) : State × Option Bool :=
  if !s.portUp p then (s, none)
  else
    let s1 := (((s.countPort p 0 1).countPort p 1 l.length).countPort p 10 l.corrected).countPort p 11 l.uncorrectable
    if l.length ≤ 63 then (s1.countPort p 5 1, none)
    else if !s1.rxRoom p cls l.length then (s1.countPort p 20 1, none)
    else if l.length > (s1.port p).maxFrame then (s1.countPort p 6 1, some false)
    else if l.fragBad then (s1.countPort p 8 1, some false)
    else if !l.fcsOk || decide (l.uncorrectable > 0) then (s1.countPort p 4 1, some false)
    else (s1, some true)

/-- The port's own address or broadcast, and no management address (R238 steps 3 and 4). -/
def State.addressed (s : State) (p : LPort) (da : BitVec 48) : Bool :=
  (da == (s.port p).mac || da == broadcast) && !((s.port p).mgmt.any (fun (m : Nat × BitVec 48 × Nat) => m.2.1 == da))

/-- The tags of a frame are tags to a port: the outer one with TPID 0x8100 or TAG_TPID, the inner one with 0x8100 (R244). -/
def PortSt.knowsTags (v : PortSt) (l : L2) : Bool :=
  l.outer.all (fun t => t.tpid == 0x8100 || t.tpid == v.tpid) && l.inner.all (fun t => l.outer.isSome && t.tpid == 0x8100)

/-- The frame is for this module's transport (R238 step 5). -/
def State.forMe (s : State) (fr : NFrame) : Bool := fr.node == 0 || fr.node == s.relay.nodeId

/-! ### Policing (R218 to R220) -/

/-- The marker of R219 on a frame of `b` bytes with pre-colour `pre`: the policer after it and the colour, 0 green, 1 yellow,
2 red. -/
def Policer.judge (q : Policer) (now b pre : Nat) : Policer × Nat :=
  let dt := now - q.lastAt
  let tc := min (q.tc + q.cir * dt) (q.cbs * 8000)
  let tp := min (q.tp + q.pir * dt) (q.pbs * 8000)
  let w := b * 8000
  let q1 : Policer := { q with tc := tc, tp := tp, lastAt := now }
  if pre = 2 ∨ tp < w then ({ q1 with red := satAdd max64 q1.red 1 }, 2)
  else if pre = 1 ∨ tc < w then ({ q1 with tp := tp - w, yellow := satAdd max64 q1.yellow 1 }, 1)
  else ({ q1 with tp := tp - w, tc := tc - w, green := satAdd max64 q1.green 1 }, 0)

/-- The pre-colour a policer takes from a frame in its own mode (R219). -/
def Policer.pre (q : Policer) (l : L2) (ip : IpHdr) : Nat :=
  if !q.aware then 0
  else if q.src = 0 then q.map.getD ip.dscp.toNat 0
  else match l.outer with
    | some t => if t.tci.getLsbD 12 then 1 else 0
    | none => 0

/-- One policer judges a frame: the colour, and whether it marks it CE (R219, R220). -/
def State.policeOne (s : State) (i : Nat) (q : Policer) (l : L2) (ip : IpHdr) (b : Nat) (pre : Option Nat) : State × Nat × Bool :=
  let d := q.judge s.time b (pre.getD (q.pre l ip))
  ({ s with policers := tset s.policers i d.1 }, d.2, q.yellowCe && d.2 == 1 && ip.ecn != 0)

/-- The frame's policers judge it, first its port and class's, then its connection's: whether it passes, and whether it is marked
CE (R218). -/
def State.police (s : State) (p : LPort) (l : L2) (ip : IpHdr) (b : Nat) (conn : Option Nat) : State × Bool × Bool :=
  let cls := (s.port p).classOf ip.dscp.toNat
  let d1 := match s.policers.find? (fun (q : Nat × Policer) => match q.2.port with | some w => w.1 == p && w.2.val == cls | none => false) with
    | some q => (fun (r : State × Nat × Bool) => (r.1, some r.2.1, r.2.2)) (s.policeOne q.1 q.2 l ip b none)
    | none => (s, none, false)
  if d1.2.1 = some 2 then (d1.1, false, false)
  else match (match conn with | some n => d1.1.policers.find? (fun (q : Nat × Policer) => q.2.conn == some n) | none => none) with
    | some q =>
      let d2 := d1.1.policeOne q.1 q.2 l ip b d1.2.1
      (d2.1, d2.2.1 != 2, d1.2.2 || d2.2.2)
    | none => (d1.1, true, d1.2.2)

/-! ### Where a packet would place bytes -/

/-- The checks of R86 on a peer's access, as a REASON of R185; 0 when all pass. -/
def State.remoteReason (s : State) (f : FuncId) (k : Word32) (right off len : Nat) : Nat :=
  match s.region k with
  | none => 1
  | some r => if s.dying (keyIndex k) then 1 else if r.func != f then 2 else if !r.grants right then 3 else if off + len > r.length then 4 else 0

/-- The link of a host region is down or replaying: new frames for it are refused (R81 step 3). -/
def State.retraining (s : State) (r : Region) : Bool :=
  r.host && (!(s.link (linkOf r.func)).up || (s.link (linkOf r.func)).replaying)

/-- What a WRITE or SEND packet places, and where: (key, offset, length), or the NAK that refuses it: (RNR, REASON). -/
abbrev Target := Except (Bool × Nat) (Word32 × Nat × Nat)

/-- Where a native data packet's payload goes (R86, R152, R154, R171). -/
def State.targetOf (s : State) (n : Nat) (c : Conn) (fr : NFrame) : Target :=
  let len := fr.payload.length
  if fr.type = 0x03 then
    let total := fr.offset.toNat / 2 ^ 32
    let off := fr.offset.toNat % 2 ^ 32
    match s.recvFor n c fr.key.toNat with
    | none => .error (true, 1)
    | some (_, j) =>
      if total > netLen j.ent ∨ off + len > total then .error (false, 8)
      else match s.remoteReason c.func (netKey j.ent) accLocalWrite (netOff j.ent + off) len with
        | 0 => .ok (netKey j.ent, netOff j.ent + off, len)
        | r => .error (false, r)
  else
    let n8 := if fr.type = 0x02 then 8 else len
    match s.remoteReason c.func fr.key accRemoteWrite fr.offset.toNat n8 with
    | 0 => if fr.imm.isSome && c.notifyCq.isNone then .error (false, 7) else .ok (fr.key, fr.offset.toNat, n8)
    | r => .error (false, r)

/-- The target refuses for the state of the path: retrain, then fence (R81, R73, R187). -/
def State.pathRefusal (s : State) (k : Word32) : Option Nat :=
  match s.region k with
  | none => none
  | some r => if s.retraining r then some 3 else if s.regionFenced r then some 6 else none

/-! ### Keys (R197 to R200) -/

/-- The receive key for a frame's KEY_PHASE, and whether it is the next one (R200). -/
def Conn.rxKeyFor (c : Conn) (phase : Bool) : Option Nat × Bool :=
  if phase == c.rxPhase then (c.rxKey, false)
  else match c.oldRx with
    | some k => (some k, false)
    | none => (c.nextRx, true)

/-- The frame in plain text, with whether its tag holds and whether it came under the next key. A frame of a connection without
encryption carries no tag. -/
def State.openFrame (s : State) (c : Conn) (fr : NFrame) : NFrame × Bool × Bool :=
  if !c.encrypt ∨ fr.type.toNat ≥ 0x40 then (fr, !bit fr.flags.toNat 7, false)
  else
    let k := c.rxKeyFor (bit fr.flags.toNat 1)
    match k.1.bind (fun i => tget s.keys i) with
    | some key => if bit fr.flags.toNat 7 then (let d := fr.decrypted key; (d.1, d.2, k.2)) else (fr, false, false)
    | none => (fr, false, false)

/-- A frame under the next receive key has come: it is the key in use, and the lowest PSN of the new phase is kept (R200). -/
def State.noteKeyPhase (s : State) (n : Nat) (fr : NFrame) (isNext : Bool) : State :=
  let data := fr.type != 0x05 && fr.type != 0x07
  s.modConn n (fun c =>
    let c1 := if isNext then { c with oldRx := c.rxKey, rxKey := c.nextRx, nextRx := none, rxPhase := !c.rxPhase } else c
    if data && c1.encrypt && c1.oldRx.isSome && bit fr.flags.toNat 1 == c1.rxPhase then
      { c1 with rxPhasePsn := match c1.rxPhasePsn with
          | none => some fr.psn.toNat
          | some q => some (if c1.psnSub q fr.psn.toNat < 2 ^ 31 then fr.psn.toNat else q) }
    else c1)

/-- A tag that fails is counted (R198). -/
def State.authFailure (s : State) (n : Nat) (c : Conn) : State :=
  (s.modConn n (fun v => { v with stats := { v.stats with authFailures := satAdd max32 v.stats.authFailures 1 } })).count c.func cntAuthFailures 1

/-- A new packet fails its tag when it is judged: counted, and its PSN gets a FAILED_COPY mark; its plaintext may lie in the target (R17,
R20, R174, R198). -/
def State.tagFailed (s : State) (n : Nat) (c : Conn) (psn : Nat) (target : List (Nat × Nat)) : State :=
  let s1 := s.authFailure n c
  let have_ := c.rx.marks.any (fun m => m.psn == psn) || (match c.rx.epsnMark with | some m => m.psn == psn | none => false)
  if !have_ && !c.canMark psn then s1.beyond n
  else (if have_ then s1 else s1.keepMark n psn false).undefineRuns target

/-- A response fails its tag: the request it belongs to carries FAILED_COPY when it completes (R20, R198). -/
def State.respTagFailed (s : State) (n : Nat) (c : Conn) (fr : NFrame) : State :=
  let s1 := s.authFailure n c
  match s.awaiting c fr.psn.toNat (fr.type.toNat - 1) with
  | none => s1
  | some (r, j) =>
    let at_ := if fr.type = 0x07 then 0 else r.off + c.psnSub fr.psn.toNat r.psn * c.pmtuBytes
    (s1.modJob c.func r.ring r.slot (fun v => { v with failedCopy := true })).undefineRuns
      (s.localRuns (netKey j.ent) (netOff j.ent + at_) fr.payload.length)

/-! ### New packets with data (R174 step 5 and 6) -/

/-- A packet is taken: what it takes up of the receive buffer, its span and its LAST. Its PSN counts as written once its bytes are (R173,
R176, R243). -/
def State.takePacket (s : State) (n : Nat) (p : LPort) (cls len psn : Nat) (span : Option RxSpan) (last : Option RxLast) : State :=
  (s.rxHold p cls len).modRx n (fun r => { r with
    buffered := r.buffered ++ [(psn, p, cls, len)]
    spans := match span with
      | some w => r.spans.filter (fun x => x.psn != psn) ++ [w]
      | none => r.spans
    lasts := match last with
      | some w => r.lasts.filter (fun x => x.psn != psn) ++ [w]
      | none => r.lasts })

/-- The RxLast of a native packet with LAST. -/
def lastOf (fr : NFrame) : Option RxLast :=
  if bit fr.flags.toNat 4 then
    let ty := fr.type.toNat
    some (if ty ≥ 0x40 then ⟨fr.psn.toNat, ty, if fr.payload.length ≤ 16 then some (beNat fr.payload) else none, fr.offset.toNat, 0, fr.key.toNat⟩
      else ⟨fr.psn.toNat, ty, fr.imm.map BitVec.toNat, fr.offset.toNat, if ty = 0x03 then fr.offset.toNat / 2 ^ 32 else 0, fr.key.toNat⟩)
  else none

/-- Notes the message of a SEND packet that was taken or refused (R154). -/
def State.noteSend (s : State) (n : Nat) (fr : NFrame) : State :=
  if fr.type = 0x03 then s.modRx n (fun r => { r with sends := r.sends.filter (fun w => w.1 != fr.psn.toNat) ++ [(fr.psn.toNat, fr.key.toNat)] })
  else s

/-- Notes the LAST of a packet that is taken or refused (R176). -/
def State.noteLast (s : State) (n : Nat) (l : Option RxLast) : State :=
  match l with
  | none => s
  | some w => s.modRx n (fun r => { r with lasts := r.lasts.filter (fun x => x.psn != w.psn) ++ [w] })

/-- A new WRITE, WRITE_FLAG or SEND packet: refused, judged bad by its tag, or placed (R152, R154, R157, R174, R184, R185). A flag is held
until VPSN reaches it, and its PSN counts as written when it is written (R157, R173). -/
def State.newData (s : State) (n : Nat) (c : Conn) (p : LPort) (cls : Nat) (fr : NFrame) (tagOk : Bool) : State :=
  let psn := fr.psn.toNat
  match s.targetOf n c fr with
  | .error (true, reason) => s.nakRnr n reason psn (frameEcho fr)
  | .error (false, reason) => rxEnded n (((s.noteSend n fr).noteLast n (lastOf fr)).refusePacket n psn reason)
  | .ok (k, off, len) =>
    match s.pathRefusal k with
    | some reason => s.nakRnr n reason psn (frameEcho fr)
    | none =>
      if !tagOk then s.tagFailed n c psn (if fr.type = 0x02 then [] else s.localRuns k off len)
      else
        let first := bit fr.flags.toNat 5
        let span : Option RxSpan := if fr.type = 0x01 then some ⟨psn, k, off, len, first, off, 0, 0⟩ else none
        let s1 := (s.noteSend n fr).takePacket n p cls fr.l2.length psn span (lastOf fr)
        if fr.type = 0x02 then
          rxEnded n ((s1.modRx n (fun r => { r with
            flags := r.flags.filter (fun w => w.1 != psn) ++ [(psn, k.toNat, off, beNat (fr.payload.take 8))] })).progress n
              (frameEcho fr) false)
        else s1.startWrite c.func k off fr.payload (.packet n psn)

/-- The READ_REQ or ATOMIC_REQ of a frame as the responder's work; `some 6` where an atomic's target is misaligned or not MODULE
(R155, R171, R185). -/
def State.requestOf (s : State) (c : Conn) (fr : NFrame) : Except Nat RespWork :=
  if fr.type = 0x04 then
    let len := beNat (fr.payload.take 4)
    match s.remoteReason c.func fr.key accRemoteRead fr.offset.toNat len with
    | 0 => .ok ⟨fr.psn.toNat, fr.key, fr.offset.toNat, len, none, 0, 0, fr.path, 0⟩
    | r => .error r
  else
    match s.remoteReason c.func fr.key accRemoteAtomic fr.offset.toNat 8, s.region fr.key with
    | 0, some r =>
      if r.kind != .module || (r.place fr.offset.toNat).1 % 8 != 0 then .error 6
      else .ok ⟨fr.psn.toNat, fr.key, fr.offset.toNat, 8, some (beNat (fr.payload.take 1)), beNat ((fr.payload.drop 8).take 8),
        beNat ((fr.payload.drop 16).take 8), fr.path, 0⟩
    | 0, none => .error 1
    | r, _ => .error r

/-- Gives the responder a request to serve when every earlier placement is visible; one it is serving under the same PSN begins anew
(R157, R174). -/
def State.addWork (s : State) (n : Nat) (w : RespWork) : State :=
  (((s.dropWhere (fun p => p == .respond n w.psn))).modRx n (fun r => { r with work := r.work.filter (fun x => x.psn != w.psn) ++ [w] })).beginWork n

/-- The PSNs of a READ_REQ hold nothing to place: they are written and visible at once (R171, R173). -/
def State.passReadPsns (s : State) (n : Nat) (c : Conn) (psn count : Nat) : State :=
  let s1 := forEach (List.range count) s (fun st i => st.markWritten n (c.psnAdd psn i))
  rxEnded n (s1.becomeVisibleN n psn count)

/-- A new READ_REQ or ATOMIC_REQ: refused, judged bad by its tag, or taken, in the order of R174. Its LAST is the last of its PSNs; an
atomic counts as written when it is executed (R155, R157, R171, R173, R174, R176, R185). -/
def State.newRequest (s : State) (n : Nat) (c : Conn) (fr : NFrame) (tagOk : Bool) : State :=
  let psn := fr.psn.toNat
  match s.requestOf c fr, tagOk with
  | .ok _, false => s.tagFailed n c psn []
  | judged, _ =>
    let count := if fr.type = 0x04 then c.packets (beNat (fr.payload.take 4)) else 1
    let s1 := s.noteLast n ((lastOf fr).map (fun l => { l with psn := c.psnAdd psn (count - 1) }))
    match judged with
    | .error reason =>
      if !c.canMark psn then s.beyond n
      else
        let s2 := rxEnded n (s1.refusePacket n psn reason)
        if count ≤ 1 then s2 else s2.passReadPsns n c (c.psnAdd psn 1) (count - 1)
    | .ok w => if w.atomic.isSome then s1.addWork n w else (s1.addWork n w).passReadPsns n c psn count

/-- A duplicate: acknowledged once VPSN has passed it; a READ_REQ is served again, an ATOMIC_REQ answered with its saved result
(R24, R86, R156, R174, R177). -/
def State.duplicate (s : State) (n : Nat) (c : Conn) (fr : NFrame) : State :=
  let psn := fr.psn.toNat
  let e := frameEcho fr
  let s1 := s.modConn n (fun v => { v with stats := { v.stats with duplicates := satAdd max32 v.stats.duplicates 1 } })
  let s2 :=
    if fr.type = 0x04 then (match s.requestOf c fr with
      | .ok w => s1.addWork n w
      | .error reason => (if reason ≤ 4 then s1.count c.func cntRegionFault 1 else s1).sendAck n 0x12 (reason * 2 ^ 24) psn e)
    else if fr.type = 0x06 then (match c.rx.saved.find? (fun w => w.1 == psn) with
      | some w => (s1.sendResponse n 0x07 psn fr.path 0 true true (beBytes 8 w.2)).1
      | none => s1)
    else s1
  if c.psnSub (c.psnSub c.rx.vpsn 1) psn < 2 ^ 20 then s2.sendAck n 0x10 0 0 e
  else s2.modRx n (fun r => { r with owed := r.owed.filter (fun w => w != e) ++ [e] })

/-- Collective data that a slot cannot take is dropped and counted; the rest is gathered, and takes effect when VPSN passes it
(R258, R270, R278). -/
def State.newColl (s : State) (n : Nat) (c : Conn) (fr : NFrame) (tagOk : Bool) : State :=
  let g := fr.key.toNat
  let ty := fr.type.toNat
  if !s.collAllowed n ty g fr.offset.toNat then s.beyond n
  else if !tagOk then s.tagFailed n c fr.psn.toNat []
  else
    let s1 := if ty ≤ 0x41 then s.collGather n ty g fr.offset.toNat (bit fr.flags.toNat 5) fr.payload else s
    let s2 := (s1.noteLast n (lastOf fr)).markWritten n fr.psn.toNat
    rxEnded n (s2.becomeVisible n fr.psn.toNat)

/-- A packet of the PSN is being placed, or is an atomic still to be executed (log entry 62). -/
def Conn.placing (c : Conn) (psn : Nat) : Bool :=
  c.rx.buffered.any (fun b => b.1 == psn) || c.rx.work.any (fun w => w.psn == psn && w.atomic.isSome)

/-- Steps 4 to 6 of R174 on a data or request packet in plain text; `tagOk`: it is not judged bad by its tag. A second copy of a packet
that is still being placed counts as a duplicate (log entry 62). -/
def State.sequence (s : State) (n : Nat) (c : Conn) (p : LPort) (cls : Nat) (fr : NFrame) (tagOk : Bool) : State :=
  let psn := fr.psn.toNat
  let d := c.psnSub psn c.rx.epsn
  let e := frameEcho fr
  if d ≥ 2 ^ 32 - 2 ^ 20 ∨ (d < 1024 ∧ (c.rx.bitmap.contains psn || c.placing psn)) then
    (if tagOk || (fr.type != 0x04 && fr.type != 0x06) then s.duplicate n c fr else s.authFailure n c)
  else if d ≥ 1024 then s.beyond n
  else if c.mode == .pinned && d != 0 then
    let s1 := s.beyond n
    if c.rx.nakSeqSent then s1 else (s1.modRx n (fun r => { r with nakSeqSent := true })).sendAck n 0x13 0 0 e
  else
    let s1 := s.modRx n (fun r => { r with arrived := r.arrived.filter (fun w => w.1 != psn) ++ [e] })
    let c1 := { c with rx := { c.rx with arrived := c.rx.arrived.filter (fun w => w.1 != psn) ++ [e] } }
    let s2 :=
      if fr.type.toNat ≥ 0x40 then s1.newColl n c1 fr tagOk
      else if fr.type = 0x04 ∨ fr.type = 0x06 then s1.newRequest n c1 fr tagOk
      else s1.newData n c1 p cls fr tagOk
    let took := match s2.conn n with
      | some v => v.written psn || v.placing psn
      | none => false
    if took then s2 else s2.modRx n (fun r => { r with arrived := r.arrived.filter (fun w => w.1 != psn) })

/-- A frame judged bad: nothing but the bytes it would have placed changes (R17, R19, R174). -/
def State.badFrame (s : State) (n : Nat) (c : Conn) (fr : NFrame) : State :=
  let psn := fr.psn.toNat
  let d := c.psnSub psn c.rx.epsn
  if c.state != .ready || !(fr.type == 0x01 || fr.type == 0x03) || decide (d ≥ 1024) || (c.mode == .pinned && d != 0) ||
      c.rx.bitmap.contains psn || c.placing psn then s
  else match s.targetOf n c fr with
    | .ok (k, off, len) => if (s.pathRefusal k).isSome then s else s.undefineRuns (s.localRuns k off len)
    | .error _ => s

/-! ### Responses and acknowledgements -/

/-- A READ_RESP or ATOMIC_RESP goes to the local region of the request that awaits its PSN (R151, R155, R183). -/
def State.response (s : State) (n : Nat) (c : Conn) (p : LPort) (cls : Nat) (len psn : Nat) (atomic : Bool) (payload : Bytes) : State :=
  match s.awaiting c psn (if atomic then 0x06 else 0x04) with
  | none => s
  | some (r, j) =>
    let purpose := if atomic then Purpose.atomicResp n psn else Purpose.readResp n psn
    if s.inFlight purpose then s
    else
      let at_ := r.off + c.psnSub psn r.psn * c.pmtuBytes
      let data := if atomic then leBytes 8 (beNat (payload.take 8)) else payload.take (r.off + r.len - at_)
      let s1 := ((s.rxHold p cls len).modRx n (fun v => { v with buffered := v.buffered ++ [(psn + 2 ^ 32, p, cls, len)] })).count
        c.func cntNetRx data.length
      s1.startWrite c.func (netKey j.ent) (netOff j.ent + (if atomic then 0 else at_)) data purpose

/-- The report of an ack body (R172). -/
def ackInfo (fr : NFrame) : AckInfo :=
  let fl := fr.flags.toNat
  ⟨fr.psn.toNat, if fr.type = 0x13 then 0 else fr.offset.toNat,
   match fr.ack with
   | some a => (match a.xsack with | some x => if bit fl 0 then x.toNat else 0 | none => 0)
   | none => 0,
   fr.ack.map (fun a => a.credit.toNat), some fr.key.toNat, bit fl 3, bit fl 2, bit fl 1, fr.type == 0x10,
   if fr.type = 0x12 then some fr.nakPsn else none, some fr.path⟩

/-- An acknowledgement's report is taken; a sender that credit held back and that now has more leaves a trace record (R172,
R433). -/
def State.takeAck (s : State) (n : Nat) (a : AckInfo) : State :=
  match s.conn n with
  | none => s
  | some c =>
    let blocked := !c.tx.queue.isEmpty && decide (c.psnSub c.tx.next c.tx.una ≥ c.tx.credit)
    let s1 := s.onAck n a
    match s1.conn n with
    | none => s1
    | some v =>
      if blocked && decide (v.tx.credit > c.tx.credit) then
        s1.traceRecord (dieOf c.func) c.func 0x08 n c.peer v.tx.credit (s.time - c.tx.lastNew)
      else s1

/-- An acknowledgement, NAK or probe reaches a READY connection (R172, R175, R181 to R185, R193). -/
def State.control (s : State) (n : Nat) (c : Conn) (fr : NFrame) : State :=
  if fr.type = 0x10 then s.takeAck n (ackInfo fr)
  else if fr.type = 0x11 then
    let s1 := (s.takeAck n (ackInfo fr)).onNakRnr n fr.nakPsn fr.reason
    if fr.reason = 4 then s1.edgeLost n 1 else s1
  else if fr.type = 0x12 then s.takeAck n (ackInfo fr)
  else if fr.type = 0x13 then (s.takeAck n (ackInfo fr)).resendFrom n fr.psn.toNat
  else if fr.type = 0x14 then s.connError n
  else if fr.type = 0x20 then
    (s.sendOn n c fr.path s.relay.epoch (fun q =>
      .native (s.nativeFrame n c q fr.path 0x21 (flagBit 6 s.relay.epoch) 0 0 fr.offset.toNat none none []))).1
  else if fr.type = 0x21 then s.probeReply n fr.path
  else s

/-- The types of acknowledgements, NAKs and probes. -/
def isControl (ty : Byte) : Bool := decide (0x10 ≤ ty.toNat) && decide (ty.toNat ≤ 0x21)

/-! ### The steps of R174 -/

/-- Frames and bytes that a die's miss buffer holds (R141). -/
def State.missed (s : State) (d : DieId) : Nat × Nat :=
  s.conns.foldl (fun (a : Nat × Nat) (q : Nat × Conn) =>
    if dieOf q.2.func == d then
      (a.1 + q.2.missed.length + q.2.missedRoce.length,
       a.2 + (q.2.missed.map (fun w => w.2.l2.length)).sum + (q.2.missedRoce.map (fun w => w.2.l2.length)).sum)
    else a) (0, 0)

/-- A frame of a connection whose context is not cached is held, and the context fetched; past a limit it is dropped and counted
(R140, R141). -/
def State.missFrame (s : State) (n : Nat) (c : Conn) (len : Nat) (hold : Conn → Conn) : State :=
  let d := dieOf c.func
  let m := s.missed d
  let fetches := (s.conns.filter (fun (q : Nat × Conn) => q.2.ctx == .fetching && dieOf q.2.func == d)).length
  if m.1 ≥ 1024 ∨ m.2 + len > 4194304 ∨ c.missed.length + c.missedRoce.length ≥ 64 ∨ (c.ctx = .backing ∧ fetches ≥ 256) then
    (s.modConn n (fun v => { v with stats := { v.stats with missDrops := satAdd max32 v.stats.missDrops 1 } })).count c.func cntMissDrop 1
  else ((s.modConn n hold).peakGlobal 4 (4 * d.val + 1) (m.1 + 1)).fetchContext n

/-- The source address a peer's frames carry (R145, R174). -/
def Conn.sourceOk (c : Conn) (src : BitVec 128) : Bool := src == (if c.node then Config.nodeAddr c.nodeOf else c.peerAddr)

/-- Steps 2 to 6 with the context at hand. A connection in RESET has no peer to compare with; the ACKs, NAKs and probes that reach it are
ignored: DESIGN CHOICE, R146 answers any frame with receiver-not-ready, R184 only packets that cannot be placed (log entry 153; R146,
R174). -/
def State.live (s : State) (n : Nat) (c : Conn) (p : LPort) (cls : Nat) (fr : NFrame) (good : Bool) : State :=
  if c.state ≠ .reset ∧ (fr.srcConn.toNat % 2 ^ 24 != c.peer || !c.sourceOk fr.ip.src) then s.countPort p 7 1
  else if !good then s.badFrame n c fr
  else if c.state = .error then s.nakClosed p fr (some (n, c))
  else if isControl fr.type then (if c.state = .ready then (s.touchConn n).control n c fr else s)
  else if c.state = .reset then s.nakReset n c p fr
  else if c.state = .frozen ∨ s.fenced c.func ∨ (s.func c.func).cfg.d3hot then s.nakRnr n 4 fr.psn.toNat (frameEcho fr)
  else if fr.type.toNat ≥ 0x40 ∧ c.edge.isNone then s.countPort p 7 1
  else
    let o := s.openFrame c fr
    let s1 := s.touchConn n
    if !o.2.1 && !c.encrypt then s1.countPort p 7 1
    else
      let s2 := if o.2.1 then (s1.noteKeyPhase n fr o.2.2).dropOldRx n else s1
      match s2.conn n with
      | none => s2
      | some v =>
        if fr.type = 0x05 ∨ fr.type = 0x07 then
          (if o.2.1 then s2.response n v p cls fr.l2.length fr.psn.toNat (fr.type == 0x07) o.1.payload else s2.respTagFailed n v fr)
        else s2.sequence n v p cls o.1 o.2.1

/-- Steps 1 to 6 of R174 on a frame that the link layer and the policers let through; `good`: it was judged good so far. -/
def State.rxTransport (s : State) (p : LPort) (fr : NFrame) (good : Bool) : State :=
  let n := fr.dstConn.toNat % 2 ^ 24
  let cls := (s.port p).classOf fr.ip.dscp.toNat
  match s.conn n with
  | none => if good then s.nakClosed p fr none else s
  | some c =>
    if c.mode == .roce then (if good then s.nakClosed p fr none else s)
    else if c.ctx = .writingBack then
      -- the eviction is cancelled and the context used in place (R142)
      let s1 := s.fetchContext n
      match s1.conn n with
      | none => s1
      | some v => s1.live n v p cls fr good
    else if c.ctx != .cached then
      if good then s.missFrame n c fr.l2.length (fun v => { v with missed := v.missed ++ [(p, fr)] }) else s
    else s.live n c p cls fr good

/-- A native frame for this module, known by its UDP destination port: link layer, version, policing, then R174 (R169, R218, R235,
R238). -/
def State.rxNative (s : State) (p : LPort) (fr : NFrame) : State :=
  let cls := (s.port p).classOf fr.ip.dscp.toNat
  if !s.portUp p || !(s.port p).knowsTags fr.l2 || !s.addressed p fr.l2.da || !s.forMe fr || fr.udpDst != s.nativePort then s
  else match s.rxLink p fr.l2 cls with
    | (s1, none) => s1
    | (s1, some good) =>
      if fr.version != 1 || decide (fr.l2.length < 78) then s1.countPort p 7 1
      else
        let d := s1.police p fr.l2 fr.ip fr.ipLen (if (s1.conn (fr.dstConn.toNat % 2 ^ 24)).isSome then some (fr.dstConn.toNat % 2 ^ 24) else none)
        if !d.2.1 then d.1
        else
          let fr1 := if d.2.2 then { fr with ip := { fr.ip with ecn := 3 } } else fr
          (d.1.rxCross p (d.1.rxDie p (fr.dstConn.toNat % 2 ^ 24)) fr.l2.length).rxTransport p fr1 (good && fr.l2.length == fr.wireLen)

/-- A frame arrives. During a global stop the port's receive buffer holds it, and one that finds no room is dropped and counted
(R445). -/
def State.frameArrival (s : State) (p : LPort) (l : L2) (cls : Nat) (c : Instr) (g : State → State) : Out :=
  next (if !s.power.on then s
    else if s.stop.stopped then
      (if !s.portUp p then s
       else if s.rxRoom p cls l.length then (s.rxHold p cls l.length).holdArrival c
       else ((s.countPort p 0 1).countPort p 1 l.length).countPort p 20 1)
    else (g s).settle)

/-- Class of an IP frame (R243). -/
def State.ipClass (s : State) (p : LPort) (ip : IpHdr) : Nat := (s.port p).classOf ip.dscp.toNat

/-- A native row: an arriving frame of the row's type. -/
def State.rxRow (s : State) (p : LPort) (fr : NFrame) (ty : Byte) (c : Instr) : Out :=
  if fr.type != ty then next s else s.frameArrival p fr.l2 (s.ipClass p fr.ip) c (fun st => st.rxNative p fr)

/-- RX_WRITE (R174, R176). -/
def execRxWrite (p : LPort) (fr : NFrame) (s : State) : Out := s.rxRow p fr 0x01 (.rxWrite p fr)
/-- RX_WRITE_FLAG (R157, R171). -/
def execRxWriteFlag (p : LPort) (fr : NFrame) (s : State) : Out := s.rxRow p fr 0x02 (.rxWriteFlag p fr)
/-- RX_SEND (R154). -/
def execRxSend (p : LPort) (fr : NFrame) (s : State) : Out := s.rxRow p fr 0x03 (.rxSend p fr)
/-- RX_READ_REQ (R157, R171). -/
def execRxReadReq (p : LPort) (fr : NFrame) (s : State) : Out := s.rxRow p fr 0x04 (.rxReadReq p fr)
/-- RX_READ_RESP (R151, R183). -/
def execRxReadResp (p : LPort) (fr : NFrame) (s : State) : Out := s.rxRow p fr 0x05 (.rxReadResp p fr)
/-- RX_ATOMIC_REQ (R155, R156). -/
def execRxAtomicReq (p : LPort) (fr : NFrame) (s : State) : Out := s.rxRow p fr 0x06 (.rxAtomicReq p fr)
/-- RX_ATOMIC_RESP (R155). -/
def execRxAtomicResp (p : LPort) (fr : NFrame) (s : State) : Out := s.rxRow p fr 0x07 (.rxAtomicResp p fr)
/-- RX_ACK (R172). -/
def execRxAck (p : LPort) (fr : NFrame) (s : State) : Out := s.rxRow p fr 0x10 (.rxAck p fr)
/-- RX_NAK_RNR (R184). -/
def execRxNakRnr (p : LPort) (fr : NFrame) (s : State) : Out := s.rxRow p fr 0x11 (.rxNakRnr p fr)
/-- RX_NAK_ACCESS (R185). -/
def execRxNakAccess (p : LPort) (fr : NFrame) (s : State) : Out := s.rxRow p fr 0x12 (.rxNakAccess p fr)
/-- RX_NAK_SEQ (R175). -/
def execRxNakSeq (p : LPort) (fr : NFrame) (s : State) : Out := s.rxRow p fr 0x13 (.rxNakSeq p fr)
/-- RX_NAK_CLOSED (R182). -/
def execRxNakClosed (p : LPort) (fr : NFrame) (s : State) : Out := s.rxRow p fr 0x14 (.rxNakClosed p fr)
/-- RX_PROBE (R193). -/
def execRxProbe (p : LPort) (fr : NFrame) (s : State) : Out := s.rxRow p fr 0x20 (.rxProbe p fr)
/-- RX_PROBE_REPLY (R193). -/
def execRxProbeReply (p : LPort) (fr : NFrame) (s : State) : Out := s.rxRow p fr 0x21 (.rxProbeReply p fr)

/-- RX_COLL_UP (R280). -/
def execRxCollUp (p : LPort) (fr : NFrame) (s : State) : Out := s.rxRow p fr 0x40 (.rxCollUp p fr)
/-- RX_COLL_DOWN (R280, R282). -/
def execRxCollDown (p : LPort) (fr : NFrame) (s : State) : Out := s.rxRow p fr 0x41 (.rxCollDown p fr)
/-- RX_COLL_REPORT (R283). -/
def execRxCollReport (p : LPort) (fr : NFrame) (s : State) : Out := s.rxRow p fr 0x42 (.rxCollReport p fr)
/-- RX_COLL_SEAL (R283). -/
def execRxCollSeal (p : LPort) (fr : NFrame) (s : State) : Out := s.rxRow p fr 0x43 (.rxCollSeal p fr)
/-- RX_COLL_REPAIR (R284). -/
def execRxCollRepair (p : LPort) (fr : NFrame) (s : State) : Out := s.rxRow p fr 0x44 (.rxCollRepair p fr)
/-- RX_COLL_GRANT (R270). -/
def execRxCollGrant (p : LPort) (fr : NFrame) (s : State) : Out := s.rxRow p fr 0x45 (.rxCollGrant p fr)

/-- The first block of a connection's slot in the backing store: slots of 256 bytes, in the order of the numbers and of the stacks; DESIGN
CHOICE, R138 leaves the places to the module (log entry 162). -/
def State.contextBlock (s : State) (n : Nat) : Nat := s.mem.layout.areaBase (n / 2 ^ 22 % 4) 0 / 64 + n % 2 ^ 22 * 4

/-- CONTEXT_FETCH_DONE: the context is in the cache and its waiting frames are processed in order; a context that cannot be read puts its
connection in ERROR, whatever its state, and the read's block is counted, repaired or poisoned as for any read (R140, R343 to R345). -/
def State.contextFetched (s : State) (n : Nat) (obs : BlockObs) : State :=
  match s.conn n with
  | none => s
  | some c =>
    if c.ctx != .fetching then s
    else
      let s1 := s.modConn n (fun v => { v with ctx := .cached, missed := [] })
      let d := s1.decodeBlock (s1.contextBlock n) obs
      let s2 := if d.2.1 then (d.1.fault 4 2 (some c.func) n 0 0).toError n else d.1
      forEach c.missed s2 (fun st (w : LPort × NFrame) => st.rxTransport w.1 w.2 true)

/-- CONTEXT_WRITE_BACK_DONE (R138, R142). -/
def execContextWriteBackDone (conn : Nat) (s : State) : Out :=
  s.engine (fun st => st.modConn conn (fun c => if c.ctx = .writingBack then { c with ctx := .backing } else c))

end Sys2Proof.Machine
end

