-- ==== Sys2Proof/Machine/RxPort.lean ====
section
/-! DEFINITION. Machine/RxPort.lean: frames that a port keeps for itself or hands to a raw queue, a drill program or the relay
(R28, R238 to R249, R328, R329, R364 to R368), and the timers of its pauses and of preemption. -/

namespace Sys2Proof.Machine

/-! ### Dispatch of other frames (R238, R246) -/

/-- Where dispatch sends a frame that is neither MAC control, preemption verification nor transport. -/
inductive Dest where
  /-- A raw queue, with the MATCH of its prefix and whether a management address matched (R248). -/
  | raw (queue matched : Nat) (mgmt : Bool)
  | daDrop
  /-- MAC control: neither relayed nor delivered (R238 step 1). -/
  | control
  /-- The DROP action of a filter (R246). -/
  | filterDrop
  | drill (prog : Nat)
  | noMatch
  /-- Native or RoCE v2 transport, or the relay. -/
  | transport
  deriving DecidableEq, Repr

/-- VID and PCP of a frame's outer tag, 0 without one. -/
def tagFields (l : L2) : Option (BitVec 12 × BitVec 3) := l.outer.map (fun t => (t.tci.extractLsb' 0 12, t.tci.extractLsb' 13 3))

/-- Whether a filter entry matches a frame (R246). -/
def Filter.matches (w : Filter) (fr : EFrame) : Bool :=
  (match tagFields fr.l2 with
   | some t => (t.1 &&& w.vidMask) == (w.vid &&& w.vidMask) && (t.2 &&& w.pcpMask) == (w.pcp &&& w.pcpMask)
   | none => w.vidMask == 0 && w.pcpMask == 0) && (!w.etypeEn || fr.etype == w.etype)

/-- A frame as a port parses its tags: one whose outer TPID is neither 0x8100 nor TAG_TPID is untagged and of that EtherType; a second tag
counts with TPID 0x8100 only; with a third one the frame is not IP (R244). -/
def PortSt.sees (v : PortSt) (fr : EFrame) : EFrame :=
  match fr.l2.outer, fr.l2.inner with
  | some t, i =>
    if t.tpid != 0x8100 && t.tpid != v.tpid then
      { fr with etype := t.tpid, ip := none, udpDst := none, l2 := { fr.l2 with outer := none, inner := none } }
    else match i with
      | some u =>
        if u.tpid != 0x8100 then { fr with etype := u.tpid, ip := none, udpDst := none, l2 := { fr.l2 with inner := none } }
        else if fr.etype = 0x8100 then { fr with ip := none, udpDst := none } else fr
      | none => fr
  | none, _ => fr

/-- Steps 1 and 3 to 9 of R238 for a frame on a port. -/
def State.dispatch (s : State) (p : LPort) (fr : EFrame) : Dest :=
  let v := s.port p
  if fr.etype = 0x8808 && fr.l2.outer.isNone then .control
  else match v.mgmt.find? (fun (m : Nat × BitVec 48 × Nat) => m.2.1 == fr.l2.da) with
  | some m => .raw m.2.2 m.1 true
  | none =>
    if fr.l2.da != v.mac && fr.l2.da != broadcast then .daDrop
    else if fr.ip.isSome && (fr.udpDst == some s.nativePort || fr.udpDst == some 4791) then .transport
    else match v.filters.find? (fun (w : Nat × Filter) => w.2.matches fr) with
      | some w => if w.2.action = 0 then .filterDrop else if w.2.action = 1 then .raw w.2.queue w.1 false else .drill w.2.program
      | none => match v.defaultQ with
        | some q => .raw q 0xFF false
        | none => .noMatch

/-- Class of any received frame: DSCP_MAP for IP, PCP for tagged non-IP, 0 otherwise (R243). -/
def State.rxClass (s : State) (p : LPort) (fr0 : EFrame) : Nat :=
  let fr := (s.port p).sees fr0
  match fr.ip with
  | some h => (s.port p).classOf h.dscp.toNat
  | none => match tagFields fr.l2 with
    | some t => t.2.toNat
    | none => 0

/-- A frame through the link layer and, past step 4 of R238, the policers, which count its length by the IP length field: nothing where it
is discarded, else whether it is good, and the frame as it goes on (R218, R220). -/
def State.rxOther (s : State) (p : LPort) (fr : EFrame) : State × Option (Bool × EFrame) :=
  let d := s.rxLink p fr.l2 (s.rxClass p fr)
  match d.2 with
  | none => (d.1, none)
  | some good =>
    match fr.ip, s.dispatch p fr with
    | _, .raw _ _ true => (d.1, some (good, fr))
    | _, .daDrop => (d.1, some (good, fr))
    | some ip, _ =>
      let tpid := (s.port p).tpid
      let j := d.1.police p fr.l2 ip (rawIpLen tpid fr.bytes) none
      (j.1, if j.2.1 then some (good && fr.lengthOk tpid, if j.2.2 then fr.markCe tpid else fr) else none)
    | none, _ => (d.1, some (good, fr))

/-- RX_FRAME_DISCARD: a runt, oversize or bad frame, one not addressed to the port, and one that nothing takes (R235, R238). -/
def State.rxDiscard (s : State) (p : LPort) (fr : EFrame) : State :=
  let d := s.rxOther p fr
  match d.2 with
  | some (true, _) => (match s.dispatch p fr with
    | .daDrop => d.1.countPort p 12 1
    | .control => s
    | .filterDrop => d.1
    | .noMatch => d.1.countPort p 13 1
    | _ => s)
  | some (false, _) => (match s.dispatch p fr with
    | .drill _ => s
    | .transport => s
    | .control => s
    | _ => d.1)
  | none => d.1

/-- RX_FRAME_DISCARD (R235, R238). -/
def execRxFrameDiscard (p : LPort) (fr : EFrame) (s : State) : Out :=
  s.frameArrival p fr.l2 (s.rxClass p fr) (.rxFrameDiscard p fr) (fun st => st.rxDiscard p ((st.port p).sees fr))

/-! ### Raw queues (R247, R248) -/

/-- The frame as a raw queue receives it: its prefix, then its bytes, the outer tag removed with STRIP (R244, R248). -/
def State.rawBytes (s : State) (p : LPort) (fr : EFrame) (matched : Nat) (mgmt : Bool) : Bytes :=
  let strip := (s.port p).strip && fr.l2.outer.isSome
  let tci := match fr.l2.outer with
    | some t => if strip then t.tci.toNat else 0
    | none => 0
  leBytes 8 (s.stampNow (s.portMbps p)) ++ leBytes 2 tci ++ leBytes 1 (b2n strip + 2 * b2n mgmt + 4 * b2n fr.preempted) ++
  leBytes 1 matched ++ leBytes 1 p.val ++ zeros 3 ++ (if strip then fr.bytes.take 12 ++ fr.bytes.drop 16 else fr.bytes)

/-- A judged frame goes into the oldest RECV of its raw queue, the receive buffer holding it until it is placed, or is dropped and
counted; so is one that the staging of its die has no room for (R180, R243, R247). -/
def State.rxRaw (s : State) (p : LPort) (cls : Nat) (fr : EFrame) (queue matched : Nat) (mgmt : Bool) : State :=
  let drop := s.countPort p 14 1
  match tget (s.port p).rawqs queue with
  | none => drop
  | some q => match q.recv with
    | none => drop
    | some r => match s.ring q.func r with
      | none => drop
      | some g => match g.jobs.find? (fun j => j.phase == .posted && entOp j.ent == 0x13) with
        | none => drop
        | some j =>
          let bytes := s.rawBytes p fr matched mgmt
          if bytes.length > netLen j.ent || s.fenced q.func || !s.rawRoom (dieOf q.func) bytes.length then drop
          else
            let s1 := s.modJob q.func r j.slot (fun w => { w with phase := .writing })
            if (s1.accessOk q.func (netKey j.ent) accLocalWrite (netOff j.ent) bytes.length).isSome then
              ((s1.rxKeep p (.raw q.func r j.slot) cls fr.l2.length).rxCross p (dieOf q.func) fr.l2.length).startWrite q.func (netKey j.ent) (netOff j.ent) bytes (.rawRecv q.func r j.slot)
            else (s1.count q.func cntRegionFault 1).finishJob q.func r j.slot stAccessFault

/-- RX_RAW_FRAME: judged whole before a byte is placed (R247). -/
def execRxRawFrame (p : LPort) (fr : EFrame) (s : State) : Out :=
  s.frameArrival p fr.l2 (s.rxClass p fr) (.rxRawFrame p fr) (fun st =>
    let w := (st.port p).sees fr
    match st.dispatch p w with
    | .raw q m g =>
      let d := st.rxOther p w
      (match d.2 with
      | some (true, f) => d.1.rxRaw p (st.rxClass p fr) f q m g
      | _ => d.1)
    | _ => st)

/-! ### Drill programs (R328, R329) -/

/-- The FRAME input of a program that frames of a logical port reach: START_INPUT if it is one of that port's, else the first (R317,
R328). -/
def Prog.inputOn (q : Prog) (p : LPort) : Option Binding :=
  let here := q.frameInputs.filter (fun b => bits b.a 7 0 == p.val)
  match here.find? (fun b => b.index == q.startInput) with
  | some b => some b
  | none => here.head?

/-- A frame for a program: queued in the receive buffer for its next run, or dropped and counted (R243, R322, R328). -/
def State.rxDrill (s : State) (p : LPort) (cls : Nat) (fr : EFrame) (n : Nat) : State :=
  let none_ := s.countPort p 13 1
  match s.prog n with
  | none => none_
  | some q => match q.inputOn p with
    | none => none_
    | some b =>
      if q.loading || q.unloading then none_
      else if fr.bytes.length + 4 < bits b.b 15 0 + bits b.b 31 16 then s.modProg n (fun v => { v with short := satAdd max32 v.short 1 })
      else
        let starts := q.startKind == 2 && b.index == q.startInput
        let room := bits b.b 39 32 + b2n (starts && q.current.isNone && q.state == .ready)
        if q.frames.countP (fun w => w.1 == b.index) ≥ room then s.modProg n (fun v => { v with overrun := satAdd max32 v.overrun 1 })
        else ((s.rxKeep p (.drill n b.index) cls fr.l2.length).fabSend (.portMac (physOf p)) (.furrow (q.furrows.headD 0)) .dreq
            fr.l2.length).modProg n (fun v => { v with
          frames := v.frames ++ [(b.index, fr)]
          waitSince := if starts && v.current.isNone && (v.frameOf b.index).isNone then s.time else v.waitSince })

/-- RX_DRILL_FRAME: the run begins before the frame is judged (R328, R329). -/
def execRxDrillFrame (p : LPort) (fr : EFrame) (s : State) : Out :=
  s.frameArrival p fr.l2 (s.rxClass p fr) (.rxDrillFrame p fr) (fun st =>
    let w := (st.port p).sees fr
    match st.dispatch p w with
    | .drill n =>
      let d := st.rxOther p w
      (match d.2 with
      | some (_, f) => d.1.rxDrill p (st.rxClass p fr) f n
      | none => d.1)
    | _ => st)

/-- DRILL_FRAME_VERDICT (R329). -/
def execDrillFrameVerdict (prog : Nat) (good : Bool) (s : State) : Out := s.engine (fun st => st.frameVerdict prog good)

/-! ### Pause and priority flow control (R242, R243) -/

/-- A port's own hardware runs through a global stop (R445); it needs power and a port that is up. -/
def State.portEvent (s : State) (p : LPort) (g : State → State) : Out := next (if !s.power.on || !s.portUp p then s else g s)

/-- RX_PAUSE (R242). -/
def execRxPause (p : LPort) (quanta : BitVec 16) (s : State) : Out :=
  s.portEvent p (fun st =>
    let s1 := st.countPort p 16 1
    if (st.port p).flow = 1 then s1.modPort p (fun v => { v with paused := quanta != 0 }) else s1)

/-- RX_PFC (R242). -/
def execRxPfc (p : LPort) (enables : BitVec 8) (quanta : List (BitVec 16)) (s : State) : Out :=
  s.portEvent p (fun st =>
    let s1 := st.countPort p 18 1
    if (st.port p).flow = 2 then
      s1.modPort p (fun v => ((List.range 8).filter (fun k => bit enables.toNat k)).foldl (fun (w : PortSt) k =>
        w.modCls k (fun c => { c with pfcPaused := quanta.getD k 0 != 0 })) v)
    else s1)

/-- PAUSE_QUANTA_EXPIRY: the whole port's pause ends, or one class's (R242). -/
def execPauseQuantaExpiry (p : LPort) (cls : Option ClassId) (s : State) : Out :=
  s.portEvent p (fun st => st.modPort p (fun v => match cls with
    | none => { v with paused := false }
    | some k => v.modCls k.val (fun c => { c with pfcPaused := false })))

/-- PFC_XOFF_REFRESH: XOFF is repeated while the buffer stays above XON; in a global stop every class of PFC_CLASSES is held in
XOFF, and in PAUSE mode quanta 0xFFFF are repeated (R243, R445). -/
def execPfcXoffRefresh (p : LPort) (cls : ClassId) (s : State) : Out :=
  s.portEvent p (fun st =>
    let v := st.port p
    if st.stop.stopped && v.flow == 1 then (st.emit (.pause p 0xFFFF)).countPort p 17 1
    else if v.pfcOn cls.val && (st.stop.stopped || ((v.cls cls.val).xoffSent && decide ((v.cls cls.val).rxBytes > v.xon))) then
      ((st.emit (.pfc p cls v.pfcQuanta)).countPort p 19 1).modPort p (fun w => w.modCls cls.val (fun c => { c with xoffSent := true }))
    else st)

/-! ### Preemption verification (R239) -/

/-- RX_PREEMPT_VERIFY: a verify frame is answered; the first response makes preemption active (R239). -/
def execRxPreemptVerify (p : LPort) (respond : Bool) (s : State) : Out :=
  s.portEvent p (fun st =>
    if !respond then st.emit (.respond p)
    else if (st.port p).preempt && decide ((st.port p).verifySent > 0) && decide ((st.port p).verifySent ≤ 3) then
      st.modPort p (fun v => { v with preemptActive := true })
    else st)

/-- PREEMPT_VERIFY_TIMEOUT: up to three verify frames, 10 ms apart; then the failure is counted (R239). -/
def execPreemptVerifyTimeout (p : LPort) (s : State) : Out :=
  s.portEvent p (fun st =>
    let v := st.port p
    if !v.preempt || v.preemptActive || v.verifySent = 0 || decide (v.verifySent > 3) then st
    else if v.verifySent < 3 then (st.emit (.verify p)).modPort p (fun w => { w with verifySent := w.verifySent + 1 })
    else (st.countPort p 22 1).modPort p (fun w => { w with verifySent := 4 }))

/-! ### Relay (R28, R364 to R368) -/

/-- EPOCH of a native frame (R170). -/
def frameEpoch (fr : NFrame) : Bool := bit fr.flags.toNat 6

/-- A frame for another node: forwarded cut-through, stored and forwarded, or dropped and counted. A frame that proves bad after its
cut-through has begun, an oversize one with the bytes received, ends with an inverted frame check sequence. That the egress queue is empty
is taken to mean that the frame's class queue is empty and the port sends nothing: DESIGN CHOICE, R28 does not say which (R28, R180, R235,
R236, R241, R364 to R368, log entry 58). -/
def State.relayOn (s : State) (p : LPort) (fr : NFrame) (good : Bool) : State :=
  let cls := (s.port p).classOf fr.ip.dscp.toNat
  let epoch := frameEpoch fr
  if !bit s.relay.ports.toNat p.val then s.modRelay (fun r => { r with disabled := satAdd max64 r.disabled 1 })
  else if fr.hopLimit = 0 then s.modRelay (fun r => { r with hopExpired := satAdd max64 r.hopExpired 1 })
  else
    let d := s.routeFlow (dieOfPort p) fr.node (fr.dstConn.toNat % 2 ^ 24) fr.path epoch fr.ip.dscp.toNat
    match d.2 with
    | none => d.1.noRoute fr.node epoch fr.ip.dscp
    | some q =>
      let s1 := d.1
      let out := (s1.port q).classOf fr.ip.dscp.toNat
      let cut := decide (s1.portMbps q ≥ s1.portMbps p) && ((s1.port q).cls out).queue.isEmpty && (s1.port q).sending.isNone &&
        ((s1.port p).isExpress cls || !(s1.port p).preemptActive)
      let len := min fr.l2.length (s1.port p).maxFrame
      let fr1 : NFrame := { fr with
        hopLimit := fr.hopLimit - 1
        l2 := { fr.l2 with da := Config.nextMac q.val fr.ip.dst, sa := (s1.port q).mac, length := len } }
      if max 64 fr.ipLen > (s1.port q).maxFrame then s1.countPort q 15 1
      else if !good && !cut then s1
      else if !s1.canEnqueue q out || (!cut && !s1.rawRoom (dieOfPort p) len) then s1.countPort p 14 1
      else
        ((s1.enqueueFrom (.portMac (physOf p)) q out ⟨.native fr1, len, none, none, false, !good⟩).modRelay (fun r =>
          { r with relayed := satAdd max64 r.relayed 1 })).countGlobal 4 (4 * (dieOfPort p).val + 3) 1

/-- RELAY_FRAME (R28, R238 step 6). -/
def State.relayArrive (s : State) (p : LPort) (fr : NFrame) : State :=
  if !s.portUp p || !(s.port p).knowsTags fr.l2 || !s.addressed p fr.l2.da || s.forMe fr || fr.type == 0x22 || fr.udpDst != s.nativePort then s
  else match s.rxLink p fr.l2 ((s.port p).classOf fr.ip.dscp.toNat) with
    | (s1, none) => s1
    | (s1, some good) =>
      if fr.version != 1 || decide (fr.l2.length < 78) then s1.countPort p 7 1
      else
        let d := s1.police p fr.l2 fr.ip fr.ipLen none
        if !d.2.1 then d.1
        else d.1.relayOn p (if d.2.2 then { fr with ip := { fr.ip with ecn := 3 } } else fr) (good && fr.l2.length == fr.wireLen)

/-- RELAY_FRAME (R28). -/
def execRelayFrame (p : LPort) (fr : NFrame) (s : State) : Out :=
  s.frameArrival p fr.l2 (s.ipClass p fr.ip) (.relayFrame p fr) (fun st => st.relayArrive p fr)

/-- RX_UNREACH: the port it came on is held out of the matching entry of its epoch; as for every frame, a management address and another
port's address come first (R218, R235, R238 steps 3 and 4, R368). -/
def State.unreachArrive (s : State) (p : LPort) (fr : NFrame) : State :=
  if !s.portUp p || !(s.port p).knowsTags fr.l2 || !s.addressed p fr.l2.da || fr.type != 0x22 || fr.udpDst != s.nativePort then s
  else match s.rxLink p fr.l2 ((s.port p).classOf fr.ip.dscp.toNat) with
    | (s1, none) => s1
    | (s1, some good) =>
      if fr.version != 1 || decide (fr.l2.length < 78) then s1.countPort p 7 1
      else
        let d := s1.police p fr.l2 fr.ip fr.ipLen none
        if !d.2.1 || !good || fr.l2.length != fr.wireLen then d.1
        else match d.1.relay.lookup (frameEpoch fr) fr.node with
        | none => d.1
        | some q =>
          let k := (frameEpoch fr, q.1, p.val)
          if d.1.relay.heldOut.contains k then d.1
          else (d.1.modRelay (fun r => { r with heldOut := r.heldOut ++ [k] })).failUnroutableAll

/-- RX_UNREACH (R368). -/
def execRxUnreach (p : LPort) (fr : NFrame) (s : State) : Out :=
  s.frameArrival p fr.l2 (s.ipClass p fr.ip) (.rxUnreach p fr) (fun st => st.unreachArrive p fr)

/-- UNREACH_HOLD_EXPIRY (R368). -/
def execUnreachHoldExpiry (epoch : Bool) (index : Nat) (p : LPort) (s : State) : Out :=
  s.engine (fun st => st.modRelay (fun r => { r with heldOut := r.heldOut.filter (fun w => w != (epoch, index, p.val)) }))

/-- A queued frame belongs to a flow. -/
def QFrame.ofFlow (q : QFrame) (node conn path : Nat) : Bool :=
  match q.fr with
  | .native fr => fr.node == node && fr.dstConn.toNat % 2 ^ 24 == conn && fr.path == path
  | _ => false

/-- FLOW_IDLE_EXPIRY: the entry lapses unless a frame of the flow is queued (R367). -/
def execFlowIdleExpiry (die : DieId) (node conn : Nat) (path : Nat) (s : State) : Out :=
  s.engine (fun st =>
    let queued := st.livePorts.any (fun p => (st.port p).classes.any (fun (c : Nat × ClassCfg) => c.2.queue.any (fun q => q.ofFlow node conn path)))
    if queued then st
    else st.modRelay (fun r => { r with flows := r.flows.filter (fun w => !(w.die == die && w.node == node && w.conn == conn && w.path == path)) }))

end Sys2Proof.Machine
end

