-- ==== Sys2Proof/Machine/RxRoce.lean ====
section
/-! DEFINITION. Machine/RxRoce.lean: received RoCE v2 packets (R164 to R166, R196), congestion notification (R211, R212), and the
arrival of a connection's context (R140, R345). -/

namespace Sys2Proof.Machine

/-- The first packet of a message. -/
def roceFirst : RoceOp → Bool
  | .sendFirst => true
  | .sendOnly => true
  | .sendOnlyImm => true
  | .writeFirst => true
  | .writeOnly => true
  | .writeOnlyImm => true
  | _ => false

/-- The last packet of a message. -/
def roceLast : RoceOp → Bool
  | .sendLast => true
  | .sendLastImm => true
  | .sendOnly => true
  | .sendOnlyImm => true
  | .writeLast => true
  | .writeLastImm => true
  | .writeOnly => true
  | .writeOnlyImm => true
  | _ => false

/-- A packet with immediate data. -/
def roceImm : RoceOp → Bool
  | .sendLastImm => true
  | .sendOnlyImm => true
  | .writeLastImm => true
  | .writeOnlyImm => true
  | _ => false

/-- A packet of a SEND. -/
def roceSend : RoceOp → Bool
  | .sendFirst => true
  | .sendMiddle => true
  | .sendLast => true
  | .sendLastImm => true
  | .sendOnly => true
  | .sendOnlyImm => true
  | _ => false

/-- A packet of an RDMA WRITE. -/
def roceWrite : RoceOp → Bool
  | .writeFirst => true
  | .writeMiddle => true
  | .writeLast => true
  | .writeLastImm => true
  | .writeOnly => true
  | .writeOnlyImm => true
  | _ => false

/-- A READ response. -/
def roceReadResp : RoceOp → Bool
  | .readRespFirst => true
  | .readRespMiddle => true
  | .readRespLast => true
  | .readRespOnly => true
  | _ => false

/-- A request or data packet, which takes a PSN of the sender. -/
def roceRequest (o : RoceOp) : Bool := roceSend o || roceWrite o || o == .readReq || o == .cmpSwap || o == .fetchAdd

/-- The packet taken just before a PSN: the span of the PSN before it, or the last one passed. -/
def Conn.spanBefore (c : Conn) (psn : Nat) : RxSpan := (c.rx.spans.find? (fun w => w.psn == c.psnSub psn 1)).getD c.rx.passed

/-- Where the payload of a RoCE v2 data packet goes, as a span: placement is in order (R154, R166, R196). -/
def State.roceTarget (s : State) (n : Nat) (c : Conn) (fr : RFrame) : Except (Bool × Nat) (RxSpan × Word32 × Nat) :=
  let psn := fr.psn.toNat
  let len := fr.payload.length
  let prev := c.spanBefore psn
  let first := roceFirst fr.op
  if roceSend fr.op then
    let at_ := if first then 0 else prev.off + prev.len
    match s.roceRecv n c psn with
    | none => .error (true, 1)
    | some (_, j) =>
      if at_ + len > netLen j.ent then .error (false, 8)
      else match s.remoteReason c.func (netKey j.ent) accLocalWrite (netOff j.ent + at_) len with
        | 0 => .ok (⟨psn, 0, at_, len, first, 0, 0, 0⟩, netKey j.ent, netOff j.ent + at_)
        | r => .error (false, r)
  else
    let key := if first then fr.rkey else prev.key
    let at_ := if first then fr.va.toNat else prev.off + prev.len
    let whole := if first then max len fr.dlen.toNat else len
    if roceImm fr.op && (s.roceRecv n c psn).isNone then .error (true, 1)
    else match s.remoteReason c.func key accRemoteWrite at_ whole with
      | 0 => .ok (⟨psn, key, at_, len, first, at_, fr.dlen.toNat, 0⟩, key, at_)
      | r => .error (false, r)

/-- What an acknowledgement of a RoCE v2 packet goes by. -/
def roceEcho (psn : Nat) : Echo := (psn, 0, false, false)

/-- A remote access error: the NAK goes out and the connection enters ERROR (R147, R154). -/
def State.roceRefuse (s : State) (n : Nat) (c : Conn) (psn reason : Nat) (recv : Bool) : State :=
  ((if reason ≤ 4 then s.count c.func cntRegionFault 1 else s).sendAck n 0x12 (reason * 2 ^ 24) psn (roceEcho psn)).roceFatal n psn recv

/-- A new data packet in order (R196). -/
def State.roceData (s : State) (n : Nat) (c : Conn) (p : LPort) (cls : Nat) (fr : RFrame) : State :=
  let psn := fr.psn.toNat
  match s.roceTarget n c fr with
  | .error (true, reason) => s.nakRnr n reason psn (roceEcho psn)
  | .error (false, reason) => s.roceRefuse n c psn reason (roceSend fr.op)
  | .ok (span, k, off) =>
    match s.pathRefusal k with
    | some reason => s.nakRnr n reason psn (roceEcho psn)
    | none =>
      let last : Option RxLast := if roceLast fr.op then
          some ⟨psn, if roceSend fr.op then 0x03 else 0x01, if roceImm fr.op then some fr.imm.toNat else none, span.base,
            span.off + span.len, 0⟩
        else none
      (s.takePacket n p cls fr.l2.length psn (some span) last).startWrite c.func k off fr.payload (.packet n psn)

/-- The responder's work of a READ request or atomic (R155, R164). -/
def State.roceWork (s : State) (c : Conn) (fr : RFrame) : Except Nat RespWork :=
  if fr.op = .readReq then
    match s.remoteReason c.func fr.rkey accRemoteRead fr.va.toNat fr.dlen.toNat with
    | 0 => .ok ⟨fr.psn.toNat, fr.rkey, fr.va.toNat, fr.dlen.toNat, none, 0, 0, 0, 0⟩
    | r => .error r
  else
    match s.remoteReason c.func fr.rkey accRemoteAtomic fr.va.toNat 8, s.region fr.rkey with
    | 0, some r =>
      if r.kind != .module || (r.place fr.va.toNat).1 % 8 != 0 then .error 6
      else .ok ⟨fr.psn.toNat, fr.rkey, fr.va.toNat, 8, some (if fr.op = .fetchAdd then 0 else 1), fr.operand.toNat, fr.compare.toNat, 0, 0⟩
    | 0, none => .error 1
    | r, _ => .error r

/-- A congestion notification packet answers a CE mark, at most one per CNP_INTERVAL (R211). -/
def State.sendCnp (s : State) (n : Nat) : State :=
  match s.conn n with
  | none => s
  | some c =>
    if s.time < c.rx.cnpUntil then s.modRx n (fun r => { r with cnpSuppressed := satAdd max32 r.cnpSuppressed 1 })
    else
      let d := s.sendOn n c 0 false (fun q => s.roceFrame c q .cnp 0 0 0 0 0 0 0 .ack (zeros 16))
      if d.2 then d.1.modRx n (fun r => { r with cnpUntil := s.time + c.cc.cnpIntervalUs * 1000 }) else d.1

/-- A duplicate: acknowledged once VPSN has passed it; a READ request is served again, an atomic answered with its saved result (R24,
R156, R174, R196). -/
def State.roceDuplicate (s : State) (n : Nat) (c : Conn) (fr : RFrame) : State :=
  let psn := fr.psn.toNat
  let s1 := s.modConn n (fun v => { v with stats := { v.stats with duplicates := satAdd max32 v.stats.duplicates 1 } })
  if fr.op = .readReq then (match s.roceWork c fr with
    | .ok w => s1.addWork n w
    | .error reason => s1.roceRefuse n c psn reason false)
  else if fr.op = .cmpSwap ∨ fr.op = .fetchAdd then (match c.rx.saved.find? (fun w => w.1 == psn) with
    | some w => (s1.sendResponse n 0x07 psn 0 0 true true (beBytes 8 w.2)).1
    | none => s1)
  else if c.psnSub (c.psnSub c.rx.vpsn 1) psn < 2 ^ 20 then s1.sendAck n 0x10 0 0 (roceEcho psn)
  else s1.modRx n (fun r => { r with owed := r.owed.filter (fun e => e.1 != psn) ++ [roceEcho psn] })

/-- The sequence check in 24-bit arithmetic, in-order placement, and the NAK for a gap (R196). -/
def State.roceSequence (s : State) (n : Nat) (c : Conn) (p : LPort) (cls : Nat) (fr : RFrame) : State :=
  let psn := fr.psn.toNat
  let d := c.psnSub psn c.rx.epsn
  if d ≥ 2 ^ 24 - 2 ^ 20 ∨ (d = 0 ∧ c.placing psn) then s.roceDuplicate n c fr
  else if d != 0 then
    let s1 := s.beyond n
    if c.rx.nakSeqSent then s1 else (s1.modRx n (fun r => { r with nakSeqSent := true })).sendAck n 0x13 0 0 (roceEcho psn)
  else if roceSend fr.op || roceWrite fr.op then s.roceData n c p cls fr
  else match s.roceWork c fr with
    | .error reason => s.roceRefuse n c psn reason false
    | .ok w =>
      let count := if w.atomic.isSome then 1 else c.packets w.len
      let s1 := s.noteLast n (some ⟨c.psnAdd psn (count - 1), 0x04, none, 0, 0, 0⟩)
      if w.atomic.isSome then s1.addWork n w else (s1.addWork n w).passReadPsns n c psn count

/-- An acknowledgement of every PSN before one: coalesced, so it covers every earlier packet (R164). -/
def roceAckInfo (psn : Nat) : AckInfo := ⟨psn, 0, 0, none, none, true, false, false, false, none, none⟩

/-- A response or acknowledgement. A response acknowledges its own PSN with those before it; a remote access error puts the connection in
ERROR (R147, R164, R196). -/
def State.roceReply (s : State) (n : Nat) (c : Conn) (p : LPort) (cls : Nat) (fr : RFrame) : State :=
  let psn := fr.psn.toNat
  let upTo := c.psnAdd psn 1
  if roceReadResp fr.op then (s.onAck n (roceAckInfo upTo)).response n c p cls fr.l2.length psn false fr.payload
  else if fr.op = .atomicAck then (s.onAck n (roceAckInfo upTo)).response n c p cls fr.l2.length psn true (beBytes 8 fr.operand.toNat)
  else if fr.op = .ack then (match fr.syndrome with
    | .ack => s.onAck n (roceAckInfo upTo)
    | .nakSeq => (s.onAck n (roceAckInfo psn)).resendFrom n psn
    | .rnr => (s.onAck n (roceAckInfo psn)).onNakRnr n psn 1
    | .nakAccess => (s.onAck n (roceAckInfo psn)).connError n)
  else s

/-- A packet judged bad may have placed its bytes (R17, R19, R196). -/
def State.roceBad (s : State) (n : Nat) (c : Conn) (fr : RFrame) : State :=
  if c.state != .ready || !(roceSend fr.op || roceWrite fr.op) || fr.psn.toNat != c.rx.epsn || c.placing fr.psn.toNat then s
  else match s.roceTarget n c fr with
    | .ok (_, k, off) => if (s.pathRefusal k).isSome then s else s.undefineRuns (s.localRuns k off fr.payload.length)
    | .error _ => s

/-- A request for a ROCE_RC connection in RESET: receiver-not-ready goes back to its sender, on the port it came on, at most once per
RETRY_US (R146, R184). A RoCE v2 packet does not name its sender's queue pair, so DQP is free (log entry 154). -/
def State.roceReset (s : State) (n : Nat) (c : Conn) (p : LPort) (fr : RFrame) : State :=
  if s.time < c.rx.rnrUntil then s
  else
    let (u, s1) := s.fresh
    let cls := (s.port p).classOf fr.ip.dscp.toNat
    let a : RFrame := { fr with
      l2 := .built fr.l2.sa (s.port p).mac ((s.port p).insertedTag cls)
      ip := ⟨fr.ip.v6, fr.ip.dst, fr.ip.src, fr.ip.dscp, 2, 64, !fr.ip.v6⟩
      op := .ack, dqp := BitVec.ofNat 24 (leNat ((List.range 3).map (fun i => Config.freeByte u i)))
      va := 0, rkey := 0, dlen := 0, operand := 0, compare := 0, imm := 0, syndrome := .rnr, payload := [], icrcOk := true }
    let b : RFrame := { a with l2 := { a.l2 with length := a.wireLen } }
    (s1.enqueueOwn p cls ⟨.roce b, b.wireLen, some c.func, none, false, false⟩).modConn n (fun v =>
      { v with
        rx := { v.rx with rnrUntil := s.time + rnrUs 5 * 1000 }
        stats := { v.stats with rnrSent := satAdd max32 v.stats.rnrSent 1 } })

/-- A packet with its connection's context at hand. Every packet that arrives marked CE is answered with a notification (R146, R174, R196,
R211). -/
def State.roceLive (s : State) (n : Nat) (c : Conn) (p : LPort) (cls : Nat) (fr : RFrame) (good : Bool) : State :=
  if c.state ≠ .reset ∧ (fr.pkey != c.pkey || !c.sourceOk fr.ip.src) then s.countPort p 7 1
  else if !good then s.roceBad n c fr
  else if c.state = .error then s
  else if c.state = .reset then (if roceRequest fr.op then s.roceReset n c p fr else s)
  else if c.state = .frozen ∨ s.fenced c.func ∨ (s.func c.func).cfg.d3hot then
    let s1 := if c.state = .ready ∧ fr.ip.ecn = 3 then s.sendCnp n else s
    (if roceRequest fr.op then s1.nakRnr n 4 fr.psn.toNat (roceEcho fr.psn.toNat)
      else if c.state = .ready then (s1.touchConn n).roceReply n c p cls fr else s1)
  else
    let s1 := if fr.ip.ecn = 3 then (s.touchConn n).sendCnp n else s.touchConn n
    if roceRequest fr.op then s1.roceSequence n c p cls fr else s1.roceReply n c p cls fr

/-- A RoCE v2 packet after the link layer and the policers. -/
def State.roceTransport (s : State) (p : LPort) (fr : RFrame) (good : Bool) : State :=
  let n := fr.dqp.toNat
  let cls := (s.port p).classOf fr.ip.dscp.toNat
  match s.conn n with
  | none => s.countPort p 7 1
  | some c =>
    if c.mode != .roce then s.countPort p 7 1
    else if c.ctx = .writingBack then
      let s1 := s.fetchContext n
      match s1.conn n with
      | none => s1
      | some v => s1.roceLive n v p cls fr good
    else if c.ctx != .cached then
      if good then s.missFrame n c fr.l2.length (fun v => { v with missedRoce := v.missedRoce ++ [(p, fr)] }) else s
    else s.roceLive n c p cls fr good

/-- A RoCE v2 packet arrives: the invariant CRC is judged together with the frame check sequence (R196, R218, R238 step 7). -/
def State.rxRoce (s : State) (p : LPort) (fr : RFrame) (act : State → RFrame → Bool → State) : State :=
  if !s.portUp p || !(s.port p).knowsTags fr.l2 || !s.addressed p fr.l2.da then s
  else match s.rxLink p { fr.l2 with fcsOk := fr.l2.fcsOk && fr.icrcOk } ((s.port p).classOf fr.ip.dscp.toNat) with
    | (s1, none) => s1
    | (s1, some good) =>
      let n := fr.dqp.toNat
      let d := s1.police p fr.l2 fr.ip fr.ipLen (if (s1.conn n).isSome then some n else none)
      if !d.2.1 then d.1
      else act (d.1.rxCross p (d.1.rxDie p n) fr.l2.length) (if d.2.2 then { fr with ip := { fr.ip with ecn := 3 } } else fr) (good && fr.l2.length == fr.wireLen)

/-- RX_ROCE_PACKET (R196). -/
def execRxRocePacket (p : LPort) (fr : RFrame) (s : State) : Out :=
  if fr.op == .cnp then next s
  else s.frameArrival p fr.l2 (s.ipClass p fr.ip) (.rxRocePacket p fr) (fun st => st.rxRoce p fr (fun w f g => w.roceTransport p f g))

/-- on_cnp of R212. Rates in Mb/s, alpha in 1/65,536. g is the connection's G_SHIFT: DESIGN CHOICE, R212 uses g and R208 gives G_SHIFT to
native connections (log entry 152). -/
def State.onCnp (s : State) (n : Nat) : State :=
  s.modConn n (fun c => { c with tx := { c.tx with
    target := c.tx.rate
    rate := max (c.tx.rate * (131072 - c.tx.alpha) / 131072) c.cc.rpMinMbps
    alpha := c.tx.alpha - c.tx.alpha / 2 ^ c.cc.gShift + 65536 / 2 ^ c.cc.gShift
    stage := 0, cnpSeen := true } })

/-- RX_CNP (R212). -/
def execRxCnp (p : LPort) (fr : RFrame) (s : State) : Out :=
  if fr.op != .cnp then next s
  else s.frameArrival p fr.l2 (s.ipClass p fr.ip) (.rxCnp p fr) (fun st => st.rxRoce p fr (fun w f good =>
    match w.conn f.dqp.toNat with
    | none => w.countPort p 7 1
    | some c => if !good then w else if c.mode != .roce || !c.sourceOk f.ip.src then w.countPort p 7 1
      else if c.state != .ready then w else w.onCnp f.dqp.toNat))

/-- RP_TIMER_EXPIRY (R212). -/
def execRpTimerExpiry (conn : Nat) (s : State) : Out :=
  s.engine (fun st => match st.conn conn with
    | none => st
    | some c =>
      if c.mode != .roce || c.state != .ready then st
      else if c.tx.cnpSeen then st.modTx conn (fun t => { t with cnpSeen := false })
      else
        let t := c.tx
        let target := if t.stage + 1 > c.cc.rpFastStages then min (t.target + c.cc.rpRaiMbps) (st.portMbps (st.portNow conn c 0)) else t.target
        st.modTx conn (fun v => { v with
          alpha := t.alpha - t.alpha / 2 ^ c.cc.gShift, stage := t.stage + 1, target := target, rate := (t.rate + target) / 2 }))

/-- CONTEXT_FETCH_DONE (R140, R345): frames of either transport wait in arrival order of their own kind. -/
def execContextFetchDone (conn : Nat) (obs : BlockObs) (s : State) : Out :=
  s.engine (fun st =>
    let roce := match st.conn conn with
      | some c => if c.ctx = .fetching then c.missedRoce else []
      | none => []
    let s1 := (st.contextFetched conn obs).modConn conn (fun c => if roce.isEmpty then c else { c with missedRoce := [] })
    forEach roce s1 (fun w (q : LPort × RFrame) => w.roceTransport q.1 q.2 true))

end Sys2Proof.Machine
end

