-- ==== Sys2Proof/Machine/ConnEvents.lean ====
section
/-! DEFINITION. Machine/ConnEvents.lean: the timers of connections: ACK_DELAY, rto, PROBE_INTERVAL, RETRY_US and DRAIN_MAX (R177,
R181, R184, R193, R371). They stand still while the module is globally stopped (R446). -/

namespace Sys2Proof.Machine

/-- The packets visible since the last ACK are acknowledged; the ACK echoes the last of them (R177, log entry 62). -/
def State.ackDelay (s : State) (n : Nat) : State :=
  match s.conn n with
  | none => s
  | some c => if c.state == .ready && decide (0 < c.rx.sinceAck) then s.sendAck n 0x10 0 0 c.rx.echo else s

/-- ACK_DELAY_EXPIRY (R177). -/
def execAckDelayExpiry (conn : Nat) (s : State) : Out := s.engine (fun st => st.ackDelay conn)
/-- RTO_EXPIRY (R181). -/
def execRtoExpiry (conn : Nat) (s : State) : Out := s.engine (fun st => st.rtoExpiry conn)
/-- PROBE_INTERVAL_EXPIRY (R193). -/
def execProbeIntervalExpiry (conn : Nat) (s : State) : Out := s.engine (fun st => st.probePaths conn)
/-- RNR_RETRY_EXPIRY (R184). -/
def execRnrRetryExpiry (conn : Nat) (s : State) : Out := s.engine (fun st => st.rnrRetry conn)
/-- DRAIN_MAX_EXPIRY (R371). -/
def execDrainMaxExpiry (conn path : Nat) (s : State) : Out := s.engine (fun st => st.drainMax conn path)

end Sys2Proof.Machine
end

