-- ==== Sys2Proof/Machine/LinkEvents.lean ====
section
/-! DEFINITION. Machine/LinkEvents.lean: what happens to the PCIe links and to functions as their hosts reset, enable and suspend
them (R58, R80 to R83, R374, R375, R382 to R384, R418, R419, R421). -/

namespace Sys2Proof.Machine

/-! ### Resets -/

/-- A command that was RUNNING when a reset arrives: one that committed takes its effect, without a response; one that had not is
abandoned (R58). -/
def State.silentJob (s : State) (f : FuncId) : State :=
  match (s.func f).mbx.long with
  | none => s
  | some (job, true) => (s.modFunc f (fun v => { v with evc := { v.evc with msgEn := false } })).longDone f job
  | some (job, false) => s.abandonJob job

/-- A reset of one function (R58, R82, R375). -/
def State.resetWhole (s : State) (f : FuncId) : State := (s.silentJob f).resetFunc f

/-- The host's Invalidate Requests on a link are over with its reset. -/
def State.dropInvalidates (s : State) (l : LinkId) : State :=
  { s with invals := s.invals.filter (fun (q : Nat × Inval) => !(q.2.ats && q.2.link == l)) }

/-- A hot reset of a link: of its physical function and every virtual function, each under its own policy; an outage in progress is no
retrain after all and is not counted as one, and a replay in progress is over (R64, R80, R82, R83, R375). The link keeps its DL_Active
state and LINK_RETAIN: DESIGN CHOICE, R64, R73 and R82 say nothing of either (log entry 146). -/
def State.hotReset (s : State) (l : LinkId) : State :=
  let s1 := (s.modLink l (fun k => { k with
    retrains := k.retrains - b2n k.downAt.isSome, downAt := none, replaying := false, cfgTouched := false })).dropInvalidates l
  forEach (funcsOfLink l) s1 (fun st f => st.resetWhole f)

/-- Signals source 2 of every function of a link: its state changed (R74, R81). -/
def State.signalLink (s : State) (l : LinkId) : State :=
  forEach ((funcsOfLink l).filter (fun f => (s.func f).state != .disabled)) s (fun st f => st.signal f 2)

/-! ### Link down and up (R60, R80, R81) -/

/-- DL_Down: a retrain begins where LINK_RETAIN is set; otherwise it is a hot reset of every function on the link (R80, R81). -/
def State.linkLost (s : State) (l : LinkId) : State :=
  let k := s.link l
  if !k.up then s
  else
    let down := fun (st : State) => st.modLink l (fun v => { v with up := false, rate := 0, width := 0, l1 := false, l0p := false })
    if !k.retain then (down s).hotReset l
    else
      let s1 := ((down s).loseLink l).modLink l (fun v => { v with downAt := some s.time, retrains := v.retrains + 1 })
      (s1.fault 2 3 none l.val 0 0).signalLink l

/-- GT/s of a RATE (R64). -/
def gtOf (rate : Nat) : Nat := if rate = 7 then 128 else if rate = 6 then 64 else 32

/-- A link that trains narrower than x16 degrades the module and is reported (R60, R390, R394, R396). -/
def State.narrowLink (s : State) (l : LinkId) (rate width : Nat) : State :=
  let now := gtOf rate * width
  let s1 := s.modLink l (fun k => { k with capacity := now })
  if width < 16 then
    ({ s1 with degraded := true } : State).postFallow 5 2 l.val 0 0 (s.link l).capacity now (funcsOfLink l)
  else s1

/-- DL_Active: after a retrain the recorded writes are replayed and lost messages sent again (R81); fenced paths are probed (R73). An
outage in which configuration space changed was no retrain but a hot reset (R80). -/
def State.linkBack (s0 : State) (l : LinkId) (rate width : Nat) : State :=
  let s := if (s0.link l).downAt.isSome && (s0.link l).cfgTouched then s0.hotReset l else s0
  let k := s.link l
  if k.up then s
  else
    let s1 := (s.modLink l (fun v => { v with up := true, rate := rate, width := width, downAt := none })).signalLink l
    let s2 := if k.downAt.isSome then
        forEach ((funcsOfLink l).filter (fun f => (s.func f).state != .disabled)) (s1.replayLink l) (fun st f => st.sendAllGroups f)
      else s1
    (s2.probeLink l).narrowLink l rate width

/-- The replay still waits for a COPY's source to be read again (R81). -/
def State.replayRereads (s : State) (l : LinkId) : Bool := s.xfers.any (fun q => q.2.link == l && q.2.replay && q.2.phase != .issued)

/-- The flush behind a replay has completed: what the replayed bytes held back follows (R81 steps 5 and 6). -/
def State.replayOver (s : State) (l : LinkId) : State :=
  let mine := (s.flushes.filter (fun (q : Nat × Flush) => q.2.link == l && q.2.replay)).map Prod.fst
  if !(s.link l).replaying || s.replayRereads l then s
  else
    let s1 := forEach mine s (fun st id => st.flushDone id)
    (s1.settle.modLink l (fun v => { v with replaying := false })).signalLink l

/-- The links work: configuration space is there from the end of boot step 2 on (R406). -/
def State.linksOn (s : State) : Bool :=
  s.power.on || (s.power.good && s.fw == .booting && (match s.mram.openRecord with
    | some r => decide (r.step > 2)
    | none => false))

/-- What happens to a link: held during a global stop, in order (R445). -/
def State.linkArrival (s : State) (c : Instr) (g : State → State) : Out :=
  next (if !s.linksOn then s else if s.stop.stopped then s.holdArrival c else (g s).settle)

/-- LINK_DOWN (R80, R81). -/
def execLinkDown (l : LinkId) (s : State) : Out := s.linkArrival (.linkDown l) (fun st => st.linkLost l)
/-- LINK_UP (R81). -/
def execLinkUp (l : LinkId) (rate width : Nat) (s : State) : Out := s.linkArrival (.linkUp l rate width) (fun st => st.linkBack l rate width)
/-- REPLAY_DONE (R81). -/
def execReplayDone (l : LinkId) (s : State) : Out := s.arrival (.replayDone l) (fun st => st.replayOver l)
/-- RETRAIN_WINDOW_EXPIRY: the link is still down, so the outage is no retrain (R80). -/
def execRetrainWindowExpiry (l : LinkId) (s : State) : Out :=
  s.arrival (.retrainWindowExpiry l) (fun st => if (st.link l).downAt.isSome then st.hotReset l else st)
/-- LINK_HOT_RESET (R82, R375). -/
def execLinkHotReset (l : LinkId) (s : State) : Out := s.arrival (.linkHotReset l) (fun st => st.hotReset l)

/-! ### Functions (R82, R375, R382 to R384) -/

/-- FUNCTION_LEVEL_RESET (R82). -/
def execFunctionLevelReset (f : FuncId) (s : State) : Out := s.arrival (.functionLevelReset f) (fun st => st.resetWhole f)
/-- CONFIG_RESET_DONE (R374, R375). -/
def execConfigResetDone (f : FuncId) (s : State) : Out := s.arrival (.configResetDone f) (fun st => st.configDone f)
/-- ATTACH_MS_EXPIRY (R375). -/
def execAttachMsExpiry (f : FuncId) (s : State) : Out :=
  s.engine (fun st => if (st.func f).state == .fenced then st.startTeardown f else st)
/-- TEARDOWN_DONE (R375, R383). -/
def execTeardownDone (f : FuncId) (s : State) : Out := s.engine (fun st => st.teardownDone f)

/-- The virtual function `i` of a link. -/
def vfOf (l : LinkId) (i : Nat) : FuncId := ⟨(l.val * 64 + i % 64) % 256, by omega⟩

/-- Virtual functions are served: the module is PROVISIONED or DEPLOYED and not held in safe mode (R410, R424). -/
def State.vfsAllowed (s : State) : Bool := !s.safeHeld && (s.mram.lc == 1 || s.mram.lc == 2)

/-- VF Enable: the virtual functions inside NumVFs become UNPROVISIONED (R375). -/
def State.vfsOn (s : State) (l : LinkId) (n : Nat) : State :=
  let k := min n 63
  if !s.vfsAllowed then s
  else forEach ((lrange 1 k).map (vfOf l)) ((s.configWrite l).modLink l (fun v => { v with numVfs := k })) (fun st f =>
    if (st.func f).state == .disabled then st.modFunc f (fun v => { v with state := .unprovisioned }) else st)

/-- VF Enable cleared, or NumVFs lowered: the virtual functions beyond it are reset and destroyed (R375, R384). -/
def State.vfsOff (s : State) (l : LinkId) (n : Nat) : State :=
  let old := (s.link l).numVfs
  if n ≥ old then s
  else forEach ((lrange (n + 1) (old - n)).map (vfOf l)) ((s.configWrite l).modLink l (fun v => { v with numVfs := n })) (fun st f =>
    match (st.func f).state with
    | .disabled => st
    | .destroying => st
    | .unprovisioned => (st.silentJob f).destroyFunc f
    | .active => (st.silentJob f).destroyFunc f
    | .fenced => (st.resetWhole f).destroyFunc f
    | .cleaning => (st.resetWhole f).destroyFunc f)

/-- VF_ENABLE (R375). -/
def execVfEnable (l : LinkId) (numVfs : Nat) (s : State) : Out := s.arrival (.vfEnable l numVfs) (fun st => st.vfsOn l numVfs)
/-- VF_DISABLE (R375). -/
def execVfDisable (l : LinkId) (numVfs : Nat) (s : State) : Out := s.arrival (.vfDisable l numVfs) (fun st => st.vfsOff l numVfs)

/-! ### Power states (R419, R421) -/

/-- D3HOT_ENTRY: no further request starts, and messages stop; host-bound writes in flight complete as they are flushed (R419). -/
def execD3hotEntry (f : FuncId) (s : State) : Out :=
  s.arrival (.d3hotEntry f) (fun st =>
    if (st.func f).state == .disabled then st
    else (st.configWrite (linkOf f)).modFunc f (fun v => { v with cfg := { v.cfg with d3hot := true } }))

/-- D0_RETURN: a message for every group with an eligible source (R79, R419). -/
def execD0Return (f : FuncId) (s : State) : Out :=
  s.arrival (.d0Return f) (fun st =>
    if (st.func f).cfg.d3hot then ((st.configWrite (linkOf f)).modFunc f (fun v => { v with cfg := { v.cfg with d3hot := false } })).sendAllGroups f else st)

/-- L1_IDLE_ENTRY: L1 is requested unless a flush is outstanding (R421). -/
def execL1IdleEntry (l : LinkId) (s : State) : Out :=
  s.engine (fun st =>
    if (st.link l).up && !(st.link l).l1 && !st.flushes.any (fun q => q.2.link == l) then
      (st.emit (.l1Request l)).modLink l (fun v => { v with l1 := true })
    else st)

/-- L0P_NARROW: the transmit width narrows to x4 (R421). -/
def execL0pNarrow (l : LinkId) (s : State) : Out :=
  s.engine (fun st => if (st.link l).up then st.modLink l (fun v => { v with l0p := true }) else st)

end Sys2Proof.Machine
end

