-- ==== Sys2Proof/Machine/PortEvents.lean ====
section
/-! DEFINITION. Machine/PortEvents.lean: lanes and logical ports: the spare lane, lane loss, link down and link training (R190, R229 to
R233, R390). Port lanes and MACs keep running in a global stop (R445). -/

namespace Sys2Proof.Machine

/-- An event of port lanes: a global stop does not hold it (R445). -/
def State.laneEvent (s : State) (g : State → State) : Out := next (if s.power.on then (g s).settle else s)

/-- A lane in service has not failed and is not replaced. -/
def PhysSt.laneServes (h : PhysSt) (lane : Nat) : Bool := decide (lane < 8) && h.spareFor != some lane && !h.failedLanes.contains lane

/-- A lane's error ratio exceeds its threshold: the spare takes over without losing a frame (R232). With no spare the lane stays. -/
def State.laneErrors (s : State) (ph : PhysId) (lane : Nat) : State :=
  let h := s.physPort ph
  if s.spareReady ph lane && h.laneServes lane then s.beginSwap ph lane true else s

/-- A lane loses signal or lock: the spare takes over, or with none left the lane fails; a hitless swap of it under way becomes a sudden
one (R232, R233). -/
def State.laneLost (s : State) (ph : PhysId) (lane : Nat) : State :=
  let h := s.physPort ph
  if h.dark then s
  else if (s.spareReady ph lane && h.laneServes lane) || h.swap.any (fun w => w.1 == lane) then s.beginSwap ph lane false
  else s.loseLane ph lane

/-- Link training finished: the far end is recognised, its lane order corrected, and the port comes up (R230, R231). -/
def State.portTrained (s : State) (p : LPort) (peer reversed : Bool) : State :=
  if (s.port p).up then s
  else (s.modPort p (fun v => { v with peer7440 := peer, reversed := reversed })).trainPort p

/-- LANE_SER_EXCEEDED (R232). -/
def execLaneSerExceeded (ph : PhysId) (lane : Fin 9) (s : State) : Out := s.laneEvent (fun st => st.laneErrors ph lane.val)
/-- LANE_SIGNAL_LOSS (R232, R233). -/
def execLaneSignalLoss (ph : PhysId) (lane : Fin 9) (s : State) : Out := s.laneEvent (fun st => st.laneLost ph lane.val)
/-- LANE_SWAP_DONE (R232). -/
def execLaneSwapDone (ph : PhysId) (s : State) : Out := s.laneEvent (fun st => st.swapDone ph)
/-- PORT_LINK_DOWN (R190). -/
def execPortLinkDown (p : LPort) (s : State) : Out := s.laneEvent (fun st => st.portLost p)
/-- PORT_LINK_UP (R231). -/
def execPortLinkUp (p : LPort) (peer7440 reversed : Bool) (s : State) : Out := s.laneEvent (fun st => st.portTrained p peer7440 reversed)

end Sys2Proof.Machine
end

