-- ==== Sys2Proof/Machine/RunEvents.lean ====
section
/-! DEFINITION. Machine/RunEvents.lean: the events of program runs and of tines (R322 to R334, R386 to R389, R444). Nothing of this
happens while the module is off or globally stopped (R445, R446). -/

namespace Sys2Proof.Machine

/-- RUN_START (R323). -/
def execRunStart (prog : Nat) (feed : List Piece) (s : State) : Out := s.engine (fun st => st.startRun prog feed)
/-- RUN_SCHEDULE_END (R330). -/
def execRunScheduleEnd (prog : Nat) (s : State) : Out := s.engine (fun st => st.scheduleEnd prog)
/-- RUN_END (R323). -/
def execRunEnd (prog : Nat) (ops : List TineOp) (outs : List Piece) (added : List Nat) (cycles : Nat) (s : State) : Out :=
  s.engine (fun st => st.finishRun prog ops outs added cycles)
/-- GLEAN_STEP_REACHED (R444). -/
def execGleanStepReached (prog : Nat) (step : Word32) (data : Bytes) (s : State) : Out :=
  s.engine (fun st => st.gleanReached prog step.toNat data)
/-- RAMP_GRANTED (R332, R453). -/
def execRampGranted (prog : Nat) (s : State) : Out := s.engine (fun st => st.rampGranted prog)
/-- WARM_HOLD_EXPIRY (R332). -/
def execWarmHoldExpiry (fur : FurrowId) (s : State) : Out := s.engine (fun st => st.warmExpiry fur.val)
/-- TINE_FAULT (R388, R389). -/
def execTineFault (fur : FurrowId) (core tine : Fin 16) (s : State) : Out := s.engine (fun st => st.tineFault fur.val core.val tine.val)
/-- TINE_THRESHOLD_DRAW (R388). -/
def execTineThresholdDraw (fur : FurrowId) (core tine : Fin 16) (s : State) : Out :=
  s.engine (fun st => st.thresholdDraw fur.val core.val tine.val)

/-- The run that a DRILL_UNLOAD waits for has had its 1 ms: it ends with RUN_ABORTED (R334). -/
def State.unloadTimeout (s : State) (f : FuncId) : State :=
  match (s.func f).mbx.long with
  | some (.drillUnload n, _) => if s.progD n (fun p => p.current.isSome) then s.abortRun n stRunAborted false true else s
  | _ => s

/-- UNLOAD_RUN_TIMEOUT (R334). -/
def execUnloadRunTimeout (f : FuncId) (s : State) : Out := s.engine (fun st => st.unloadTimeout f)

end Sys2Proof.Machine
end

