-- ==== Sys2Proof/Machine/MemEvents.lean ====
section
/-! DEFINITION. Machine/MemEvents.lean: the patrol scrub, the end of a rehash, the hot-page interval and the fault summary (R97, R346,
R347, R392, R440). -/

namespace Sys2Proof.Machine

/-- Blocks of a furrow slice. -/
def sliceBlocks : Nat := sliceBytes / 64

/-- Where the scrub stands: the block it reads next, the statistics unit of that block, and the unit's count of blocks. -/
def MemSt.scrubAt (m : MemSt) (tilth : Bool) : Nat × Nat × Nat :=
  if tilth then
    let f := m.tilthCursor / sliceBlocks
    ((tilthBase + f * sliceSpan) / 64 + m.tilthCursor % sliceBlocks, 4 + f / 20, sliceBlocks * 20)
  else (m.hbmCursor, m.hbmCursor / 2 ^ 30, 2 ^ 30)

/-- The scrub has read a block: its cursor moves on, and a pass over a stack, or over a die's Tilth, is timed (R346, R356). -/
def MemSt.scrubNext (m : MemSt) (tilth : Bool) (now : Nat) : MemSt :=
  let u := (m.scrubAt tilth).2.1
  let size := (m.scrubAt tilth).2.2
  let c := if tilth then m.tilthCursor else m.hbmCursor
  let start := if c % size = 0 then tset m.passStart u now else m.passStart
  let ms := if c % size = size - 1 then tset m.passMs u ((now - tgetD start u 0) / 1000000) else m.passMs
  if tilth then { m with tilthCursor := (c + 1) % (sliceBlocks * 40), passStart := start, passMs := ms }
  else { m with hbmCursor := (c + 1) % 2 ^ 32, passStart := start, passMs := ms }

/-- One block of the patrol scrub: corrected, or poisoned and reported (R343, R344, R346). It pauses in the fallow state (R420). -/
def State.patrol (s : State) (tilth : Bool) (obs : BlockObs) : State :=
  if s.fallow then s
  else
    let s1 := (s.decodeBlock (s.mem.scrubAt tilth).1 obs).1
    { s1 with mem := s1.mem.scrubNext tilth s.time }

/-- PATROL_SCRUB (R346). -/
def execPatrolScrub (tilth : Bool) (obs : BlockObs) (s : State) : Out := s.engine (fun st => st.patrol tilth obs)

/-- REHASH_DONE (R392). -/
def execRehashDone (stack : Fin 4) (s : State) : Out :=
  s.engine (fun st => { st with mem := { st.mem with rehashing := lerase st.mem.rehashing stack.val } })

/-! ### Hot pages (R97) -/

/-- The pages of a region over a threshold: their first bytes within the region. Where the region does not begin on a 2 MiB bound, the
first, partial page has OFFSET 0: DESIGN CHOICE, R99 does not say (log entry 148). -/
def Region.hotPages (r : Region) (threshold : Nat) : List Nat :=
  (r.counters.filter (fun q => decide (q.2 > threshold))).map (fun q => (r.vaOf 0 / 0x200000 + q.1) * 0x200000 - r.vaOf 0)

/-- The end of a function's interval: pages over the threshold join the hot list, or are counted when it is full; the counters
clear; SOURCE is signalled when the list becomes non-empty (R97). -/
def State.hotEnd (s : State) (f : FuncId) : State :=
  let v := s.func f
  let mine := s.regions.filter (fun (q : Nat × Region) => q.2.func == f && q.2.grants accCount)
  let hot := mine.flatMap (fun q => (q.2.hotPages v.hotThreshold).map (fun o => HotEntry.mk (regionKey q.1 q.2.gen) o))
  let room := 1024 - v.hotList.length
  let regions := s.regions.map (fun (q : Nat × Region) => if q.2.func == f then (q.1, { q.2 with counters := [] }) else q)
  let s1 := ({ s with regions := regions } : State).modFunc f (fun w => { w with
    hotList := w.hotList ++ hot.take room
    hotOverflow := satAdd max32 w.hotOverflow (hot.length - room) })
  if v.hotList.isEmpty && !hot.isEmpty then s1.signalBound f v.hotSource else s1

/-- HOT_INTERVAL_END (R97). -/
def execHotIntervalEnd (f : FuncId) (s : State) : Out := s.engine (fun st => st.hotEnd f)

/-! ### Fault summaries (R440) -/

/-- Firmware reports a function's faults since its previous summary, at most once per 1 ms (R440). -/
def State.summarise (s : State) (f : FuncId) : State :=
  let v := s.func f
  let early := match v.faultPostedAt with
    | some t => decide (s.time - t < 1000000)
    | none => false
  if !s.serving || v.state == .disabled || v.faultCounts.isEmpty || early then s
  else
    let body := (lrange 1 8).flatMap (fun k => leBytes 4 (tgetD v.faultCounts k 0)) ++ leBytes 4 (v.faultFirst.getD 0) ++ zeros 12
    (s.modFunc f (fun w => { w with faultCounts := [], faultFirst := none, faultPostedAt := some s.time })).post f 0x0008 0 body

/-- FAULT_SUMMARY_POST (R440). -/
def execFaultSummaryPost (f : FuncId) (s : State) : Out := next (s.summarise f)

end Sys2Proof.Machine
end

