-- ==== Sys2Proof/Machine/FwEvents.lean ====
section
/-! DEFINITION. Machine/FwEvents.lean: firmware restarts without a command, and the end of any restart (R16, R57, R412, R414, R416). The
data path is untouched, and Headland runs on in a global stop (R445). -/

namespace Sys2Proof.Machine

/-- FW_WATCHDOG_EXPIRY: 500 ms without service (R412). -/
def execFwWatchdogExpiry (s : State) : Out := next (if s.power.on && s.serving then (s.beginRestart 2 s.image).settle else s)

/-- FW_FAULT (R412). -/
def execFwFault (s : State) : Out := next (if s.power.on && s.serving then (s.beginRestart 3 s.image).settle else s)

/-- A command RUNNING across a restart: one whose work ended meanwhile gets its actual result; one that had not committed is answered
BUSY, having had no effect (R57). -/
def State.restartAnswer (s : State) (f : FuncId) : State :=
  let m := (s.func f).mbx
  match m.deferred, m.long with
  | some (code, detail, payload), _ => s.answerLong f ⟨code, detail, payload⟩
  | none, some (job, false) => (s.abandonJob job).answerLong f (Reply.refuse rcBusy 1)
  | none, _ => s

/-- The body of a FW_RESTART record (R414). -/
def State.restartRecord (s : State) (cause start : Nat) : Bytes :=
  leBytes 1 cause ++ leBytes 1 s.image ++ leBytes 2 s.restartGen.toNat ++ leBytes 4 s.fwVersion.toNat ++ leBytes 4 ((s.time - start) / 1000)

/-- Firmware returns: RESTART_GEN advances, pending commands are answered, and every function hears of it (R57, R414). -/
def State.restartDone (s : State) : State :=
  match s.restart with
  | none => s
  | some (cause, start, image) =>
    let s1 : State := { s with
      fw := if s.safeHeld then .safeMode else .running
      restartGen := s.restartGen + 1
      image := image
      restart := none }
    let s2 := forEach allFuncs s1 (fun st f => st.restartAnswer f)
    forEach s2.liveFuncs s2 (fun st f => st.post f 0x0003 0 (s2.restartRecord cause start))

/-- FW_RESTART_DONE (R414). -/
def execFwRestartDone (s : State) : Out := next (if s.power.on then s.restartDone.settle else s)

end Sys2Proof.Machine
end

