-- ==== Sys2Proof/Machine/Boot.lean ====
section
/-! DEFINITION. Machine/Boot.lean: what a power-on or module reset keeps, and the boot steps (R391 to R396, R402, R404, R406 to R411,
R413, R417, R418, R424, R427). A boot takes no module time in this model; TIME_MS of its records is free. -/

namespace Sys2Proof.Machine

/-! ### What is kept (R387, R418) -/

/-- Writes a boot-log record; the ring holds 8,192 (R407). -/
def State.logBoot (s : State) (step unit method result count : Nat) : State :=
  let d := s.fresh
  let r : BootRec := ⟨s.mram.bootNo, step, unit, method, result, count, (Config.freeWord d.1).toNat % 2 ^ 32⟩
  let l := s.mram.bootLog ++ [r]
  { d.2 with mram := { s.mram with bootLog := l.drop (l.length - 8192) } }

/-- FAIL_COUNT of a step and unit (R408). -/
def Mram.fails (m : Mram) (step unit : Nat) : Nat := tgetD m.failCount (step * 256 + unit) 0

/-- The power-loss flush closes a STARTED record as INTERRUPTED, which does not count towards FAIL_COUNT (R401, R409). -/
def State.closeInterrupted (s : State) : State :=
  match s.mram.openRecord with
  | none => s
  | some r => s.logBoot r.step r.unit r.method 5 r.failCount

/-- A failure of a step or unit adds 1 to its FAIL_COUNT and decides its method at the next boot (R408). -/
def State.noteBootFail (s : State) (step unit : Nat) : State :=
  let m := s.mram
  { s with mram := { m with
    failCount := tset m.failCount (step * 256 + unit) (m.fails step unit + 1), altMethod := linsert m.altMethod (step * 256 + unit) } }

/-- A STARTED record found with no outcome at all counts as TIMEOUT (R409). -/
def State.closeTimeout (s : State) : State :=
  match s.mram.openRecord with
  | none => s
  | some r => (s.logBoot r.step r.unit r.method 4 (s.mram.fails r.step r.unit + 1)).noteBootFail r.step r.unit

/-- Memory after power-on or module reset: contents are wiped and the layout is the default; repair maps, retirements and wear
counters are kept (R387, R391, R392, R418). A lost granule outside the default pool is fallow. -/
def MemSt.cold (m : MemSt) : MemSt :=
  let pool := fun (g : Nat) (k : Nat) => Layout.reset.poolGranule (k * g)
  let tilth := m.fallow.foldl linsert m.retired
  let hbm := m.hbmFallow.foldl linsert m.hbmLost
  { MemSt.reset with
    rowErrors := m.rowErrors
    hbmRowErrors := m.hbmRowErrors
    retired := tilth.filter (pool tilthGranule)
    fallow := tilth.filter (fun k => !pool tilthGranule k)
    hbmLost := hbm.filter (pool hbmGranule)
    hbmFallow := hbm.filter (fun k => !pool hbmGranule k)
    tilthRows := m.tilthRows
    hbmRows := m.hbmRows
    channelsOut := m.channelsOut }

/-- The tine array after power-on or module reset: stores, buffers and flags wiped; spares drawn and tines lost stay so (R387,
R389, R418). -/
def TineArray.cold (t : TineArray) : TineArray :=
  { TineArray.reset with
    drawn := t.drawn
    lost := t.lost
    storeErrors := t.storeErrors }

/-- Pins, readings and latches outlast a reset; the governor and the throttling start anew. -/
def Power.cold (p : Power) : Power :=
  { Power.reset with
    input := p.input, good := p.good, flushing := p.flushing, shutdown := p.shutdown, latched := p.latched
    holdupMj := p.holdupMj, reading := p.reading, temps := p.temps, refLocked := p.refLocked, freezeLow := p.freezeLow }

/-- Some unit is below its nominal capacity by what MRAM records (R396). -/
def State.keptLosses (s : State) : Bool :=
  !s.mem.retired.isEmpty || !s.mem.fallow.isEmpty || !s.mem.hbmLost.isEmpty || !s.mem.hbmFallow.isEmpty ||
  s.mem.channelsOut.any (fun q => !q.2.isEmpty) || s.tines.lost.any (fun q => decide (q.2 > 0))

/-- The module as a power-on (`warm` false) or a module reset finds it: everything at reset but MRAM, the spare maps and the pins
(R402, R412, R413, R418). RETRAINS counts since power-on (R64). Of the model's own fields, the queue, the outputs and the counts of
free values and transfer numbers go on. -/
def State.cold (s : State) (warm : Bool) : State :=
  { State.reset with
    pending := s.pending, free := s.free, out := s.out, nextId := s.nextId, past := s.past + s.time
    mram := s.mram
    links := if warm then s.links.map (fun q => (q.1, { Link.reset with retrains := q.2.retrains })) else []
    phys := s.phys.map (fun q => (q.1, { PhysSt.reset with spareFor := q.2.spareFor, spareUsed := q.2.spareUsed }))
    mem := s.mem.cold
    tines := s.tines.cold
    power := s.power.cold }

/-! ### Boot steps (R406 to R409) -/

/-- The units of a boot step; 255 for a step without units (R406, R407). -/
def bootUnits (step : Nat) : List Nat :=
  if step = 5 ∨ step = 9 then List.range 40 else if step = 6 ∨ step = 10 then List.range 4 else [255]

/-- Every step and unit, in order. -/
def bootPlan : List (Nat × Nat) := (lrange 1 11).flatMap (fun k => (bootUnits k).map (fun u => (k, u)))

/-- The method of a step that failed: 1 ALT, 2 SKIPPED, 0 none (R406). -/
def otherMethod (step : Nat) : Nat :=
  if step = 1 ∨ step = 9 ∨ step = 10 then 2 else if step = 2 ∨ step = 8 ∨ step = 11 then 0 else 1

/-- METHOD of a step and unit at this boot (R408). -/
def Mram.method (m : Mram) (step unit : Nat) : Nat := if m.altMethod.contains (step * 256 + unit) then otherMethod step else 0

/-- A slot holds an image that step 3 may load (R422, R423). -/
def Mram.bootable (m : Mram) (k : Nat) : Bool := (m.slot k).state == 1 && decide ((m.slot k).securityVersion ≥ m.minVersion)

/-- The image step 3 loads: NEXT, or the other one under ALT; where that one does not pass, the one left (R406, R422). -/
def Mram.bootImage (m : Mram) : Option Nat :=
  let k := if m.method 3 255 = 1 then 1 - m.next else m.next
  if m.bootable k then some k else if m.bootable (1 - k) then some (1 - k) else none

/-- Image `k` runs: firmware-store formats are told from the running one's (R423). -/
def State.runImage (s : State) (k : Nat) : State :=
  let m := s.mram
  let same := (m.slot k).sameFormat
  let m1 := (m.setSlot k { m.slot k with sameFormat := true }).setSlot (1 - k) { m.slot (1 - k) with sameFormat := same }
  let s1 : State := { s with image := k, mram := m1 }
  if k = m.next then s1 else s1.postFallow 10 1 k 0 0 1 1 []

/-- Step 8: the wipe has been made; an intent record completes its life-cycle transition, of which DECOMMISSIONED has none (R417, R425,
R427). -/
def State.completeIntent (s : State) : State :=
  match s.mram.intent with
  | none => s
  | some (to_, h) =>
    if s.mram.lc = 4 then { s with mram := { s.mram with intent := none } }
    else { s with mram := { s.mram with
      lc := to_, ownerHash := h, transitions := satAdd max32 s.mram.transitions 1, intent := none, seedGone := s.mram.seedGone || to_ == 4 } }

/-- Holds a physical port dark (R406, R410). -/
def State.darken (s : State) (ph : PhysId) : State := s.modPhys ph (fun h => { h with dark := true })

/-- Furrow `u` is left out by a skipped test: its 16 cores are fallow (R406). -/
def State.skipFurrow (s : State) (u : Nat) : State :=
  forEach (List.range 16) { s with degraded := true, tines := { s.tines with skipped := linsert s.tines.skipped u } } (fun st c =>
    st.postFallow 2 3 (u * 256 + c) 0 0 16 0 [])

/-- What a boot step does to one unit (R404, R406). -/
def State.bootWork (s : State) (r : BootReport) (step unit method : Nat) : State :=
  if step = 1 then
    (if method = 2 then
      ({ s with degraded := true, power := { s.power with holdupFallow := true } } : State).postFallow 11 3 0 0 0 0 0 []
     else s.holdupMeasured r.holdupMj)
  else if step = 3 then (match s.mram.bootImage with
    | some k => s.runImage k
    | none => s)
  else if step = 5 ∧ method = 1 then
    forEach r.losses s (fun st x => match x with
      | .tilthGranule a => if inTilth a && populated a && sliceOf a == unit && !st.mem.granuleGone a then st.retireGranule a else st
      | .hbmChannel _ _ => st
      | .tine _ _ _ => st)
  else if step = 6 ∧ method = 1 then
    forEach r.losses s (fun st x => match x with
      | .hbmChannel k c =>
        let out := tgetD st.mem.channelsOut k.val []
        if k.val = unit ∧ !out.contains c.val ∧ out.length < 8 then
          (let st1 := st.mapOut k.val c.val
           { st1 with mem := { st1.mem with rehashing := lerase st1.mem.rehashing k.val } })
        else st
      | .tilthGranule _ => st
      | .tine _ _ _ => st)
  else if step = 8 then s.completeIntent
  else if step = 9 then
    (if method = 2 then s.skipFurrow unit
     else forEach r.losses s (fun st x => match x with
      | .tine f c t => if f.val = unit then st.tineFault f.val c.val t.val else st
      | .tilthGranule _ => st
      | .hbmChannel _ _ => st))
  else if step = 10 ∧ method = 2 then
    (({ s with degraded := true } : State).darken ⟨unit % 4, by omega⟩).postFallow 4 3 (unit % 4 * 8) 0 0 1600000 0 []
  else s

/-- A unit works below its nominal capacity after its step, which passes as PASS_DEGRADED (R407). -/
def State.unitDegraded (s : State) (step unit : Nat) : Bool :=
  if step = 1 then s.power.holdupFallow
  else if step = 5 then s.mem.retired.any (fun g => sliceOf (g * tilthGranule) == unit) || s.mem.fallow.any (fun g => sliceOf (g * tilthGranule) == unit)
  else if step = 6 then !(tgetD s.mem.channelsOut unit []).isEmpty
  else if step = 9 then s.tines.lost.any (fun q => q.1 / 16 == unit && decide (q.2 > 0))
  else false

/-- Whether a step fails for a unit, and whether by its time: as reported, or with no image to load; a SKIP always passes (R408). -/
def State.bootFails (s : State) (r : BootReport) (step unit method : Nat) : Option Bool :=
  if method = 2 then none
  else match r.fails.find? (fun x => x.step == step && x.unit == unit) with
    | some x => some x.timeout
    | none => if step = 3 ∧ s.mram.bootImage = none then some false else none

/-- How a pass through the boot steps ends (R408, R409). -/
inductive BootEnd where
  | complete
  /-- A step or unit failed, or was not attempted again: whether its FAIL_COUNT is 3. -/
  | failed (step : Nat) (stuck : Bool)
  /-- A step is still at work. -/
  | underWay
  deriving DecidableEq, Repr

/-- Runs steps and units in order up to the first failure, or to one still at work (R408, R409). -/
def bootFrom (r : BootReport) : List (Nat × Nat) → State → State × BootEnd
  | [], s => (s, .complete)
  | (step, unit) :: rest, s =>
    let count := s.mram.fails step unit
    if count ≥ 3 then (s, .failed step true)
    else
      let method := s.mram.method step unit
      let s1 := s.logBoot step unit method 0 count
      if r.underWay = some (step, unit) then (s1, .underWay)
      else match s1.bootFails r step unit method with
      | some timeout =>
        ((s1.logBoot step unit method (if timeout then 4 else 3) (count + 1)).noteBootFail step unit, .failed step (decide (count + 1 ≥ 3)))
      | none =>
        let s2 := s1.bootWork r step unit method
        let s3 : State := { s2 with mram := { s2.mram with failCount := tdel s2.mram.failCount (step * 256 + unit) } }
        bootFrom r rest (s3.logBoot step unit method (if method = 2 || s3.unitDegraded step unit then 2 else 1) 0)

/-- One pass through the boot steps: a record left open is closed first, and each boot takes the next number (R407, R409). -/
def State.bootPass (s : State) (r : BootReport) : State × BootEnd :=
  let s1 := s.closeTimeout
  bootFrom r bootPlan { s1 with degraded := s1.keptLosses, mram := { s1.mram with bootNo := add32 s1.mram.bootNo 1 } }

/-- Every port dark (R410, R424). -/
def State.darkenAll (s : State) : State := forEach (List.finRange 4) s (fun st ph => st.darken ph)

/-- Step 11: mailboxes open and FW_STATE is RUNNING (R406); RETURNED holds the module as in safe mode, and its ports, like those of
DECOMMISSIONED, are dark (R424). FREEZE# is sampled from here on (R459). -/
def State.serviceUp (s : State) : State :=
  let s1 : State := { s with fw := .running, power := { s.power with on := true, served := true } }
  let s2 : State := if s.mram.lc = 3 then { s1.darkenAll with fw := .safeMode, safeHeld := true } else if s.mram.lc = 4 then s1.darkenAll else s1
  if s.power.freezeLow then s2.globalStop true else s2

/-- A step failed for the third time: safe mode, with every port dark; after step 1 or 2 there is no mailbox (R410). -/
def State.holdSafe (s : State) (step : Nat) : State :=
  if step ≤ 2 then { s with safeHeld := true }
  else { s.darkenAll with fw := .safeMode, safeHeld := true, power := { s.power with on := true } }

/-- The boot steps, pass after pass: a failure leads to a module reset, or to safe mode (R408); a step still at work leaves the module
BOOTING until a reset or a loss of power (R409). Past the passes reported the next module reset is due. -/
def State.boot : List BootReport → State → State
  | [], s => { s with resetAt := some s.time }
  | r :: rest, s => match s.bootPass r with
    | (s1, .complete) => s1.serviceUp
    | (s1, .failed step true) => s1.holdSafe step
    | (s1, .failed _ false) => State.boot rest (s1.cold true)
    | (s1, .underWay) => s1

end Sys2Proof.Machine
end

