-- ==== Sys2Proof/Machine/PowerEvents.lean ====
section
/-! DEFINITION. Machine/PowerEvents.lean: power-on, module resets, power loss and shutdown, the power governor, throttling, time inputs
and the management bus (R250, R251, R399 to R404, R412, R413, R449 to R462). -/

namespace Sys2Proof.Machine

/-! ### On, reset, off -/

/-- POWER_ON: PWR_GOOD rises with the input in range; during a flush, or after a shutdown until PWR_GOOD has fallen, the module stays
off (R403, R406, R458). -/
def State.powerOn (s : State) (boots : List BootReport) : State :=
  if s.power.good || s.power.flushing || s.power.latched then s
  else
    let s1 := s.cold false
    ({ s1 with power := { s1.power with input := true, good := true } } : State).boot boots

/-- A module reset: a powered module starts anew (R412, R413); a flush or a shutdown ignores it (R459). -/
def State.moduleReset (s : State) (boots : List BootReport) : State :=
  if !s.power.good || s.power.flushing || s.power.latched then s else (s.cold true).boot boots

/-- POWER_ON (R406). -/
def execPowerOn (boots : List BootReport) (s : State) : Out := next (s.powerOn boots)
/-- MODULE_RESET_START: a reset that a command, a transition or a boot step has made due (R408, R413, R427). -/
def execModuleResetStart (boots : List BootReport) (s : State) : Out := next (if s.resetAt.isSome then s.moduleReset boots else s)
/-- MRST_ASSERT: MRST# held low for 10 µs (R459). -/
def execMrstAssert (boots : List BootReport) (s : State) : Out := next (s.moduleReset boots)

/-- SHUTDOWN_CAUSE bits present besides the one at hand: over-temperature by the last samples, and the power limit (R457, R458). -/
def tempsShut (t : Temps) : Bool :=
  t.furrows.any (fun v => decide (v ≥ 110)) || t.hbm.any (fun v => decide (v ≥ 105)) || t.optics.any (fun v => decide (v ≥ 80)) ||
  decide (t.other ≥ 110)

/-- Input power has been above 750 W for 10 ms (R454). -/
def State.overLong (s : State) : Bool :=
  match s.power.overSince with
  | some t => decide (s.time - t ≥ 10000000) && decide (s.power.reading.deciwatts > 7500)
  | none => false

/-- Opens the input switch and flushes the records to MRAM, the boot log with them: nothing but MRAM and the spare maps survives (R400 to
R402, R409, R458). After a shutdown the module waits for PWR_GOOD to fall and rise again. -/
def State.powerDown (s : State) (cause : Nat) (shutdown : Bool) : State :=
  let s1 := s.closeInterrupted.cold false
  let wait := shutdown && s.power.good
  { s1 with
    power := { s1.power with good := wait, flushing := true, shutdown := shutdown, latched := wait }
    mram := { s1.mram with shutdownCause := BitVec.ofNat 8 cause } }

/-- A shutdown, whatever else is happening, from the moment the input is present: every cause present is recorded (R13, R458). -/
def State.shutdown (s : State) (bit_ : Nat) : State :=
  if !s.power.input || s.power.flushing || s.power.latched then s
  else
    let cause := bit_ ||| (if tempsShut s.power.temps then 2 else 0) ||| (if s.overLong then 8 else 0)
    s.powerDown cause true

/-- PWR_GOOD falls, or the input stays below 44 V (R400); after a shutdown it lets the module start again (R458). -/
def State.powerLost (s : State) : State :=
  if s.power.good && !s.power.latched && !s.power.flushing then s.powerDown 1 false
  else { s with power := { s.power with good := false, latched := false } }

/-- POWER_LOSS (R400). -/
def execPowerLoss (s : State) : Out := next s.powerLost

/-- POWER_LOSS_FLUSH_DONE: the load opens and the bleed empties the store (R401). -/
def execPowerLossFlushDone (s : State) : Out :=
  next (if s.power.flushing then
    { s with power := { s.power with flushing := false, shutdown := false, reading := { s.power.reading with storeMv := 0 } } }
  else s)

/-- HOLDUP_MEASURE (R404). -/
def execHoldupMeasure (mj : Nat) (s : State) : Out := next (if s.power.on then (s.holdupMeasured mj).settle else s)

/-- INPUT_INSERTION: the input stage charges the hold-up store; above 44 V the management bus answers (R450, R462). -/
def execInputInsertion (millivolts : Nat) (s : State) : Out :=
  next (if s.power.input then s
    else { s with power := { s.power with
      input := decide (millivolts > 44000)
      reading := { s.power.reading with millivolts := millivolts, storeMv := 54000 } } })

/-! ### The governor (R454) -/

/-- Per mille of a furrow's clock that 4 W stand for: 0.4 W per µs over 10 µs, of the 7.5 W between full clock and the clock-gated
floor (R332, R454). -/
def clockStep : Nat := 533

/-- Lowers clocks in the order given by an amount. -/
def lowerClocks : List Nat → Nat → Tbl Nat → Tbl Nat
  | [], _, t => t
  | f :: r, k, t =>
    let c := tgetD t f 1000
    let d := min c k
    lowerClocks r (k - d) (if d = 0 then t else tset t f (c - d))

/-- Raises clocks in the order given by an amount. -/
def raiseClocks : List Nat → Nat → Tbl Nat → Tbl Nat
  | [], _, t => t
  | f :: r, k, t =>
    let c := tgetD t f 1000
    let d := min (1000 - c) k
    raiseClocks r (k - d) (if d = 0 then t else if c + d = 1000 then tdel t f else tset t f (c + d))

/-- The furrow serves a DETERMINISTIC program. -/
def State.detFurrow (s : State) (f : Nat) : Bool := s.progs.any (fun q => q.2.deterministic && q.2.furrows.contains f)

/-- Furrows by what they serve, highest number first. -/
def State.furrowsBy (s : State) (det : Bool) : List Nat := (List.range 40).reverse.filter (fun f => s.detFurrow f == det)

/-- One sample's worth of lowering, in the first stage that is not at its floor (R454). -/
def State.lowerLoad (s : State) : State :=
  let t := s.tines
  let w := s.power
  let plain := s.furrowsBy false
  let det := s.furrowsBy true
  if plain.any (fun f => decide (tgetD t.clock f 1000 > 0)) then
    { s with tines := { t with clock := lowerClocks plain clockStep t.clock }, power := { w with stage := 1 } }
  else if w.engineRate > 50 then
    (if w.stage = 2 ∧ s.time - w.engineAt < 100000 then s
     else { s with power := { w with stage := 2, engineRate := w.engineRate - 5, engineAt := s.time } })
  else ({ s with tines := { t with clock := lowerClocks det clockStep t.clock }, power := { w with stage := 3 } } : State).markLate

/-- One sample's worth of restoring, in the reverse order; furrows under thermal throttling wait (R454). -/
def State.raiseLoad (s : State) : State :=
  let t := s.tines
  let w := s.power
  let held := fun (l : List Nat) => l.reverse.filter (fun f => decide (tgetD t.clock f 1000 < 1000) && !thas w.throttled f)
  let det := held (s.furrowsBy true)
  if !det.isEmpty then { s with tines := { t with clock := raiseClocks det clockStep t.clock } }
  else if w.engineRate < 100 then
    (if s.time - w.engineAt < 100000 then s
     else { s with power := { w with engineRate := w.engineRate + 5, engineAt := s.time } })
  else { s with tines := { t with clock := raiseClocks (held (s.furrowsBy false)) clockStep t.clock } }

/-- What the input stage holds, whatever the load: the store never above 54.0 V, which is 3.99 J, and the input current changing by no
more than 10 A/ms (R5, R13, R451, R453). -/
def State.inputStage (s : State) (r : PowerReading) : PowerReading :=
  let old := s.power.reading.milliamps
  let most := (s.time - s.power.sampledAt) / 100
  { r with storeMv := min r.storeMv 54000, milliamps := max (min r.milliamps (old + most)) (old - most) }

/-- POWER_SAMPLE: above 750 W the load is lowered until a sample reads 740 W; after 1 ms at or below 700 W, with the store at 54 V, it
is restored; 10 ms above 750 W shut the module down (R453, R454, R458). -/
def State.powerSample (s : State) (r0 : PowerReading) : State :=
  let w := s.power
  let r := s.inputStage r0
  let p := r.deciwatts
  let s1 : State := { s with power := { w with
    reading := r
    sampledAt := s.time
    pins := (w.pins ++ [p]).drop (w.pins.length + 1 - 100)
    overSince := if p > 7500 then some (w.overSince.getD s.time) else none
    underSince := if p ≤ 7000 then some (w.underSince.getD s.time) else none } }
  if s1.overLong then s1.shutdown 8
  else if p > 7500 ∨ (w.stage ≠ 0 ∧ p > 7400) then s1.lowerLoad
  else
    let s2 : State := { s1 with power := { s1.power with stage := 0 } }
    match s2.power.underSince with
    | some t => if s.time - t ≥ 1000000 ∧ r.storeMv ≥ 54000 then s2.raiseLoad else s2
    | none => s2

/-- POWER_SAMPLE (R454). -/
def execPowerSample (r : PowerReading) (s : State) : Out := next (if s.power.on then s.powerSample r else s)

/-! ### Temperature and current (R456 to R458) -/

/-- Throttling of one furrow: from 95 °C its clock falls by 5 % a sample until it reads 93 °C; then what throttling took comes back, and
what the governor holds stays (R454, R457). -/
def State.throttle (s : State) (f : Nat) (v : Int) : State :=
  let w := s.power
  let c := tgetD s.tines.clock f 1000
  let took := tgetD w.throttled f 0
  if v ≥ 95 ∨ (thas w.throttled f ∧ v > 93) then
    ({ s with power := { w with throttled := tset w.throttled f (took + min 50 c) }, tines := s.tines.setClock f (c - 50) } : State).markLate
  else if thas w.throttled f then
    { s with power := { w with throttled := tdel w.throttled f }, tines := s.tines.setClock f (c + took) }
  else s

/-- THERMAL_SAMPLE: every sensor is read, throttling applied, and a sensor at its limit shuts the module down (R456 to R458). -/
def State.thermalSample (s : State) (t : Temps) : State :=
  let s1 : State := { s with power := { s.power with
    temps := t
    hotStacks := (List.range 4).filter (fun k => decide (t.hbm.getD k 0 ≥ 85))
    opticsHot := t.optics.any (fun v => decide (v ≥ 70)) } }
  if tempsShut t then s1.shutdown 2
  else forEach (List.range 40) s1 (fun st f => match t.furrows[f]? with
    | some v => st.throttle f v
    | none => st)

/-- THERMAL_SAMPLE (R457); a module that is not up yet is still shut down (R13). -/
def execThermalSample (t : Temps) (s : State) : Out :=
  next (if s.power.on then s.thermalSample t
    else if tempsShut t then ({ s with power := { s.power with temps := t } } : State).shutdown 2 else s)

/-- OVERCURRENT: beyond 24 A for 50 µs, or 40 A at any instant (R458). -/
def execOvercurrent (milliamps : Nat) (held50us : Bool) (s : State) : Out :=
  next (if milliamps > 40000 ∨ (milliamps > 24000 ∧ held50us) then s.shutdown 4 else s)

/-! ### Time inputs and outputs (R459 to R461) -/

/-- PPS_IN_EDGE: the edge is stamped, unless within 100 ms of the last accepted one (R460). -/
def execPpsInEdge (s : State) : Out :=
  let early := match s.ppsInAt with
    | some t => decide (s.time - t < 100000000)
    | none => false
  next (if !s.power.on || early then s else { s with ppsIn := s.ptp, ppsInAt := some s.time })

/-- PPS_OUT_SECOND: PPS_OUT rises, never less than 500 ms after its last rise (R460). -/
def execPpsOutSecond (s : State) : Out :=
  let early := match s.ppsOutAt with
    | some t => decide (s.time - t < 500000000)
    | none => false
  next (if !s.power.on || early then s else { s.emit (.ppsOut s.ptp) with ppsOutAt := some s.time })

/-- REF_LOCK: both times derive from the reference (R461). -/
def execRefLock (s : State) : Out := next (if s.power.on then { s with power := { s.power with refLocked := true } } else s)
/-- REF_LOST: the module's own oscillator takes over with no step (R461). -/
def execRefLost (s : State) : Out := next (if s.power.on then { s with power := { s.power with refLocked := false } } else s)

/-! ### Management bus (R462) -/

/-- Answers a read of the management bus: with the input present, but not during a flush (R462). -/
def State.smbusAnswer (s : State) (data : Bytes) : State :=
  s.emit (if s.power.input && !s.power.flushing then .smbus data else .smbusNak)

/-- POWER_LIMIT: the governor holds a furrow or an engine below full rate (R454). -/
def State.powerLimit (s : State) : Bool :=
  decide (s.power.engineRate < 100) || s.tines.clock.any (fun q => decide (q.2 + tgetD s.power.throttled q.1 0 < 1000))

/-- THERMAL_THROTTLE (R457). -/
def Power.throttling (w : Power) : Bool := !w.throttled.isEmpty || !w.hotStacks.isEmpty || w.opticsHot

/-- STATUS (R462). -/
def State.smbusStatusWord (s : State) : Nat :=
  b2n (s.fw == .safeMode) + 2 * b2n s.degraded + 4 * b2n s.fallow + 8 * b2n s.power.throttling + 16 * b2n s.powerLimit +
  32 * b2n s.power.refLocked + 64 * b2n (s.power.good && s.fw == .booting)

/-- BOOT: STEP, UNIT, METHOD and RESULT of the last boot-log record (R462); free where none was ever written. -/
def State.smbusBootBytes (s : State) : Bytes :=
  match s.mram.bootLog.getLast? with
  | some r => leBytes 1 r.step ++ leBytes 1 r.unit ++ leBytes 1 r.method ++ leBytes 1 r.result
  | none => (List.range 4).map (fun i => Config.freeByte s.free i)

/-- A temperature as a signed byte. -/
def degByte (v : Int) : Bytes := [BitVec.ofInt 8 v]

/-- The hottest of a list of sensors. -/
def hottest : List Int → Int
  | [] => 0
  | v :: r => r.foldl max v

/-- PIN: the mean of the samples of the last 1 ms (R462). -/
def Power.meanPin (w : Power) : Nat := w.pins.sum / max 1 w.pins.length

/-- SMBUS_ID (R462). -/
def execSmbusId (s : State) : Out := next (s.smbusAnswer (leBytes 2 0x7440 ++ leBytes 1 0xB1))
/-- SMBUS_STATUS (R462). -/
def execSmbusStatus (s : State) : Out := next (s.smbusAnswer (leBytes 2 s.smbusStatusWord))
/-- SMBUS_BOOT (R462). -/
def execSmbusBoot (s : State) : Out := next { s.smbusAnswer s.smbusBootBytes with free := s.free + 1 }
/-- SMBUS_VIN (R462). -/
def execSmbusVin (s : State) : Out := next (s.smbusAnswer (leBytes 2 s.power.reading.millivolts))
/-- SMBUS_IIN (R462). -/
def execSmbusIin (s : State) : Out := next (s.smbusAnswer (leBytes 2 s.power.reading.milliamps))
/-- SMBUS_PIN (R462). -/
def execSmbusPin (s : State) : Out := next (s.smbusAnswer (leBytes 2 s.power.meanPin))
/-- SMBUS_TEMP (R462). -/
def execSmbusTemp (s : State) : Out :=
  let t := s.power.temps
  next (s.smbusAnswer (degByte (hottest t.furrows) ++ degByte (hottest t.hbm) ++ degByte (hottest t.optics) ++ degByte t.other))
/-- SMBUS_HOLDUP (R462). -/
def execSmbusHoldup (s : State) : Out := next (s.smbusAnswer (leBytes 2 s.power.holdupMj))
/-- SMBUS_SHUTDOWN_CAUSE (R462). -/
def execSmbusShutdownCause (s : State) : Out := next (s.smbusAnswer [s.mram.shutdownCause])
/-- SMBUS_WRITE: no write is acknowledged (R462). -/
def execSmbusWrite (_code : Byte) (_data : Bytes) (s : State) : Out := next (s.emit .smbusNak)

end Sys2Proof.Machine
end

