-- ==== Sys2Proof/Machine/RelayCmds.lean ====
section
/-! DEFINITION. Machine/RelayCmds.lean: the relay commands (R364 to R372). -/

namespace Sys2Proof.Machine

/-- RELAY_SET (R364, R365, R367, R368, R372). -/
def relaySetPlan (c : Cmd) (s : State) : Plan :=
  setPlan true 20
    ([argCheck 0 (decide (c.u32 0 < 1) || decide (c.u32 0 > 0xFFFFF)), argCheck 4 (decide (c.u8 4 < 1))] ++ reserved c 5 3 ++
     [argCheck 8 (decide (c.u32 8 < 1) || decide (c.u32 8 > 1000)), argCheck 12 (decide (c.u32 12 < 100) || decide (c.u32 12 > 1000000)),
      checkOn 5 rcBadState [0] (c.u32 0 != s.relay.nodeId && s.conns.any (fun q => q.2.node && q.2.state == .ready))])
    (fun st => { st with relay := { st.relay with
      nodeId := c.u32 0, hopLimit := c.u8 4, flowIdleUs := c.u32 8, unreachHoldUs := c.u32 12, ports := BitVec.ofNat 32 (c.u32 16) } })

/-- RELAY_TABLE_WRITE: only the idle epoch's table (R366, R369, R372). -/
def relayTableWritePlan (c : Cmd) (s : State) : Plan :=
  let e := c.u8 0 == 1
  let i := c.u16 2
  let ent : RelayEntry := ⟨BitVec.ofNat 20 (c.u32 4), c.u8 8, (c.bytes 12 8).map (fun b => b.toNat) |>.filter (fun n => n != 0xFF)⟩
  let put := fun (t : Tbl RelayEntry) => if c.u8 9 = 1 then tset t i ent else tdel t i
  setPlan true 20
    ([argCheck 0 (decide (c.u8 0 > 1))] ++ reserved c 1 1 ++ [argCheck 2 (decide (i > 4095)), argCheck 4 (decide (c.u32 4 > 0xFFFFF)),
      argCheck 8 (decide (c.u8 8 > 20)), argCheck 9 (decide (c.u8 9 > 1))] ++ reserved c 10 2 ++
     (List.range 8).map (fun k => argCheck (12 + k) (c.u8 (12 + k) != 0xFF && (decide (c.u8 (12 + k) ≥ 32) || !s.portExists (c.port (12 + k))))) ++
     [checkOn 5 rcBadState [0] (e == s.relay.epoch)])
    (fun st =>
      let r := st.relay
      let r1 : Relay := { r with heldOut := r.heldOut.filter (fun h => !(h.1 == e && h.2.1 == i)) }
      { st with relay := if e then { r1 with table1 := put r.table1 } else { r1 with table0 := put r.table0 } })

/-- DRAINING_PATHS (R371). -/
def State.draining (s : State) : Nat :=
  (s.conns.map (fun q => ((List.range (max 1 q.2.npaths)).filter (fun p => q.2.native && (q.2.pathCc p).draining)).length)).sum

/-- Every path of every native connection drains towards the current epoch; those with nothing unacknowledged switch at once
(R370). -/
def State.switchAll (s : State) : State :=
  forEach (tkeys s.conns) s (fun st n =>
    (st.modConn n (fun c => if !c.native then c else
      (List.range c.npaths).foldl (fun v p =>
        let q := v.pathCc p
        if q.epoch != st.relay.epoch then v.setPath p { q with draining := true } else v) c)).switchPaths n)

/-- RELAY_EPOCH_SWITCH (R370, R371). -/
def relayEpochSwitchPlan (c : Cmd) (s : State) : Plan :=
  setPlan true 8
    ([argCheck 0 (decide (c.u8 0 > 1))] ++ reserved c 1 3 ++ [argCheck 4 (decide (c.u32 4 < 100) || decide (c.u32 4 > 1000000)),
      ⟨9, decide (s.draining > 0), rcBusy, 2, [], []⟩])
    (fun st => if (c.u8 0 == 1) == st.relay.epoch then st
      else State.switchAll { st with relay := { st.relay with epoch := c.u8 0 == 1, drainMaxUs := c.u32 4 } })

/-- RELAY_QUERY (R372). -/
def relayQueryPlan (_c : Cmd) (_s : State) : Plan :=
  queryPlan false 0 [] (fun st =>
    let r := st.relay
    leBytes 4 r.nodeId ++ leBytes 1 (b2n r.epoch) ++ leBytes 1 r.hopLimit ++ zeros 2 ++ leBytes 4 st.draining ++ leBytes 4 r.flows.length ++
    leBytes 8 r.relayed ++ leBytes 8 r.noRoute ++ leBytes 8 r.hopExpired ++ leBytes 8 r.disabled)

/-- RELAY_SET (R372). -/
def execRelaySet (f : FuncId) (s : State) : Out := s.perform f 0x0630 relaySetPlan
/-- RELAY_TABLE_WRITE (R369). -/
def execRelayTableWrite (f : FuncId) (s : State) : Out := s.perform f 0x0631 relayTableWritePlan
/-- RELAY_EPOCH_SWITCH (R370). -/
def execRelayEpochSwitch (f : FuncId) (s : State) : Out := s.perform f 0x0632 relayEpochSwitchPlan
/-- RELAY_QUERY (R372). -/
def execRelayQuery (f : FuncId) (s : State) : Out := s.perform f 0x0633 relayQueryPlan

end Sys2Proof.Machine
end

