-- ==== Sys2Proof/Machine/StopEvents.lean ====
section
/-! DEFINITION. Machine/StopEvents.lean: the end of a global stop, by GLOBAL_RESUME or FREEZE#, its start by FREEZE#, and the stop
reference (R445 to R447). What arrived in the stop takes effect at resume, in order of arrival. -/

namespace Sys2Proof.Machine

/-- The state that a meaning answers. -/
def stateOf (o : Out) (s : State) : State :=
  match o with
  | .next t => t
  | .fault _ => s
  | .refused _ => s

/-- A frame leaves the receive buffer that held it during the stop. -/
def State.frameOut (s : State) (p : LPort) (l : L2) (cls : Nat) : State := s.rxFree p cls l.length

/-- The machine ready to take an arrival that a stop held: its frame, if it is one, is out of the receive buffer. -/
def State.readyFor (s : State) (c : Instr) : State :=
  let native := fun (p : LPort) (fr : NFrame) => s.frameOut p fr.l2 (s.ipClass p fr.ip)
  match c with
  | .rxFrameDiscard p fr => s.frameOut p fr.l2 (s.rxClass p fr)
  | .rxRawFrame p fr => s.frameOut p fr.l2 (s.rxClass p fr)
  | .rxDrillFrame p fr => s.frameOut p fr.l2 (s.rxClass p fr)
  | .rxRocePacket p fr => s.frameOut p fr.l2 (s.ipClass p fr.ip)
  | .rxCnp p fr => s.frameOut p fr.l2 (s.ipClass p fr.ip)
  | .rxWrite p fr => native p fr
  | .rxWriteFlag p fr => native p fr
  | .rxSend p fr => native p fr
  | .rxReadReq p fr => native p fr
  | .rxReadResp p fr => native p fr
  | .rxAtomicReq p fr => native p fr
  | .rxAtomicResp p fr => native p fr
  | .rxAck p fr => native p fr
  | .rxNakRnr p fr => native p fr
  | .rxNakAccess p fr => native p fr
  | .rxNakSeq p fr => native p fr
  | .rxNakClosed p fr => native p fr
  | .rxProbe p fr => native p fr
  | .rxProbeReply p fr => native p fr
  | .rxUnreach p fr => native p fr
  | .relayFrame p fr => native p fr
  | .rxCollUp p fr => native p fr
  | .rxCollDown p fr => native p fr
  | .rxCollReport p fr => native p fr
  | .rxCollSeal p fr => native p fr
  | .rxCollRepair p fr => native p fr
  | .rxCollGrant p fr => native p fr
  | _ => s

/-- The effect of an arrival that a global stop held; commands of no other kind are ever held. -/
def heldEffect (c : Instr) (s : State) : Out :=
  match c with
  | .regWrite f bar off size value => execRegWrite f bar off size value s
  | .badRegAccess f bar write off size => execBadRegAccess f bar write off size s
  | .winSet f reg value => execWinSet f reg value s
  | .evcClaimRead f => execEvcClaimRead f s
  | .evcEoiWrite f value => execEvcEoiWrite f value s
  | .evcThresholdWrite f value => execEvcThresholdWrite f value s
  | .evcRaiseSignal f value => execEvcRaiseSignal f value s
  | .evcRaiseWithdraw f value => execEvcRaiseWithdraw f value s
  | .evcCtrlWrite f value => execEvcCtrlWrite f value s
  | .evcRouteWrite f source value => execEvcRouteWrite f source value s
  | .msixVectorUnmask f vector => execMsixVectorUnmask f vector s
  | .cntSnap f value => execCntSnap f value s
  | .bar2Read f off len obs => execBar2Read f off len obs s
  | .bar2Write f off data obs => execBar2Write f off data obs s
  | .dblWork f ring value whole => execDblWork f ring value whole s
  | .dblCq f cq value whole obs => execDblCq f cq value whole obs s
  | .dblCqArm f cq value whole => execDblCqArm f cq value whole s
  | .entryReadDone f ring got last => execEntryReadDone f ring got last s
  | .entryReadFault f ring cause => execEntryReadFault f ring cause s
  | .dmaReadCompletion x bytes => execDmaReadCompletion x bytes s
  | .flushComplete id => execFlushComplete id s
  | .flushFailed id => execFlushFailed id s
  | .atsTranslationDone x ans => execAtsTranslationDone x ans s
  | .pageRequestResponse x ans => execPageRequestResponse x ans s
  | .invalidateRequest l f pasid base len => execInvalidateRequest l f pasid base len s
  | .linkDown l => execLinkDown l s
  | .linkUp l rate width => execLinkUp l rate width s
  | .replayDone l => execReplayDone l s
  | .retrainWindowExpiry l => execRetrainWindowExpiry l s
  | .linkHotReset l => execLinkHotReset l s
  | .functionLevelReset f => execFunctionLevelReset f s
  | .configResetDone f => execConfigResetDone f s
  | .vfEnable l n => execVfEnable l n s
  | .vfDisable l n => execVfDisable l n s
  | .d3hotEntry f => execD3hotEntry f s
  | .d0Return f => execD0Return f s
  | .rxFrameDiscard p fr => execRxFrameDiscard p fr s
  | .rxRawFrame p fr => execRxRawFrame p fr s
  | .rxDrillFrame p fr => execRxDrillFrame p fr s
  | .rxRocePacket p fr => execRxRocePacket p fr s
  | .rxCnp p fr => execRxCnp p fr s
  | .rxWrite p fr => execRxWrite p fr s
  | .rxWriteFlag p fr => execRxWriteFlag p fr s
  | .rxSend p fr => execRxSend p fr s
  | .rxReadReq p fr => execRxReadReq p fr s
  | .rxReadResp p fr => execRxReadResp p fr s
  | .rxAtomicReq p fr => execRxAtomicReq p fr s
  | .rxAtomicResp p fr => execRxAtomicResp p fr s
  | .rxAck p fr => execRxAck p fr s
  | .rxNakRnr p fr => execRxNakRnr p fr s
  | .rxNakAccess p fr => execRxNakAccess p fr s
  | .rxNakSeq p fr => execRxNakSeq p fr s
  | .rxNakClosed p fr => execRxNakClosed p fr s
  | .rxProbe p fr => execRxProbe p fr s
  | .rxProbeReply p fr => execRxProbeReply p fr s
  | .rxUnreach p fr => execRxUnreach p fr s
  | .relayFrame p fr => execRelayFrame p fr s
  | .rxCollUp p fr => execRxCollUp p fr s
  | .rxCollDown p fr => execRxCollDown p fr s
  | .rxCollReport p fr => execRxCollReport p fr s
  | .rxCollSeal p fr => execRxCollSeal p fr s
  | .rxCollRepair p fr => execRxCollRepair p fr s
  | .rxCollGrant p fr => execRxCollGrant p fr s
  | _ => next s

/-- A deterministic run that spans a stop is late (R446). -/
def State.lateRuns (s : State) : State :=
  { s with progs := s.progs.map (fun (q : Nat × Prog) =>
      if q.2.deterministic then (q.1, { q.2 with current := q.2.current.map (fun r => { r with late := true }) }) else q) }

/-- Every domain restarts, and what arrived takes effect in order (R446). -/
def State.resume (s : State) : State :=
  let s1 : State := { s.lateRuns with stop := { s.stop with stopped := false, byPin := false }, held := [] }
  let s2 := s.held.foldl (fun st (w : Nat × Nat × Instr) => stateOf (heldEffect w.2.2 { st.readyFor w.2.2 with rxAt := some (w.1, w.2.1) }) st) s1
  let s3 := State.gatesRecompute { s2 with rxAt := none }
  (forEach s3.livePorts s3 (fun st p => forEach (List.range 8) st (fun w k => w.pfcCheck p k))).settle

/-- GLOBAL_RESUME (R446, R448). -/
def globalResumePlan (_c : Cmd) (s : State) : Plan :=
  setPlan true 0 [plainCheck 5 rcBadState s.power.freezeLow] (fun st => if st.stop.stopped then st.resume else st)

/-- GLOBAL_RESUME (R446). -/
def execGlobalResume (f : FuncId) (s : State) : Out := s.perform f 0x0C51 globalResumePlan

/-- FREEZE_ASSERT: FREEZE# has been low for 100 ns; it is sampled from the end of boot step 11 (R445, R459). -/
def execFreezeAssert (s : State) : Out :=
  let s1 : State := { s with power := { s.power with freezeLow := true } }
  next (if s.power.served then (s1.globalStop true).settle else s1)

/-- FREEZE_RELEASE: a stop that FREEZE# started ends (R446). -/
def execFreezeRelease (s : State) : Out :=
  let s1 : State := { s with power := { s.power with freezeLow := false } }
  next (if s.stop.stopped && s.stop.byPin then s1.resume else s1)

/-- STOP_REF_LATCH: the stop tree latches each domain's counter (R447). -/
def execStopRefLatch (s : State) : Out :=
  next (if s.power.on then { s with stop := { s.stop with
      refTime := s.time, refCounts := (List.range 236).map s.domainCount } }
    else s)

end Sys2Proof.Machine
end

