-- ==== Sys2Proof/Machine/Dispatch.lean ====
section
/-! DEFINITION. Machine/Dispatch.lean: the effect of each command, one arm per constructor of `Instr`. -/

namespace Sys2Proof.Machine

def exec (i : Instr) (s : State) : Host.Outcome State Fault Refusal :=
  match i with
  | .nop f => Sys2Proof.Machine.execNop f s
  | .moduleInfo f => Sys2Proof.Machine.execModuleInfo f s
  | .undefinedOpcode f => Sys2Proof.Machine.execUndefinedOpcode f s
  | .funcQuery f => Sys2Proof.Machine.execFuncQuery f s
  | .funcCreate f => Sys2Proof.Machine.execFuncCreate f s
  | .funcDestroy f => Sys2Proof.Machine.execFuncDestroy f s
  | .funcShareSet f => Sys2Proof.Machine.execFuncShareSet f s
  | .funcAttach f => Sys2Proof.Machine.execFuncAttach f s
  | .managerTransfer f => Sys2Proof.Machine.execManagerTransfer f s
  | .funcPolicySet f => Sys2Proof.Machine.execFuncPolicySet f s
  | .regionCreate f => Sys2Proof.Machine.execRegionCreate f s
  | .regionDestroy f => Sys2Proof.Machine.execRegionDestroy f s
  | .regionQuery f => Sys2Proof.Machine.execRegionQuery f s
  | .regionRemap f => Sys2Proof.Machine.execRegionRemap f s
  | .mirrorInvalidate f => Sys2Proof.Machine.execMirrorInvalidate f s
  | .hotConfig f => Sys2Proof.Machine.execHotConfig f s
  | .hotRead f => Sys2Proof.Machine.execHotRead f s
  | .ringCreate f => Sys2Proof.Machine.execRingCreate f s
  | .ringDestroy f => Sys2Proof.Machine.execRingDestroy f s
  | .ringQuery f => Sys2Proof.Machine.execRingQuery f s
  | .ringModify f => Sys2Proof.Machine.execRingModify f s
  | .ringRestart f => Sys2Proof.Machine.execRingRestart f s
  | .cqCreate f => Sys2Proof.Machine.execCqCreate f s
  | .cqDestroy f => Sys2Proof.Machine.execCqDestroy f s
  | .cqQuery f => Sys2Proof.Machine.execCqQuery f s
  | .connCreate f => Sys2Proof.Machine.execConnCreate f s
  | .connConnect f => Sys2Proof.Machine.execConnConnect f s
  | .connDestroy f => Sys2Proof.Machine.execConnDestroy f s
  | .connQuery f => Sys2Proof.Machine.execConnQuery f s
  | .connReset f => Sys2Proof.Machine.execConnReset f s
  | .trigAlloc f => Sys2Proof.Machine.execTrigAlloc f s
  | .trigFree f => Sys2Proof.Machine.execTrigFree f s
  | .trigSet f => Sys2Proof.Machine.execTrigSet f s
  | .trigQuery f => Sys2Proof.Machine.execTrigQuery f s
  | .trigAdd f => Sys2Proof.Machine.execTrigAdd f s
  | .keyCreate f => Sys2Proof.Machine.execKeyCreate f s
  | .keyDestroy f => Sys2Proof.Machine.execKeyDestroy f s
  | .connSetKeys f => Sys2Proof.Machine.execConnSetKeys f s
  | .connRotateKeys f => Sys2Proof.Machine.execConnRotateKeys f s
  | .xportSet f => Sys2Proof.Machine.execXportSet f s
  | .xportQuery f => Sys2Proof.Machine.execXportQuery f s
  | .ccSet f => Sys2Proof.Machine.execCcSet f s
  | .ccQuery f => Sys2Proof.Machine.execCcQuery f s
  | .shaperAlloc f => Sys2Proof.Machine.execShaperAlloc f s
  | .shaperSet f => Sys2Proof.Machine.execShaperSet f s
  | .shaperBind f => Sys2Proof.Machine.execShaperBind f s
  | .shaperFree f => Sys2Proof.Machine.execShaperFree f s
  | .schedFuncSet f => Sys2Proof.Machine.execSchedFuncSet f s
  | .schedClassSet f => Sys2Proof.Machine.execSchedClassSet f s
  | .policerSet f => Sys2Proof.Machine.execPolicerSet f s
  | .policerQuery f => Sys2Proof.Machine.execPolicerQuery f s
  | .policerFree f => Sys2Proof.Machine.execPolicerFree f s
  | .gateSet f => Sys2Proof.Machine.execGateSet f s
  | .gateQuery f => Sys2Proof.Machine.execGateQuery f s
  | .portQuery f => Sys2Proof.Machine.execPortQuery f s
  | .portSet f => Sys2Proof.Machine.execPortSet f s
  | .portBreakout f => Sys2Proof.Machine.execPortBreakout f s
  | .portReset f => Sys2Proof.Machine.execPortReset f s
  | .portStats f => Sys2Proof.Machine.execPortStats f s
  | .portGlobalSet f => Sys2Proof.Machine.execPortGlobalSet f s
  | .portMgmtSet f => Sys2Proof.Machine.execPortMgmtSet f s
  | .portFilterSet f => Sys2Proof.Machine.execPortFilterSet f s
  | .portQueueBind f => Sys2Proof.Machine.execPortQueueBind f s
  | .ptpAdjust f => Sys2Proof.Machine.execPtpAdjust f s
  | .ptpRead f => Sys2Proof.Machine.execPtpRead f s
  | .portTsBind f => Sys2Proof.Machine.execPortTsBind f s
  | .relaySet f => Sys2Proof.Machine.execRelaySet f s
  | .relayTableWrite f => Sys2Proof.Machine.execRelayTableWrite f s
  | .relayEpochSwitch f => Sys2Proof.Machine.execRelayEpochSwitch f s
  | .relayQuery f => Sys2Proof.Machine.execRelayQuery f s
  | .commCreate f => Sys2Proof.Machine.execCommCreate f s
  | .commDestroy f => Sys2Proof.Machine.execCommDestroy f s
  | .commQuery f => Sys2Proof.Machine.execCommQuery f s
  | .collRingCreate f => Sys2Proof.Machine.execCollRingCreate f s
  | .collSlotsQuery f => Sys2Proof.Machine.execCollSlotsQuery f s
  | .drillLoad f img code => Sys2Proof.Machine.execDrillLoad f img code s
  | .drillUnload f => Sys2Proof.Machine.execDrillUnload f s
  | .drillQuery f => Sys2Proof.Machine.execDrillQuery f s
  | .drillControl f => Sys2Proof.Machine.execDrillControl f s
  | .furrowQuery f => Sys2Proof.Machine.execFurrowQuery f s
  | .memLayoutQuery f => Sys2Proof.Machine.execMemLayoutQuery f s
  | .memLayoutSet f => Sys2Proof.Machine.execMemLayoutSet f s
  | .shareScrub f => Sys2Proof.Machine.execShareScrub f s
  | .scrubSet f => Sys2Proof.Machine.execScrubSet f s
  | .scrubQuery f => Sys2Proof.Machine.execScrubQuery f s
  | .granuleGrant f => Sys2Proof.Machine.execGranuleGrant f s
  | .granuleRevoke f => Sys2Proof.Machine.execGranuleRevoke f s
  | .granuleQuery f => Sys2Proof.Machine.execGranuleQuery f s
  | .spareQuery f => Sys2Proof.Machine.execSpareQuery f s
  | .repair f => Sys2Proof.Machine.execRepair f s
  | .holdupTest f mj => Sys2Proof.Machine.execHoldupTest f mj s
  | .moduleReset f => Sys2Proof.Machine.execModuleReset f s
  | .fwRestart f => Sys2Proof.Machine.execFwRestart f s
  | .tineReset f => Sys2Proof.Machine.execTineReset f s
  | .moduleFallow f => Sys2Proof.Machine.execModuleFallow f s
  | .moduleWipe f => Sys2Proof.Machine.execModuleWipe f s
  | .imageQuery f => Sys2Proof.Machine.execImageQuery f s
  | .imageProgram f img => Sys2Proof.Machine.execImageProgram f img s
  | .imageSelect f => Sys2Proof.Machine.execImageSelect f s
  | .bootLogRead f => Sys2Proof.Machine.execBootLogRead f s
  | .bootLogClear f => Sys2Proof.Machine.execBootLogClear f s
  | .lcQuery f => Sys2Proof.Machine.execLcQuery f s
  | .lcChallenge f => Sys2Proof.Machine.execLcChallenge f s
  | .lcTransition f signatureGood => Sys2Proof.Machine.execLcTransition f signatureGood s
  | .factoryTest f => Sys2Proof.Machine.execFactoryTest f s
  | .cntGlobalRead f => Sys2Proof.Machine.execCntGlobalRead f s
  | .traceConfig f => Sys2Proof.Machine.execTraceConfig f s
  | .traceControl f => Sys2Proof.Machine.execTraceControl f s
  | .traceQuery f => Sys2Proof.Machine.execTraceQuery f s
  | .traceRead f => Sys2Proof.Machine.execTraceRead f s
  | .faultRead f => Sys2Proof.Machine.execFaultRead f s
  | .hangGraph f => Sys2Proof.Machine.execHangGraph f s
  | .gleanArm f size => Sys2Proof.Machine.execGleanArm f size s
  | .gleanQuery f => Sys2Proof.Machine.execGleanQuery f s
  | .gleanCancel f => Sys2Proof.Machine.execGleanCancel f s
  | .globalStop f => Sys2Proof.Machine.execGlobalStop f s
  | .globalResume f => Sys2Proof.Machine.execGlobalResume f s
  | .stopRead f => Sys2Proof.Machine.execStopRead f s
  | .longCommandDone f => Sys2Proof.Machine.execLongCommandDone f s
  | .progressRecord f stage doneUnits totalUnits remainingMs => Sys2Proof.Machine.execProgressRecord f stage doneUnits totalUnits remainingMs s
  | .commandTimeout f => Sys2Proof.Machine.execCommandTimeout f s
  | .mbxGo f value => Sys2Proof.Machine.execMbxGo f value s
  | .mbxEvtConsWrite f value => Sys2Proof.Machine.execMbxEvtConsWrite f value s
  | .mbxEvtLostRead f => Sys2Proof.Machine.execMbxEvtLostRead f s
  | .regWrite f bar off size value => Sys2Proof.Machine.execRegWrite f bar off size value s
  | .badRegAccess f bar write off size => Sys2Proof.Machine.execBadRegAccess f bar write off size s
  | .idTimeLoRead f => Sys2Proof.Machine.execIdTimeLoRead f s
  | .winSet f reg value => Sys2Proof.Machine.execWinSet f reg value s
  | .bar2Read f off len obs => Sys2Proof.Machine.execBar2Read f off len obs s
  | .bar2Write f off data obs => Sys2Proof.Machine.execBar2Write f off data obs s
  | .evcClaimRead f => Sys2Proof.Machine.execEvcClaimRead f s
  | .evcEoiWrite f value => Sys2Proof.Machine.execEvcEoiWrite f value s
  | .evcThresholdWrite f value => Sys2Proof.Machine.execEvcThresholdWrite f value s
  | .evcRaiseSignal f value => Sys2Proof.Machine.execEvcRaiseSignal f value s
  | .evcRaiseWithdraw f value => Sys2Proof.Machine.execEvcRaiseWithdraw f value s
  | .evcCtrlWrite f value => Sys2Proof.Machine.execEvcCtrlWrite f value s
  | .evcRouteWrite f source value => Sys2Proof.Machine.execEvcRouteWrite f source value s
  | .evcSourceSignal f source => Sys2Proof.Machine.execEvcSourceSignal f source s
  | .evcSourceWithdraw f source => Sys2Proof.Machine.execEvcSourceWithdraw f source s
  | .msixVectorUnmask f vector => Sys2Proof.Machine.execMsixVectorUnmask f vector s
  | .msixFunctionUnmask f => Sys2Proof.Machine.execMsixFunctionUnmask f s
  | .msixEnableSet f => Sys2Proof.Machine.execMsixEnableSet f s
  | .cntSnap f value => Sys2Proof.Machine.execCntSnap f value s
  | .cntSnapDone f => Sys2Proof.Machine.execCntSnapDone f s
  | .dblWork f ring value whole => Sys2Proof.Machine.execDblWork f ring value whole s
  | .dblCq f cq value whole obs => Sys2Proof.Machine.execDblCq f cq value whole obs s
  | .dblCqArm f cq value whole => Sys2Proof.Machine.execDblCqArm f cq value whole s
  | .copy f ring => Sys2Proof.Machine.execCopy f ring s
  | .write f ring => Sys2Proof.Machine.execWrite f ring s
  | .read f ring => Sys2Proof.Machine.execRead f ring s
  | .send f ring => Sys2Proof.Machine.execSend f ring s
  | .recv f ring => Sys2Proof.Machine.execRecv f ring s
  | .fetchAdd f ring => Sys2Proof.Machine.execFetchAdd f ring s
  | .cmpSwap f ring => Sys2Proof.Machine.execCmpSwap f ring s
  | .swap f ring => Sys2Proof.Machine.execSwap f ring s
  | .rawSend f ring => Sys2Proof.Machine.execRawSend f ring s
  | .allreduce f ring => Sys2Proof.Machine.execAllreduce f ring s
  | .reduce f ring => Sys2Proof.Machine.execReduce f ring s
  | .broadcast f ring => Sys2Proof.Machine.execBroadcast f ring s
  | .reduceScatter f ring => Sys2Proof.Machine.execReduceScatter f ring s
  | .allgather f ring => Sys2Proof.Machine.execAllgather f ring s
  | .entryReadDone f ring got lastReread => Sys2Proof.Machine.execEntryReadDone f ring got lastReread s
  | .entryReadFault f ring cause => Sys2Proof.Machine.execEntryReadFault f ring cause s
  | .triggeredStart f ring => Sys2Proof.Machine.execTriggeredStart f ring s
  | .dmaReadCompletion x bytes => Sys2Proof.Machine.execDmaReadCompletion x bytes s
  | .packetSend conn => Sys2Proof.Machine.execPacketSend conn s
  | .egressFrameStart p => Sys2Proof.Machine.execEgressFrameStart p s
  | .shaperRefill => Sys2Proof.Machine.execShaperRefill s
  | .gateIntervalEnd p => Sys2Proof.Machine.execGateIntervalEnd p s
  | .gateListSwitch p => Sys2Proof.Machine.execGateListSwitch p s
  | .rxFrameDiscard p fr => Sys2Proof.Machine.execRxFrameDiscard p fr s
  | .rxWrite p fr => Sys2Proof.Machine.execRxWrite p fr s
  | .rxWriteFlag p fr => Sys2Proof.Machine.execRxWriteFlag p fr s
  | .rxSend p fr => Sys2Proof.Machine.execRxSend p fr s
  | .rxReadReq p fr => Sys2Proof.Machine.execRxReadReq p fr s
  | .rxReadResp p fr => Sys2Proof.Machine.execRxReadResp p fr s
  | .rxAtomicReq p fr => Sys2Proof.Machine.execRxAtomicReq p fr s
  | .rxAtomicResp p fr => Sys2Proof.Machine.execRxAtomicResp p fr s
  | .rxAck p fr => Sys2Proof.Machine.execRxAck p fr s
  | .rxNakRnr p fr => Sys2Proof.Machine.execRxNakRnr p fr s
  | .rxNakAccess p fr => Sys2Proof.Machine.execRxNakAccess p fr s
  | .rxNakSeq p fr => Sys2Proof.Machine.execRxNakSeq p fr s
  | .rxNakClosed p fr => Sys2Proof.Machine.execRxNakClosed p fr s
  | .rxProbe p fr => Sys2Proof.Machine.execRxProbe p fr s
  | .rxProbeReply p fr => Sys2Proof.Machine.execRxProbeReply p fr s
  | .rxUnreach p fr => Sys2Proof.Machine.execRxUnreach p fr s
  | .relayFrame p fr => Sys2Proof.Machine.execRelayFrame p fr s
  | .rxRocePacket p fr => Sys2Proof.Machine.execRxRocePacket p fr s
  | .rxCnp p fr => Sys2Proof.Machine.execRxCnp p fr s
  | .rpTimerExpiry conn => Sys2Proof.Machine.execRpTimerExpiry conn s
  | .rxCollUp p fr => Sys2Proof.Machine.execRxCollUp p fr s
  | .rxCollDown p fr => Sys2Proof.Machine.execRxCollDown p fr s
  | .rxCollReport p fr => Sys2Proof.Machine.execRxCollReport p fr s
  | .rxCollSeal p fr => Sys2Proof.Machine.execRxCollSeal p fr s
  | .rxCollRepair p fr => Sys2Proof.Machine.execRxCollRepair p fr s
  | .rxCollGrant p fr => Sys2Proof.Machine.execRxCollGrant p fr s
  | .rxPause p quanta => Sys2Proof.Machine.execRxPause p quanta s
  | .rxPfc p enables quanta => Sys2Proof.Machine.execRxPfc p enables quanta s
  | .pauseQuantaExpiry p cls => Sys2Proof.Machine.execPauseQuantaExpiry p cls s
  | .pfcXoffRefresh p cls => Sys2Proof.Machine.execPfcXoffRefresh p cls s
  | .rxPreemptVerify p respond => Sys2Proof.Machine.execRxPreemptVerify p respond s
  | .preemptVerifyTimeout p => Sys2Proof.Machine.execPreemptVerifyTimeout p s
  | .rxRawFrame p fr => Sys2Proof.Machine.execRxRawFrame p fr s
  | .rxDrillFrame p fr => Sys2Proof.Machine.execRxDrillFrame p fr s
  | .drillFrameVerdict prog good => Sys2Proof.Machine.execDrillFrameVerdict prog good s
  | .contextFetchDone conn obs => Sys2Proof.Machine.execContextFetchDone conn obs s
  | .memWriteResponse x obs => Sys2Proof.Machine.execMemWriteResponse x obs s
  | .flushComplete id => Sys2Proof.Machine.execFlushComplete id s
  | .flushFailed id => Sys2Proof.Machine.execFlushFailed id s
  | .probeFlushTimer => Sys2Proof.Machine.execProbeFlushTimer s
  | .ackDelayExpiry conn => Sys2Proof.Machine.execAckDelayExpiry conn s
  | .rtoExpiry conn => Sys2Proof.Machine.execRtoExpiry conn s
  | .probeIntervalExpiry conn => Sys2Proof.Machine.execProbeIntervalExpiry conn s
  | .rnrRetryExpiry conn => Sys2Proof.Machine.execRnrRetryExpiry conn s
  | .flowIdleExpiry die node conn path => Sys2Proof.Machine.execFlowIdleExpiry die node conn path s
  | .unreachHoldExpiry epoch index p => Sys2Proof.Machine.execUnreachHoldExpiry epoch index p s
  | .drainMaxExpiry conn path => Sys2Proof.Machine.execDrainMaxExpiry conn path s
  | .atsTranslationDone x ans => Sys2Proof.Machine.execAtsTranslationDone x ans s
  | .pageRequestResponse x ans => Sys2Proof.Machine.execPageRequestResponse x ans s
  | .pageRequestTimeout x => Sys2Proof.Machine.execPageRequestTimeout x s
  | .invalidateRequest l f pasid base len => Sys2Proof.Machine.execInvalidateRequest l f pasid base len s
  | .invalidateReadTimeout id => Sys2Proof.Machine.execInvalidateReadTimeout id s
  | .atsDisable f => Sys2Proof.Machine.execAtsDisable f s
  | .priReenable f => Sys2Proof.Machine.execPriReenable f s
  | .linkDown l => Sys2Proof.Machine.execLinkDown l s
  | .linkUp l rate width => Sys2Proof.Machine.execLinkUp l rate width s
  | .replayDone l => Sys2Proof.Machine.execReplayDone l s
  | .retrainWindowExpiry l => Sys2Proof.Machine.execRetrainWindowExpiry l s
  | .linkHotReset l => Sys2Proof.Machine.execLinkHotReset l s
  | .functionLevelReset f => Sys2Proof.Machine.execFunctionLevelReset f s
  | .configResetDone f => Sys2Proof.Machine.execConfigResetDone f s
  | .attachMsExpiry f => Sys2Proof.Machine.execAttachMsExpiry f s
  | .teardownDone f => Sys2Proof.Machine.execTeardownDone f s
  | .vfEnable l numVfs => Sys2Proof.Machine.execVfEnable l numVfs s
  | .vfDisable l numVfs => Sys2Proof.Machine.execVfDisable l numVfs s
  | .d3hotEntry f => Sys2Proof.Machine.execD3hotEntry f s
  | .d0Return f => Sys2Proof.Machine.execD0Return f s
  | .l1IdleEntry l => Sys2Proof.Machine.execL1IdleEntry l s
  | .l0pNarrow l => Sys2Proof.Machine.execL0pNarrow l s
  | .laneSerExceeded ph lane => Sys2Proof.Machine.execLaneSerExceeded ph lane s
  | .laneSignalLoss ph lane => Sys2Proof.Machine.execLaneSignalLoss ph lane s
  | .laneSwapDone ph => Sys2Proof.Machine.execLaneSwapDone ph s
  | .portLinkDown p => Sys2Proof.Machine.execPortLinkDown p s
  | .portLinkUp p peer7440 reversed => Sys2Proof.Machine.execPortLinkUp p peer7440 reversed s
  | .runStart prog feed => Sys2Proof.Machine.execRunStart prog feed s
  | .runScheduleEnd prog => Sys2Proof.Machine.execRunScheduleEnd prog s
  | .runEnd prog ops outs added cycles => Sys2Proof.Machine.execRunEnd prog ops outs added cycles s
  | .gleanStepReached prog step data => Sys2Proof.Machine.execGleanStepReached prog step data s
  | .rampGranted prog => Sys2Proof.Machine.execRampGranted prog s
  | .warmHoldExpiry fur => Sys2Proof.Machine.execWarmHoldExpiry fur s
  | .tineFault fur core tine => Sys2Proof.Machine.execTineFault fur core tine s
  | .tineThresholdDraw fur core tine => Sys2Proof.Machine.execTineThresholdDraw fur core tine s
  | .patrolScrub tilth obs => Sys2Proof.Machine.execPatrolScrub tilth obs s
  | .rehashDone stack => Sys2Proof.Machine.execRehashDone stack s
  | .hotIntervalEnd f => Sys2Proof.Machine.execHotIntervalEnd f s
  | .faultSummaryPost f => Sys2Proof.Machine.execFaultSummaryPost f s
  | .fwWatchdogExpiry => Sys2Proof.Machine.execFwWatchdogExpiry s
  | .fwFault => Sys2Proof.Machine.execFwFault s
  | .fwRestartDone => Sys2Proof.Machine.execFwRestartDone s
  | .stopRefLatch => Sys2Proof.Machine.execStopRefLatch s
  | .freezeAssert => Sys2Proof.Machine.execFreezeAssert s
  | .freezeRelease => Sys2Proof.Machine.execFreezeRelease s
  | .powerOn boots => Sys2Proof.Machine.execPowerOn boots s
  | .moduleResetStart boots => Sys2Proof.Machine.execModuleResetStart boots s
  | .mrstAssert boots => Sys2Proof.Machine.execMrstAssert boots s
  | .powerLoss => Sys2Proof.Machine.execPowerLoss s
  | .powerLossFlushDone => Sys2Proof.Machine.execPowerLossFlushDone s
  | .holdupMeasure mj => Sys2Proof.Machine.execHoldupMeasure mj s
  | .powerSample r => Sys2Proof.Machine.execPowerSample r s
  | .thermalSample t => Sys2Proof.Machine.execThermalSample t s
  | .overcurrent milliamps held50us => Sys2Proof.Machine.execOvercurrent milliamps held50us s
  | .ppsInEdge => Sys2Proof.Machine.execPpsInEdge s
  | .ppsOutSecond => Sys2Proof.Machine.execPpsOutSecond s
  | .refLock => Sys2Proof.Machine.execRefLock s
  | .refLost => Sys2Proof.Machine.execRefLost s
  | .smbusId => Sys2Proof.Machine.execSmbusId s
  | .smbusStatus => Sys2Proof.Machine.execSmbusStatus s
  | .smbusBoot => Sys2Proof.Machine.execSmbusBoot s
  | .smbusVin => Sys2Proof.Machine.execSmbusVin s
  | .smbusIin => Sys2Proof.Machine.execSmbusIin s
  | .smbusPin => Sys2Proof.Machine.execSmbusPin s
  | .smbusTemp => Sys2Proof.Machine.execSmbusTemp s
  | .smbusHoldup => Sys2Proof.Machine.execSmbusHoldup s
  | .smbusShutdownCause => Sys2Proof.Machine.execSmbusShutdownCause s
  | .smbusWrite code data => Sys2Proof.Machine.execSmbusWrite code data s
  | .msixFunctionMaskSet f => Sys2Proof.Machine.execMsixFunctionMaskSet f s
  | .msixEnableClear f => Sys2Proof.Machine.execMsixEnableClear f s
  | .atsEnableSet f => Sys2Proof.Machine.execAtsEnableSet f s
  | .memReadResponse x obs => Sys2Proof.Machine.execMemReadResponse x obs s
  | .contextWriteBackDone conn => Sys2Proof.Machine.execContextWriteBackDone conn s
  | .txFrameEnd p => Sys2Proof.Machine.execTxFrameEnd p s
  | .unloadRunTimeout f => Sys2Proof.Machine.execUnloadRunTimeout f s
  | .inputInsertion millivolts => Sys2Proof.Machine.execInputInsertion millivolts s

end Sys2Proof.Machine
end

