-- ==== Sys2Proof/Machine/Tick.lean ====
section
/-! DEFINITION. Machine/Tick.lean: what 1 ns of idle time does: module time and PTP time advance, and packets on the
fabric go on (R357 to R363). -/

namespace Sys2Proof.Machine

/-- The machine 1 ns later: module time, 64 bits (R64), and PTP time with its frequency offset of 2^−16 ppb (R250) both advance, and so do
the counters of the clock domains (R362) and what is on the fabric, whose domain a global stop freezes; an engine that waited for room
there goes on (R357, R360, R445; log entry 1). -/
def State.tick (s : State) : State :=
  let step : Int := 2 ^ 64 + s.ptpFreq * 2 ^ 48 / 1000000000
  let p : Int := (s.ptpFrac : Int) + step
  let s0 := if s.power.on then s.countClocks else s
  let s1 : State := { s0 with
    fabric := if s.power.on && !s.stop.stopped then s.fabric.tick s.time else s.fabric
    time := (s.time + 1) % 2 ^ 64
    ptp := (s.ptp + (p / 2 ^ 64).toNat) % 2 ^ 64
    ptpFrac := (p % 2 ^ 64).toNat }
  if s1.power.on && !s1.stop.stopped && s1.xfers.any (fun q => q.2.phase == .parked) then s1.retryFab.settle else s1

end Sys2Proof.Machine
end

