-- ==== Sys2Proof/Safety.lean ====
section
/-! DEFINITION. Safety.lean: what counts as a safe run, in the terms the claims use: runs of many steps, and what no command takes
back. -/

namespace Sys2Proof

/-- A native frame as the policers leave it, marked CE where `m` says so (R220). -/
def NFrame.marked (fr : NFrame) (m : Bool) : NFrame := if m then { fr with ip := { fr.ip with ecn := 3 } } else fr

end Sys2Proof

namespace Sys2Proof.Machine

/-- `n` steps from a state; `none` once a step stops. -/
def State.after (n : Nat) (s : State) : Option State :=
  match n with
  | 0 => some s
  | k + 1 => match step s with
    | .next t => State.after k t
    | .fault _ => none
    | .refused _ => none

/-- A safe run: no step of it ever stops. -/
def State.NeverStops (s : State) : Prop := ∀ n, (s.after n).isSome = true

/-- What a state promises to its successors: the commands that wait, and the records of MRAM that only move one way. -/
structure Pledge where
  /-- The queue of waiting commands. -/
  queue : List Instr
  /-- A bound below MIN_VERSION, which never falls (R422). -/
  minVersion : Nat
  /-- The fused seed has been destroyed (R427). -/
  seedGone : Bool
  /-- The module is DECOMMISSIONED, which no transition leaves (R425). -/
  decommissioned : Bool
  deriving DecidableEq, Repr

/-- The pledge a state makes. -/
def State.pledge (s : State) : Pledge := ⟨s.pending, s.mram.minVersion, s.mram.seedGone, s.mram.lc == 4⟩

/-- A state keeps a pledge: the queue is as it was, module memory has its canonical form (zero bytes unlisted, addresses rising),
MIN_VERSION has not fallen, a destroyed seed stays destroyed, a DECOMMISSIONED module stays so. -/
def State.Keeps (g : Pledge) (s : State) : Prop :=
  s.pending = g.queue ∧ Memory.wf s.mem.bytes = true ∧ g.minVersion ≤ s.mram.minVersion ∧
  (g.seedGone = true → s.mram.seedGone = true) ∧ (g.decommissioned = true → s.mram.lc = 4)

/-- A command's plan keeps a pledge whenever it runs. -/
def Plan.Keeps (g : Pledge) (p : Plan) : Prop := ∀ s, s.Keeps g → (p.run s).1.Keeps g

/-! ### What a mailbox command's step amounts to (R39, R45) -/

/-- Firmware takes function `f`'s command next, its OPCODE is `op`, CHECK_ONLY is clear, and every check of R45 passes. -/
def State.accepts (s : State) (f : FuncId) (op : Nat) (plan : Cmd → State → Plan) : Bool :=
  let c := s.cmd f
  let p := plan c s
  s.canTake f && c.opcode == op && !c.checkOnly && (firstFailing (commonChecks s c op p.managerOnly p.size ++ p.checks)).isNone

/-- Where it is accepted, command `i` makes the state `t`, and firmware answers reply `r`. -/
def Answers (i : Instr) (f : FuncId) (s : State) (op : Nat) (plan : Cmd → State → Plan) (t : State) (r : Reply) : Prop :=
  s.accepts f op plan = true → exec i s = .next (t.answer f r).settle

/-- Where it is accepted, command `i` makes the state `t` and goes on RUNNING, with work `job` and with its effect committed or not
(R42). -/
def GoesOn (i : Instr) (f : FuncId) (s : State) (op : Nat) (plan : Cmd → State → Plan) (t : State) (job : LongJob) (committed : Bool) : Prop :=
  s.accepts f op plan = true → exec i s = .next (t.modMbx f (fun m => { m with long := some (job, committed) })).settle

/-- The module is powered and not globally stopped: its engines run (R445). -/
def State.runs (s : State) : Bool := s.power.on && !s.stop.stopped

/-- The functions whose BARs a host can reach while arrivals are taken at once (R61, R445). -/
def State.served (s : State) (f : FuncId) : Bool := s.reachable f && !s.stop.stopped

/-! ### Mailbox commands (R37 to R47) -/

/-- What a mailbox command asks of firmware: the function it comes from, its opcode, its plan, the payload of its answer to
CHECK_ONLY, and what is done to the mailbox after the answer. -/
structure Request where
  f : FuncId
  op : Nat
  plan : Cmd → State → Plan
  dry : Cmd → State → Bytes
  last : State → State

/-- The mailbox commands of the table. KEY_CREATE also wipes the key from the mailbox (R201); FACTORY_TEST is a range of opcodes, and
undefined opcodes have none. -/
def mailRequest (i : Instr) : Option Request :=
  match i with
  | .nop f => some ⟨f, 0x0000, nopPlan, fun _ _ => [], id⟩
  | .moduleInfo f => some ⟨f, 0x0001, moduleInfoPlan, fun _ _ => [], id⟩
  | .funcQuery f => some ⟨f, 0x0100, funcQueryPlan, fun _ _ => [], id⟩
  | .funcCreate f => some ⟨f, 0x0101, funcCreatePlan, fun _ _ => [], id⟩
  | .funcDestroy f => some ⟨f, 0x0102, funcDestroyPlan, fun _ _ => [], id⟩
  | .funcShareSet f => some ⟨f, 0x0103, funcShareSetPlan, fun _ _ => [], id⟩
  | .funcAttach f => some ⟨f, 0x0104, funcAttachPlan, fun _ _ => [], id⟩
  | .managerTransfer f => some ⟨f, 0x0105, managerTransferPlan, fun _ _ => [], id⟩
  | .funcPolicySet f => some ⟨f, 0x0106, funcPolicySetPlan, fun _ _ => [], id⟩
  | .regionCreate f => some ⟨f, 0x0200, regionCreatePlan, fun _ _ => [], id⟩
  | .regionDestroy f => some ⟨f, 0x0201, regionDestroyPlan, fun _ _ => [], id⟩
  | .regionQuery f => some ⟨f, 0x0202, regionQueryPlan, fun _ _ => [], id⟩
  | .regionRemap f => some ⟨f, 0x0203, regionRemapPlan, fun _ _ => [], id⟩
  | .mirrorInvalidate f => some ⟨f, 0x0210, mirrorInvalidatePlan, fun _ _ => [], id⟩
  | .hotConfig f => some ⟨f, 0x0220, hotConfigPlan, fun _ _ => [], id⟩
  | .hotRead f => some ⟨f, 0x0221, hotReadPlan, fun _ _ => [], id⟩
  | .ringCreate f => some ⟨f, 0x0300, ringCreatePlan, fun _ _ => [], id⟩
  | .ringDestroy f => some ⟨f, 0x0301, ringDestroyPlan, fun _ _ => [], id⟩
  | .ringQuery f => some ⟨f, 0x0302, ringQueryPlan, fun _ _ => [], id⟩
  | .ringModify f => some ⟨f, 0x0303, ringModifyPlan, fun _ _ => [], id⟩
  | .ringRestart f => some ⟨f, 0x0304, ringRestartPlan, fun _ _ => [], id⟩
  | .cqCreate f => some ⟨f, 0x0310, cqCreatePlan, fun _ _ => [], id⟩
  | .cqDestroy f => some ⟨f, 0x0311, cqDestroyPlan, fun _ _ => [], id⟩
  | .cqQuery f => some ⟨f, 0x0312, cqQueryPlan, fun _ _ => [], id⟩
  | .connCreate f => some ⟨f, 0x0320, connCreatePlan, fun _ _ => [], id⟩
  | .connConnect f => some ⟨f, 0x0321, connConnectPlan, fun _ _ => [], id⟩
  | .connDestroy f => some ⟨f, 0x0322, connDestroyPlan, fun _ _ => [], id⟩
  | .connQuery f => some ⟨f, 0x0323, connQueryPlan, fun _ _ => [], id⟩
  | .connReset f => some ⟨f, 0x0324, connResetPlan, fun _ _ => [], id⟩
  | .trigAlloc f => some ⟨f, 0x0330, trigAllocPlan, fun _ _ => [], id⟩
  | .trigFree f => some ⟨f, 0x0331, trigFreePlan, fun _ _ => [], id⟩
  | .trigSet f => some ⟨f, 0x0332, trigSetPlan, fun _ _ => [], id⟩
  | .trigQuery f => some ⟨f, 0x0333, trigQueryPlan, fun _ _ => [], id⟩
  | .trigAdd f => some ⟨f, 0x0334, trigAddPlan, fun _ _ => [], id⟩
  | .keyDestroy f => some ⟨f, 0x0401, keyDestroyPlan, fun _ _ => [], id⟩
  | .connSetKeys f => some ⟨f, 0x0410, connSetKeysPlan, fun _ _ => [], id⟩
  | .connRotateKeys f => some ⟨f, 0x0411, connRotateKeysPlan, fun _ _ => [], id⟩
  | .xportSet f => some ⟨f, 0x0420, xportSetPlan, fun _ _ => [], id⟩
  | .xportQuery f => some ⟨f, 0x0421, xportQueryPlan, fun _ _ => [], id⟩
  | .ccSet f => some ⟨f, 0x0500, ccSetPlan, fun _ _ => [], id⟩
  | .ccQuery f => some ⟨f, 0x0501, ccQueryPlan, fun _ _ => [], id⟩
  | .shaperAlloc f => some ⟨f, 0x0510, shaperAllocPlan, fun _ _ => [], id⟩
  | .shaperSet f => some ⟨f, 0x0511, shaperSetPlan, fun _ _ => [], id⟩
  | .shaperBind f => some ⟨f, 0x0512, shaperBindPlan, fun _ _ => [], id⟩
  | .shaperFree f => some ⟨f, 0x0513, shaperFreePlan, fun _ _ => [], id⟩
  | .schedFuncSet f => some ⟨f, 0x0520, schedFuncSetPlan, fun _ _ => [], id⟩
  | .schedClassSet f => some ⟨f, 0x0521, schedClassSetPlan, fun _ _ => [], id⟩
  | .policerSet f => some ⟨f, 0x0530, policerSetPlan, fun _ _ => [], id⟩
  | .policerQuery f => some ⟨f, 0x0531, policerQueryPlan, fun _ _ => [], id⟩
  | .policerFree f => some ⟨f, 0x0532, policerFreePlan, fun _ _ => [], id⟩
  | .gateSet f => some ⟨f, 0x0540, gateSetPlan, fun _ _ => [], id⟩
  | .gateQuery f => some ⟨f, 0x0541, gateQueryPlan, fun _ _ => [], id⟩
  | .portQuery f => some ⟨f, 0x0600, portQueryPlan, fun _ _ => [], id⟩
  | .portSet f => some ⟨f, 0x0601, portSetPlan, fun _ _ => [], id⟩
  | .portBreakout f => some ⟨f, 0x0602, portBreakoutPlan, fun _ _ => [], id⟩
  | .portReset f => some ⟨f, 0x0603, portResetPlan, fun _ _ => [], id⟩
  | .portStats f => some ⟨f, 0x0604, portStatsPlan, fun _ _ => [], id⟩
  | .portGlobalSet f => some ⟨f, 0x0605, portGlobalSetPlan, fun _ _ => [], id⟩
  | .portMgmtSet f => some ⟨f, 0x0610, portMgmtSetPlan, fun _ _ => [], id⟩
  | .portFilterSet f => some ⟨f, 0x0611, portFilterSetPlan, fun _ _ => [], id⟩
  | .portQueueBind f => some ⟨f, 0x0612, portQueueBindPlan, fun _ _ => [], id⟩
  | .ptpAdjust f => some ⟨f, 0x0620, ptpAdjustPlan, fun _ _ => [], id⟩
  | .ptpRead f => some ⟨f, 0x0621, ptpReadPlan, fun _ _ => [], id⟩
  | .portTsBind f => some ⟨f, 0x0622, portTsBindPlan, fun _ _ => [], id⟩
  | .relaySet f => some ⟨f, 0x0630, relaySetPlan, fun _ _ => [], id⟩
  | .relayTableWrite f => some ⟨f, 0x0631, relayTableWritePlan, fun _ _ => [], id⟩
  | .relayEpochSwitch f => some ⟨f, 0x0632, relayEpochSwitchPlan, fun _ _ => [], id⟩
  | .relayQuery f => some ⟨f, 0x0633, relayQueryPlan, fun _ _ => [], id⟩
  | .commCreate f => some ⟨f, 0x0700, commCreatePlan, fun _ _ => [], id⟩
  | .commDestroy f => some ⟨f, 0x0701, commDestroyPlan, fun _ _ => [], id⟩
  | .commQuery f => some ⟨f, 0x0702, commQueryPlan, fun _ _ => [], id⟩
  | .collRingCreate f => some ⟨f, 0x0703, collRingCreatePlan, fun _ _ => [], id⟩
  | .collSlotsQuery f => some ⟨f, 0x0710, collSlotsQueryPlan, fun _ _ => [], id⟩
  | .drillUnload f => some ⟨f, 0x0801, drillUnloadPlan, fun _ _ => [], id⟩
  | .drillQuery f => some ⟨f, 0x0802, drillQueryPlan, fun _ _ => [], id⟩
  | .drillControl f => some ⟨f, 0x0803, drillControlPlan, fun _ _ => [], id⟩
  | .furrowQuery f => some ⟨f, 0x0810, furrowQueryPlan, fun _ _ => [], id⟩
  | .memLayoutQuery f => some ⟨f, 0x0900, memLayoutQueryPlan, fun _ _ => [], id⟩
  | .memLayoutSet f => some ⟨f, 0x0901, memLayoutSetPlan, fun _ _ => [], id⟩
  | .shareScrub f => some ⟨f, 0x0920, shareScrubPlan, fun _ _ => [], id⟩
  | .scrubSet f => some ⟨f, 0x0930, scrubSetPlan, fun _ _ => [], id⟩
  | .scrubQuery f => some ⟨f, 0x0931, scrubQueryPlan, fun _ _ => [], id⟩
  | .granuleGrant f => some ⟨f, 0x0910, granuleGrantPlan, fun _ _ => [], id⟩
  | .granuleRevoke f => some ⟨f, 0x0911, granuleRevokePlan, fun _ _ => [], id⟩
  | .granuleQuery f => some ⟨f, 0x0912, granuleQueryPlan, fun _ _ => [], id⟩
  | .spareQuery f => some ⟨f, 0x0A00, spareQueryPlan, fun _ _ => [], id⟩
  | .repair f => some ⟨f, 0x0A01, repairPlan, fun _ _ => [], id⟩
  | .holdupTest f mj => some ⟨f, 0x0A02, holdupTestPlan mj, fun _ _ => [], id⟩
  | .moduleReset f => some ⟨f, 0x0B00, moduleResetPlan, fun _ _ => [], id⟩
  | .fwRestart f => some ⟨f, 0x0B01, fwRestartPlan, fun _ _ => [], id⟩
  | .tineReset f => some ⟨f, 0x0B02, tineResetPlan, fun _ _ => [], id⟩
  | .moduleFallow f => some ⟨f, 0x0B03, moduleFallowPlan, fun _ _ => [], id⟩
  | .moduleWipe f => some ⟨f, 0x0B04, moduleWipePlan, fun _ _ => [], id⟩
  | .imageQuery f => some ⟨f, 0x0B10, imageQueryPlan, fun _ _ => [], id⟩
  | .imageProgram f img => some ⟨f, 0x0B11, imageProgramPlan img, fun _ _ => [], id⟩
  | .imageSelect f => some ⟨f, 0x0B12, imageSelectPlan, fun _ _ => [], id⟩
  | .bootLogRead f => some ⟨f, 0x0B20, bootLogReadPlan, fun _ _ => [], id⟩
  | .bootLogClear f => some ⟨f, 0x0B21, bootLogClearPlan, fun _ _ => [], id⟩
  | .lcQuery f => some ⟨f, 0x0B30, lcQueryPlan, fun _ _ => [], id⟩
  | .lcChallenge f => some ⟨f, 0x0B31, lcChallengePlan, fun _ _ => [], id⟩
  | .lcTransition f signatureGood => some ⟨f, 0x0B32, lcTransitionPlan signatureGood, fun _ _ => [], id⟩
  | .cntGlobalRead f => some ⟨f, 0x0C00, cntGlobalReadPlan, fun _ _ => [], id⟩
  | .traceConfig f => some ⟨f, 0x0C10, traceConfigPlan, fun _ _ => [], id⟩
  | .traceControl f => some ⟨f, 0x0C11, traceControlPlan, fun _ _ => [], id⟩
  | .traceQuery f => some ⟨f, 0x0C12, traceQueryPlan, fun _ _ => [], id⟩
  | .traceRead f => some ⟨f, 0x0C13, traceReadPlan, fun _ _ => [], id⟩
  | .faultRead f => some ⟨f, 0x0C20, faultReadPlan, fun _ _ => [], id⟩
  | .hangGraph f => some ⟨f, 0x0C30, hangGraphPlan, fun _ _ => [], id⟩
  | .gleanArm f size => some ⟨f, 0x0C40, gleanArmPlan size, fun _ _ => [], id⟩
  | .gleanQuery f => some ⟨f, 0x0C41, gleanQueryPlan, fun _ _ => [], id⟩
  | .gleanCancel f => some ⟨f, 0x0C42, gleanCancelPlan, fun _ _ => [], id⟩
  | .globalStop f => some ⟨f, 0x0C50, globalStopPlan, fun _ _ => [], id⟩
  | .globalResume f => some ⟨f, 0x0C51, globalResumePlan, fun _ _ => [], id⟩
  | .stopRead f => some ⟨f, 0x0C52, stopReadPlan, fun _ _ => [], id⟩
  | .keyCreate f => some ⟨f, 0x0400, keyCreatePlan, fun _ _ => [], fun st => st.wipeKey f⟩
  | .drillLoad f img code => some ⟨f, 0x0800, drillLoadPlan img code.stochasticAt code.descs, drillDry img, id⟩
  | _ => none

/-- The checks made of a request, in the order of R45. -/
def Request.checks (q : Request) (s : State) : List Check :=
  commonChecks s (s.cmd q.f) q.op (q.plan (s.cmd q.f) s).managerOnly (q.plan (s.cmd q.f) s).size ++ (q.plan (s.cmd q.f) s).checks

/-- Firmware takes the request next: it is the command of its function's mailbox, and its turn has come (R41). -/
def Request.due (q : Request) (s : State) : Bool := s.canTake q.f && (s.cmd q.f).opcode == q.op

/-- What function `f`'s own accesses and refused commands may change: `f`'s registers, mailboxes, event controller, MSI-X and counters,
the power state of `f`'s link, its four module-wide counters (R432), the order of posted commands, the messages that leave, the packets on
the fabric (R357), and which free value comes next. Everything else is as it was. -/
def State.Beside (f : FuncId) (s t : State) : Prop :=
  ({ t with funcs := s.funcs, links := s.links, globals := s.globals, goNext := s.goNext, fabric := s.fabric, free := s.free, out := s.out } : State) = s ∧
  (∀ g, g ≠ f → t.func g = s.func g) ∧ (∀ l, l ≠ linkOf f → t.link l = s.link l) ∧
  (∀ k, (k < 5120 + 4 * f.val ∨ 5120 + 4 * f.val + 4 ≤ k) → tgetD t.globals k 0 = tgetD s.globals k 0) ∧ ∃ more, t.out = s.out ++ more

/-! ### What a global stop holds (R445) -/

/-- Events of the module's own engines and timers, which stand still in a global stop. -/
def ownWork (i : Instr) : Bool :=
  match i with
  | .packetSend _ => true
  | .egressFrameStart _ => true
  | .shaperRefill => true
  | .gateIntervalEnd _ => true
  | .gateListSwitch _ => true
  | .rpTimerExpiry _ => true
  | .drillFrameVerdict _ _ => true
  | .contextFetchDone _ _ => true
  | .memWriteResponse _ _ => true
  | .probeFlushTimer => true
  | .ackDelayExpiry _ => true
  | .rtoExpiry _ => true
  | .probeIntervalExpiry _ => true
  | .rnrRetryExpiry _ => true
  | .flowIdleExpiry _ _ _ _ => true
  | .unreachHoldExpiry _ _ _ => true
  | .drainMaxExpiry _ _ => true
  | .pageRequestTimeout _ => true
  | .invalidateReadTimeout _ => true
  | .attachMsExpiry _ => true
  | .teardownDone _ => true
  | .l1IdleEntry _ => true
  | .l0pNarrow _ => true
  | .runStart _ _ => true
  | .runScheduleEnd _ => true
  | .runEnd _ _ _ _ _ => true
  | .gleanStepReached _ _ _ => true
  | .rampGranted _ => true
  | .warmHoldExpiry _ => true
  | .tineFault _ _ _ => true
  | .tineThresholdDraw _ _ _ => true
  | .patrolScrub _ _ => true
  | .rehashDone _ => true
  | .hotIntervalEnd _ => true
  | .memReadResponse _ _ => true
  | .contextWriteBackDone _ => true
  | .txFrameEnd _ => true
  | .unloadRunTimeout _ => true
  | _ => false

/-- What arrives over the accelerator links, which a global stop holds in order until the module resumes. -/
def arrivesOnLink (i : Instr) : Bool :=
  match i with
  | .dmaReadCompletion _ _ => true
  | .flushComplete _ => true
  | .flushFailed _ => true
  | .atsTranslationDone _ _ => true
  | .pageRequestResponse _ _ => true
  | .invalidateRequest _ _ _ _ _ => true
  | .linkDown _ => true
  | .linkUp _ _ _ => true
  | .replayDone _ => true
  | .retrainWindowExpiry _ => true
  | .linkHotReset _ => true
  | .functionLevelReset _ => true
  | .configResetDone _ => true
  | .vfEnable _ _ => true
  | .vfDisable _ _ => true
  | .d3hotEntry _ => true
  | .d0Return _ => true
  | _ => false

/-! ### Frames that reach the transport (R174, R218, R235, R238) -/

/-- Port `p` hands the frame to the native transport, judged good, in the state `s2`, over the fabric to its connection's die (R26, R357);
`m`: the policers marked it CE. -/
def State.HandsOn (s : State) (p : LPort) (fr : NFrame) (s2 : State) (m : Bool) : Prop :=
  s.runs = true ∧ s.portUp p = true ∧ s.addressed p fr.l2.da = true ∧ s.forMe fr = true ∧
  fr.udpDst = s.nativePort ∧ (s.port p).knowsTags fr.l2 = true ∧ fr.version = 1 ∧ 78 ≤ fr.l2.length ∧ fr.l2.length = fr.wireLen ∧
  ∃ s1 s3, s.rxLink p fr.l2 (s.ipClass p fr.ip) = (s1, some true) ∧
    s1.police p fr.l2 fr.ip fr.ipLen
      (if (s1.conn (fr.dstConn.toNat % 2 ^ 24)).isSome then some (fr.dstConn.toNat % 2 ^ 24) else none) = (s3, true, m) ∧
    s2 = s3.rxCross p (s3.rxDie p (fr.dstConn.toNat % 2 ^ 24)) fr.l2.length

/-- The frame is for native connection `n`, whose record `c` is READY and in its die's cache, and comes from its peer. -/
def State.Reaches (s : State) (fr : NFrame) (n : Nat) (c : Conn) : Prop :=
  fr.dstConn.toNat % 2 ^ 24 = n ∧ s.conn n = some c ∧ c.mode ≠ .roce ∧ c.ctx = .cached ∧ c.state = .ready ∧
  fr.srcConn.toNat % 2 ^ 24 = c.peer ∧ c.sourceOk fr.ip.src = true

/-- A RoCE v2 packet is handed on, judged good, in the state `s2`, as `fr1` where the policers may have marked it. -/
def State.HandsOnRoce (s : State) (p : LPort) (fr fr1 : RFrame) (s2 : State) : Prop :=
  s.runs = true ∧ s.portUp p = true ∧ s.addressed p fr.l2.da = true ∧ (s.port p).knowsTags fr.l2 = true ∧ fr.l2.length = fr.wireLen ∧
  ∃ s1 s3 m, s.rxLink p { fr.l2 with fcsOk := fr.l2.fcsOk && fr.icrcOk } (s.ipClass p fr.ip) = (s1, some true) ∧
    s1.police p fr.l2 fr.ip fr.ipLen (if (s1.conn fr.dqp.toNat).isSome then some fr.dqp.toNat else none) = (s3, true, m) ∧
    s2 = s3.rxCross p (s3.rxDie p fr.dqp.toNat) fr.l2.length ∧ fr1 = (if m then { fr with ip := { fr.ip with ecn := 3 } } else fr)

end Sys2Proof.Machine
end

