-- ==== Sys2Proof/Certificates/Slice0/Obligations.lean ====
section
/-! DEFINITION. Certificates/Slice0/Obligations.lean: what is claimed of the model. -/

open Sys2Proof Sys2Proof.Machine
/-! ### What every mailbox command answers and does, where its checks pass (R37 to R58, R55, R56, R471)

`c` is the command as firmware copies it, `t` the state in which firmware has taken it: its mailbox RUNNING, nothing else changed but
the model's own counter of free values. The outcome is `t` with the effect named, the answer written, and the consequences of
ended transfers drawn (`settle`): nothing else changes. -/

/-- NOP answers OK and does nothing else (R55); MODULE_INFO answers its 64 bytes (R56); an opcode that is not defined is answered
BAD_OPCODE (R45). -/
def Obligations.InformationCommandsAnswer : Prop :=
  ∀ (f : FuncId) (s : State), let c := s.cmd f; let t := s.take f
  Answers (.nop f) f s 0x0000 nopPlan t (Reply.ok []) ∧
  Answers (.moduleInfo f) f s 0x0001 moduleInfoPlan t (Reply.ok
    (ascii "PDK-7440" ++ leBytes 1 0xB1 ++ leBytes 1 t.image ++ leBytes 2 f.val ++ leBytes 4 t.fwVersion.toNat ++
     (List.finRange 16).map Config.serial ++
     leBytes 4 (b2n (f == t.manager) + 2 * b2n (t.fw == .safeMode) + 4 * b2n t.degraded + 8 * b2n t.fallow) ++
     leBytes 2 t.restartGen.toNat ++ zeros 2 ++ leBytes 4 t.activeTines ++ leBytes 4 t.hbmGib ++ zeros 16)) ∧
  (s.canTake f = true → opcodeDefined c.opcode = false → (headerChecks c).all (fun k => !k.bad) = true →
    ((s.func f).state.isFenced = false → c.behalf = false ∨ (s.func c.obj).state.isFenced = false →
      exec (.undefinedOpcode f) s = .next (t.answer f (Reply.refuse rcBadOpcode 0)).settle) ∧
    ((s.func f).state.isFenced = true ∨ c.behalf = true ∧ (s.func c.obj).state.isFenced = true →
      exec (.undefinedOpcode f) s = .next (t.answer f (Reply.refuse rcFenced 0)).settle))

/-- A factory-test opcode is answered BAD_STATE outside MANUFACTURE and RETURNED, and BAD_OPCODE within them (R424, R471). -/
def Obligations.FactoryTestIsAlwaysRefused : Prop :=
  ∀ (f : FuncId) (s : State), let c := s.cmd f; let t := s.take f
  s.canTake f = true → 0x0B80 ≤ c.opcode → c.opcode ≤ 0x0BFF → (headerChecks c).all (fun k => !k.bad) = true →
  (s.func f).state = .active → c.behalf = false → f = s.manager → s.fw = .running →
  (s.mram.lc = 0 ∨ s.mram.lc = 3 → exec (.factoryTest f) s = .next (t.answer f (Reply.refuse rcBadOpcode 0)).settle) ∧
  (s.mram.lc ≠ 0 ∧ s.mram.lc ≠ 3 → exec (.factoryTest f) s = .next (t.answer f (Reply.refuse rcBadState 0)).settle)

/-- What the commands on functions answer and do (R373 to R385). -/
def Obligations.FunctionCommandsAnswer : Prop :=
  ∀ (f : FuncId) (s : State), let c := s.cmd f; let t := s.take f; let g := c.target; let v := t.func g
  Answers (.funcQuery f) f s 0x0100 funcQueryPlan t (Reply.ok
    (leBytes 1 (funcStateCode v.state) ++ leBytes 1 (b2n v.retain) ++ leBytes 1 (b2n (g == t.manager)) ++ zeros 1 ++ leBytes 4 v.resets ++
     (List.range 16).flatMap (fun k => leBytes 8 (t.shareOf g k) ++ leBytes 8 (t.used g k)))) ∧
  Answers (.funcCreate f) f s 0x0101 funcCreatePlan
    ((t.clearShares g).modFunc g (fun v => { v with state := .active, retain := c.u8 2 == 1, attachMs := attachField (c.u32 4) }))
    (Reply.ok []) ∧
  GoesOn (.funcDestroy f) f s 0x0102 funcDestroyPlan (t.destroyFunc g) (.funcDestroy g) true ∧
  (c.u16 2 ≠ 2 → t.shareOf g (c.u16 2) = c.u64 8 →
    Answers (.funcShareSet f) f s 0x0103 funcShareSetPlan (t.setShare g (c.u16 2) (c.u64 8)) (Reply.ok [])) ∧
  (c.u16 2 ≠ 2 → t.shareOf g (c.u16 2) ≠ c.u64 8 →
    Answers (.funcShareSet f) f s 0x0103 funcShareSetPlan
      ((t.setShare g (c.u16 2) (c.u64 8)).post g 0x0007 0
        (leBytes 2 (c.u16 2) ++ zeros 6 ++ leBytes 8 (t.shareOf g (c.u16 2)) ++ leBytes 8 (c.u64 8))) (Reply.ok [])) ∧
  (c.u16 2 = 2 → let u := t.modFunc g (fun w => { w with furrows := BitVec.ofNat 40 (c.u64 8) })
    Answers (.funcShareSet f) f s 0x0103 funcShareSetPlan
      (if t.shareOf g 2 = c.u64 8 then u else u.shareChanged g 2 (t.shareOf g 2) (c.u64 8)) (Reply.ok [])) ∧
  Answers (.funcAttach f) f s 0x0104 funcAttachPlan (t.attach g) (Reply.ok (leBytes 4 (s.func g).resets ++ zeros 4)) ∧
  Answers (.managerTransfer f) f s 0x0105 managerTransferPlan { t with manager := g } (Reply.ok []) ∧
  Answers (.funcPolicySet f) f s 0x0106 funcPolicySetPlan
    (t.modFunc g (fun v => { v with retain := c.u8 2 == 1, attachMs := attachField (c.u32 4) })) (Reply.ok [])

/-- What the commands on regions and hot pages answer and do: a created region takes the next slot of the series and its slot's
generation (R85, R88); those that invalidate go on RUNNING until the reads under the old translation are back (R93). -/
def Obligations.RegionCommandsAnswer : Prop :=
  ∀ (f : FuncId) (s : State), let c := s.cmd f; let t := s.take f; let slot := c.u32 0 % 2 ^ 20
  (∀ (k : Nat) (q : Series), t.regionSeries.take 1048576 = some (k, q) →
    let gen := tgetD t.gens k 0
    let u := t.fresh.1
    let r : Region :=
      { gen := gen, func := c.obj, kind := if c.u8 0 = 0 then .hostAts else if c.u8 0 = 1 then .hostMirror else .module
        viaRoot := c.u8 1 == 1, access := BitVec.ofNat 16 (c.u16 2), pasid := BitVec.ofNat 20 (c.u32 4), base := c.u64 8
        length := c.u64 16, mirrorAddr := c.u64 24, mirrorEntries := c.u32 32, mirrorPage := c.u8 36, remap := []
        sealKeys := if bit (c.u16 2) 7 then some (randomBytes u 32, (randomBytes u 64).drop 32) else none
        counters := [], weights := none, extents := [] }
    Answers (.regionCreate f) f s 0x0200 regionCreatePlan { t.fresh.2 with regions := tset t.regions k r, regionSeries := q }
      (Reply.ok (leBytes 4 (regionKey k gen).toNat ++ leBytes 4 r.counterPages))) ∧
  GoesOn (.regionDestroy f) f s 0x0201 regionDestroyPlan (t.destroyRegion slot true f).2
    (.invalidation (t.destroyRegion slot true f).1) true ∧
  (∀ r, t.region (BitVec.ofNat 32 (c.u32 0)) = some r →
    Answers (.regionQuery f) f s 0x0202 regionQueryPlan t
      (Reply.ok (r.creation ++ leBytes 4 (t.xfers.filter (fun x => x.2.region == slot && !x.2.purpose.readsMirror)).length))) ∧
  (∀ r, t.region (BitVec.ofNat 32 (c.u32 0)) = some r →
    let map := if c.u64 16 = 0 then tdel r.remap (c.u64 8 / 0x200000) else tset r.remap (c.u64 8 / 0x200000) (c.u64 16)
    let u : State := { t with regions := tset t.regions slot { r with remap := map } }
    let v := (u.dropMirrorReads slot (fun p => overlap (p * 2 ^ r.pageLog2) (2 ^ r.pageLog2) (r.vaOf (c.u64 8)) 0x200000)).rewait slot (c.u64 8) 0x200000
    let w := v.startInval (linkOf r.func)
      (fun e => e.func == r.func && e.mirror == (r.kind == .hostMirror) &&
        e.tag == (if r.kind = .hostMirror then slot else r.pasid.toNat) &&
        overlap (e.page * 2 ^ e.log2) (2 ^ e.log2) (r.vaOf (c.u64 8)) 0x200000)
      (fun x p => if x.region == slot then p.within (c.u64 8) 0x200000 else (p.off, 0))
      ⟨[], linkOf r.func, false, true, f, some slot, false⟩
    GoesOn (.regionRemap f) f s 0x0203 regionRemapPlan w.2 (.invalidation w.1) true) ∧
  (∀ r, s.region (BitVec.ofNat 32 (c.u32 0)) = some r →
    let w := (t.dropMirrorReads slot (fun p => overlap (p * 2 ^ r.pageLog2) (2 ^ r.pageLog2) (r.base + c.u64 8) (c.u64 16))).startInval
      (linkOf r.func)
      (fun e => e.mirror && e.func == r.func && e.tag == slot &&
        overlap (e.page * 2 ^ e.log2) (2 ^ e.log2) (r.base + c.u64 8) (c.u64 16))
      (fun x p => if x.region == slot && p.host then p.within (c.u64 8) (c.u64 16) else (p.off, 0))
      ⟨[], linkOf r.func, false, true, f, some slot, false⟩
    GoesOn (.mirrorInvalidate f) f s 0x0210 mirrorInvalidatePlan w.2 (.invalidation w.1) true) ∧
  Answers (.hotConfig f) f s 0x0220 hotConfigPlan
    (t.modFunc c.obj (fun v => { v with hotIntervalUs := c.u32 0, hotThreshold := c.u32 4, hotSource := c.u16 8 })) (Reply.ok []) ∧
  (let v := t.func c.obj
   let l := v.hotList.take (min (c.u32 0) 253)
   Answers (.hotRead f) f s 0x0221 hotReadPlan (t.modFunc c.obj (fun w => { w with hotList := w.hotList.drop l.length, hotOverflow := 0 }))
     (Reply.ok (leBytes 4 l.length ++ leBytes 4 v.hotOverflow ++
       l.flatMap (fun h => leBytes 4 h.key.toNat ++ zeros 4 ++ leBytes 8 h.offset))))

/-- What the commands on work rings answer and do: a new ring takes the next number of the function's series (R467) with both indices
at 0; RING_RESTART waits for the started requests (R132). -/
def Obligations.RingCommandsAnswer : Prop :=
  ∀ (f : FuncId) (s : State), let c := s.cmd f; let t := s.take f
  (∀ (n : Nat) (q : Series), (t.func c.obj).ringSeries.take 262144 = some (n, q) →
    let put := fun g => t.setFunc c.obj { t.func c.obj with ringSeries := q, rings := tset (t.func c.obj).rings n g }
    Answers (.ringCreate f) f s 0x0300 ringCreatePlan
      (put (Ring.fresh (if c.u8 0 = 0 then .copy else .send) (c.u8 1 == 1) (c.u8 2) (c.u8 3) (c.u8 4) (c.u16 6) (ringOpt (c.u32 8))
        (BitVec.ofNat 32 (c.u32 12)) (c.u64 16))) (Reply.ok (leBytes 4 n ++ zeros 4)) ∧
    Answers (.collRingCreate f) f s 0x0703 collRingCreatePlan
      (put (Ring.fresh .coll false (c.u8 0) (c.u8 1) (c.u8 2) (c.u16 4) (ringOpt (c.u32 8)) (BitVec.ofNat 32 (c.u32 12)) (c.u64 16)))
      (Reply.ok (leBytes 4 n ++ zeros 4))) ∧
  Answers (.ringDestroy f) f s 0x0301 ringDestroyPlan (t.destroyRing c.obj (c.u32 0)) (Reply.ok []) ∧
  (∀ g, t.ring c.obj (c.u32 0) = some g →
    Answers (.ringQuery f) f s 0x0302 ringQueryPlan t (Reply.ok
      (leBytes 1 (if g.error then 2 else b2n (t.ringReady c.obj (c.u32 0) g && !t.canReserve c.obj g)) ++ zeros 3 ++
       leBytes 4 (indexOf g.n g.cons) ++ leBytes 4 (indexOf g.n g.prod) ++ leBytes 4 (indexOf g.n g.started) ++
       leBytes 4 (if g.error then indexOf g.n g.errorIndex else 0)))) ∧
  Answers (.ringModify f) f s 0x0303 ringModifyPlan
    (t.modRing c.obj (c.u32 0) (fun g => { g with nextWeightBurst := some (c.u8 4, c.u8 5) })) (Reply.ok []) ∧
  GoesOn (.ringRestart f) f s 0x0304 ringRestartPlan t (.ringRestart c.obj (c.u32 0)) false

/-- What the commands on completion rings and trigger counters answer and do (R131, R133, R160, R163, R167). -/
def Obligations.CompletionAndTriggerCommandsAnswer : Prop :=
  ∀ (f : FuncId) (s : State), let c := s.cmd f; let t := s.take f; let v := t.func c.obj; let k := c.u16 0
  (∀ (n : Nat) (q : Series), v.cqSeries.take 65536 = some (n, q) →
    Answers (.cqCreate f) f s 0x0310 cqCreatePlan
      (t.setFunc c.obj { v with cqSeries := q, cqs := tset v.cqs n (Cq.fresh (c.u8 0) (c.u16 2) (c.u32 4) (BitVec.ofNat 32 (c.u32 8)) (c.u64 16)) })
      (Reply.ok (leBytes 4 n ++ zeros 4))) ∧
  Answers (.cqDestroy f) f s 0x0311 cqDestroyPlan (t.destroyCq c.obj (c.u32 0)) (Reply.ok []) ∧
  (∀ q, t.cq c.obj (c.u32 0) = some q →
    Answers (.cqQuery f) f s 0x0312 cqQueryPlan t (Reply.ok
      (leBytes 1 (cqStateCode q.state) ++ zeros 3 ++ leBytes 4 (indexOf q.n q.prod) ++ leBytes 4 (indexOf q.n q.cons) ++
       leBytes 4 q.windrow.length ++ leBytes 4 q.peak ++ leBytes 4 q.reserved))) ∧
  (∀ (n : Nat) (q : Series), v.trigSeries.take 65536 = some (n, q) →
    Answers (.trigAlloc f) f s 0x0330 trigAllocPlan
      (t.setFunc c.obj { v with trigSeries := q, trigs := tset v.trigs n ⟨0, if c.u64 8 = 0 then 0 else c.u16 0, c.u64 8, false⟩ })
      (Reply.ok (leBytes 2 n ++ zeros 6))) ∧
  Answers (.trigFree f) f s 0x0331 trigFreePlan
    (t.modFunc c.obj (fun v => { v with trigs := tdel v.trigs k, trigSeries := v.trigSeries.give k })) (Reply.ok []) ∧
  Answers (.trigSet f) f s 0x0332 trigSetPlan (t.setTrig c.obj k (c.u64 8)) (Reply.ok []) ∧
  Answers (.trigQuery f) f s 0x0333 trigQueryPlan t
    (Reply.ok (leBytes 8 (t.trigValue c.obj k) ++ leBytes 4 (t.waitingOn c.obj k) ++ zeros 4)) ∧
  Answers (.trigAdd f) f s 0x0334 trigAddPlan (t.advanceTrig c.obj k (c.u64 8))
    (Reply.ok (leBytes 8 ((t.advanceTrig c.obj k (c.u64 8)).trigValue c.obj k)))

/-- What the commands on connections answer and do: CONN_CREATE leaves the connection in RESET (R146), CONN_CONNECT makes it READY with
the two sequence numbers of the command (R145), and a CONN_CONNECT whose port is below its lane count answers DEGRADED_OK (R397). -/
def Obligations.ConnectionCommandsAnswer : Prop :=
  ∀ (f : FuncId) (s : State), let c := s.cmd f; let t := s.take f; let n := c.u32 0
  (∀ (m : Nat) (q : Series), t.connSeries.take 0x1000000 = some (m, q) →
    let ctr := c.u32 16
    let k := Conn.fresh c.obj (modeOf (c.u8 0)) (bit (c.u8 1) 0) (bit (c.u8 1) 1) (c.u16 2) (ringOpt (c.u32 4)) (ringOpt (c.u32 8))
      (ringOpt (c.u32 12)) (if bit ctr 31 then some (bits ctr 15 0) else none) (c.u8 20)
    Answers (.connCreate f) f s 0x0320 connCreatePlan
      ((({ t with connSeries := q, conns := tset t.conns m k } : State).touchConn m).evict) (Reply.ok (leBytes 4 m ++ zeros 4))) ∧
  (∀ k, t.conn n = some k →
    let q := k.connectedTo c
    let tx := Tx.fresh (c.u32 12) (if q.native then 64 else 2 ^ 20) (t.portMbps (t.portNow n q 0)) q.xport
    let q1 : Conn := { q with
      state := .ready, rx := Rx.fresh (c.u32 16)
      tx := { tx with paths := (List.range q.npaths).map (fun i => (i, PathCc.fresh q.cc t.relay.epoch)) } }
    let u := ({ t with conns := tset t.conns n q1 } : State).initialCredit n
    Answers (.connConnect f) f s 0x0321 connConnectPlan u
      (if (match q.port with | some p => u.portDegraded p | none => false) then ⟨rcDegradedOk, 4, []⟩ else Reply.ok [])) ∧
  Answers (.connDestroy f) f s 0x0322 connDestroyPlan (t.destroyConn n) (Reply.ok []) ∧
  (∀ k, t.conn n = some k →
    Answers (.connQuery f) f s 0x0323 connQueryPlan t (Reply.ok
      (leBytes 1 (connStateCode k.state) ++ leBytes 1 (connModeCode k.mode) ++ leBytes 1 (b2n (k.ctx == .cached)) ++ leBytes 1 (b2n k.pin) ++
       leBytes 4 k.tx.next ++ leBytes 4 k.rx.epsn ++ leBytes 4 (k.psnSub k.tx.next k.tx.una) ++ leBytes 4 (min max32 k.stats.missDrops))) ∧
    Answers (.connReset f) f s 0x0324 connResetPlan
      ((forEach k.keyList (t.quietConn n k) (fun w h => w.destroyKey h)).modConn n (fun q => { q with
        state := .reset, clampDue := false, tx := Tx.fresh 0 0 0 q.xport, rx := Rx.fresh 0, npaths := 1
        txKey := none, rxKey := none, nextTx := none, nextRx := none, oldTx := none, oldRx := none, rxPhase := false, rxPhasePsn := none }))
      (Reply.ok []))

/-- What the commands on keys and on a connection's transport and congestion parameters answer and do: the key bytes of a KEY_CREATE
are zeroed in the mailbox before its response (R201), the response written there with them gone. -/
def Obligations.KeyAndTransportCommandsAnswer : Prop :=
  ∀ (f : FuncId) (s : State), let c := s.cmd f; let t := s.take f; let n := c.u32 0
  (∀ (k : Nat) (q : Series), t.keySeries.take 0x100000000 = some (k, q) → s.accepts f 0x0400 keyCreatePlan = true →
    exec (.keyCreate f) s = .next
      ((({ t with keySeries := q, keys := tset t.keys k ⟨c.obj, useOf (c.u8 0), c.bytes 4 4, c.bytes 8 32, 0, false, none⟩ } : State).answer f
        (Reply.ok (leBytes 4 k ++ zeros 4))).wipeKey f).settle) ∧
  Answers (.keyDestroy f) f s 0x0401 keyDestroyPlan (t.destroyKey n) (Reply.ok []) ∧
  (∀ k, t.conn n = some k →
    Answers (.connSetKeys f) f s 0x0410 connSetKeysPlan
      ((((forEach k.keyList t (fun w h => { w with keys := tmod w.keys h (fun v => { v with conn := none }) })).bindKey (c.u32 4) n).bindKey (c.u32 8) n).modConn n
        (fun q => { q with txKey := some (c.u32 4), rxKey := some (c.u32 8) })) (Reply.ok [])) ∧
  Answers (.connRotateKeys f) f s 0x0411 connRotateKeysPlan
    (((((t.bindKey (c.u32 4) n).bindKey (c.u32 8) n).modConn n (fun q => { q with
      oldTx := q.txKey, txKey := some (c.u32 4), nextRx := some (c.u32 8)
      tx := { q.tx with keyPhase := !q.tx.keyPhase, phasePsn := q.tx.next, keyPsns := 0, respCount := 0 } })).dropOldTx n).beginWork n) (Reply.ok []) ∧
  Answers (.xportSet f) f s 0x0420 xportSetPlan
    ((t.modConn n (fun k => { k with
      xport := ⟨c.u32 4, c.u32 8, c.u8 12, c.u8 13, c.u8 14, c.u8 15, c.u8 16, c.u32 20, c.u32 24, c.u32 28⟩ })).clampSoon n) (Reply.ok []) ∧
  (∀ k, t.conn n = some k →
    let w := fun (n : Nat) => leBytes 4 (min max32 n)
    Answers (.xportQuery f) f s 0x0421 xportQueryPlan t (Reply.ok
      (leBytes 8 ((k.livePaths.map (fun p => 2 ^ p)).sum) ++ leBytes 8 (min max64 k.stats.retransmissions) ++ w k.stats.timeouts ++
       w k.stats.rnrSent ++ w k.stats.rnrReceived ++ w k.stats.duplicates ++ w k.stats.authFailures ++ w k.stats.beyondTracking))) ∧
  Answers (.ccSet f) f s 0x0500 ccSetPlan
    ((t.modConn n (fun k => { k with cc := cmdCc c })).clampSoon n) (Reply.ok []) ∧
  (∀ k, t.conn n = some k →
    let v := k.pathCc (c.u8 4)
    Answers (.ccQuery f) f s 0x0501 ccQueryPlan t (Reply.ok
      (leBytes 4 v.cwnd ++ leBytes 4 v.inflight ++ leBytes 4 v.srtt ++ leBytes 4 (v.baseRtt.getD v.srtt) ++
       leBytes 2 (min 65535 (if k.native then v.alpha else k.tx.alpha)) ++ zeros 2 ++ leBytes 4 (t.rateMbps n k (c.u8 4)))))

/-- What the commands on shapers, the scheduler, policers and gate lists answer and do: new rates wait for the next refill (R217, R227), a
gate list is pending until its cycle starts (R222). -/
def Obligations.SchedulingCommandsAnswer : Prop :=
  ∀ (f : FuncId) (s : State), let c := s.cmd f; let t := s.take f; let k := c.u16 0; let p := c.port 0
  (∀ (n : Nat) (q : Series), (t.func c.obj).shaperSeries.take 16384 = some (n, q) →
    Answers (.shaperAlloc f) f s 0x0510 shaperAllocPlan
      (t.setFunc c.obj { t.func c.obj with
        shaperSeries := q, shapers := tset (t.func c.obj).shapers n ⟨p, ⟨c.u32 4, c.u32 8, 0, none⟩, [], [], false⟩ })
      (Reply.ok (leBytes 2 n ++ zeros 6))) ∧
  Answers (.shaperSet f) f s 0x0511 shaperSetPlan
    (t.modShaper c.obj k (fun h => { h with meter := { h.meter with pend := some (c.u32 4, c.u32 8) } })) (Reply.ok []) ∧
  (c.u8 2 = 0 → Answers (.shaperBind f) f s 0x0512 shaperBindPlan
    ((t.modConn (c.u32 4) (fun v => { v with shapers := linsert v.shapers k })).modShaper c.obj k
      (fun h => { h with conns := linsert h.conns (c.u32 4) })) (Reply.ok [])) ∧
  (c.u8 2 = 1 → Answers (.shaperBind f) f s 0x0512 shaperBindPlan
    ((t.modRing c.obj (c.u32 4) (fun g => { g with shapers := linsert g.shapers k })).modShaper c.obj k
      (fun h => { h with rings := linsert h.rings (c.u32 4) })) (Reply.ok [])) ∧
  (c.u8 2 = 2 → Answers (.shaperBind f) f s 0x0512 shaperBindPlan
    ((t.modConn (c.u32 4) (fun v => { v with shapers := lerase v.shapers k })).modShaper c.obj k
      (fun h => { h with conns := lerase h.conns (c.u32 4) })) (Reply.ok [])) ∧
  (c.u8 2 = 3 → Answers (.shaperBind f) f s 0x0512 shaperBindPlan
    ((t.modRing c.obj (c.u32 4) (fun g => { g with shapers := lerase g.shapers k })).modShaper c.obj k
      (fun h => { h with rings := lerase h.rings (c.u32 4) })) (Reply.ok [])) ∧
  Answers (.shaperFree f) f s 0x0513 shaperFreePlan
    (t.modFunc c.obj (fun v => { v with shapers := tdel v.shapers k, shaperSeries := v.shaperSeries.give k })) (Reply.ok []) ∧
  (let m := if c.u16 2 = 0xFFFF then relayMember else c.u16 2
   Answers (.schedFuncSet f) f s 0x0520 schedFuncSetPlan
    (t.modPort p (fun v => { v with members := tset v.members m { v.member m with pend := some (c.u32 4, some (c.u32 8)) } }))
    (Reply.ok [])) ∧
  (let cfg : ClassCfg := { ClassCfg.reset with
     strict := c.u8 2 == 0, weight := c.u8 3, qmax := c.u32 4, kmin := c.u32 8, kmax := c.u32 12, pmax := c.u16 16 }
   Answers (.schedClassSet f) f s 0x0521 schedClassSetPlan
    (t.modPort p (fun v => { v with pendClasses := v.pendClasses ++ [(c.u8 1, cfg, (List.range 64).map (fun i => c.u8 (20 + i)))] }))
    (Reply.ok [])) ∧
  (c.u16 0 ≠ 0xFFFF → Answers (.policerSet f) f s 0x0530 policerSetPlan
    { t with policers := tset t.policers k (cmdPolicer c t (tget t.policers k)) } (Reply.ok (leBytes 2 k ++ zeros 6))) ∧
  (∀ (n : Nat) (q : Series), c.u16 0 = 0xFFFF → t.policerSeries.take 4096 = some (n, q) →
    Answers (.policerSet f) f s 0x0530 policerSetPlan
      { t with policerSeries := q, policers := tset t.policers n (cmdPolicer c t none) } (Reply.ok (leBytes 2 n ++ zeros 6))) ∧
  (∀ q, tget t.policers k = some q →
    Answers (.policerQuery f) f s 0x0531 policerQueryPlan t (Reply.ok (leBytes 8 q.green ++ leBytes 8 q.yellow ++ leBytes 8 q.red))) ∧
  Answers (.policerFree f) f s 0x0532 policerFreePlan
    { t with policers := tdel t.policers k, policerSeries := t.policerSeries.give k } (Reply.ok []) ∧
  (c.u16 1 ≠ 0 → Answers (.gateSet f) f s 0x0540 gateSetPlan
    (t.modPort p (fun v => { v with
      pend := some (cmdGates c), removing := false, switchAt := (cmdGates c).cycleStart (max (cmdGates c).base (t.ptp + 10000)) })) (Reply.ok [])) ∧
  (c.u16 1 = 0 → Answers (.gateSet f) f s 0x0540 gateSetPlan
    (t.modPort p (fun v =>
      if v.pend.isSome then { v with pend := none, switchAt := 0 }
      else match v.oper with
        | some o => { v with removing := true, switchAt := o.cycleStart t.ptp }
        | none => v)) (Reply.ok [])) ∧
  (let v := t.port p
   let ents := fun (g : Option GateList) => (g.map (fun x => x.entries)).getD []
   Answers (.gateQuery f) f s 0x0541 gateQueryPlan t (Reply.ok
    (leBytes 8 (if v.pend.isSome then v.switchAt else 0) ++ leBytes 8 v.gateOversize ++ leBytes 2 (ents v.oper).length ++
     leBytes 2 (ents v.pend).length ++ zeros 4 ++ (if c.u8 1 = 0 then ents v.oper else ents v.pend).flatMap gateBytes)))

/-- What the commands on ports answer and do: PORT_STATS clears what it reads (R254); PORT_BREAKOUT and PORT_RESET go on RUNNING until the
ports have trained (R229, R255); a PORT_SET of a port below its lane count answers DEGRADED_OK (R397). -/
def Obligations.PortCommandsAnswer : Prop :=
  ∀ (f : FuncId) (s : State), let c := s.cmd f; let t := s.take f; let p := c.port 0; let v := t.port p; let h := t.physPort (physOf p)
  Answers (.portQuery f) f s 0x0600 portQueryPlan t (Reply.ok
    (leBytes 1 (b2n v.up) ++ leBytes 1 h.breakout ++ leBytes 1 (min v.lanes (breakoutLanes h.breakout)) ++
     leBytes 1 (match h.spareFor with
       | some n => if decide (p.val % 8 ≤ n) && decide (n < p.val % 8 + breakoutLanes h.breakout) then n else 0xFF
       | none => 0xFF) ++
     leBytes 1 (b2n v.preemptActive) ++ leBytes 1 v.flow ++ leBytes 2 v.maxFrame ++ leBytes 6 v.mac.toNat ++ zeros 2 ++
     leBytes 4 (Config.txLatencyPs p.val).toNat ++ leBytes 4 (Config.rxLatencyPs p.val).toNat)) ∧
  (let s1 := t.modPort p (fun w => w.set c)
   let s2 := if v.preempt != bit (c.u8 12) 0 then s1.startVerify p else s1
   let s3 := forEach (List.range 8) s2 (fun w k => w.pfcCheck p k)
   Answers (.portSet f) f s 0x0601 portSetPlan s3 (if s3.portDegraded p then ⟨rcDegradedOk, 4, []⟩ else Reply.ok [])) ∧
  GoesOn (.portBreakout f) f s 0x0602 portBreakoutPlan (t.rebreak (c.phys 0) (c.u8 1)) (.portBreakout (c.phys 0) (c.u8 1)) true ∧
  GoesOn (.portReset f) f s 0x0603 portResetPlan ((t.portDown p).discardQueues p) (.portReset p) true ∧
  (p.val % 8 ≠ 0 → Answers (.portStats f) f s 0x0604 portStatsPlan (t.modPort p (fun w => { w with stats := List.replicate 24 0 }))
    (Reply.ok ((v.stats.take 23).flatMap (leBytes 8) ++ leBytes 8 0))) ∧
  (p.val % 8 = 0 → Answers (.portStats f) f s 0x0604 portStatsPlan
    ((t.modPort p (fun w => { w with stats := List.replicate 24 0 })).modPhys (physOf p) (fun w => { w with tsDropped := 0 }))
    (Reply.ok ((v.stats.take 23).flatMap (leBytes 8) ++ leBytes 8 h.tsDropped))) ∧
  Answers (.portGlobalSet f) f s 0x0605 portGlobalSetPlan { t with nativePort := BitVec.ofNat 16 (c.u16 0) } (Reply.ok []) ∧
  Answers (.portMgmtSet f) f s 0x0610 portMgmtSetPlan
    (t.modPort p (fun w => { w with
      mgmt := if c.u8 2 = 1 then tset w.mgmt (c.u8 1) (BitVec.ofNat 48 (c.field 6 4), c.u8 3) else tdel w.mgmt (c.u8 1) })) (Reply.ok []) ∧
  (let ent : Filter :=
     { etypeEn := bit (c.u8 2) 1, action := c.u8 3, queue := c.u8 4, pcp := BitVec.ofNat 3 (c.u8 5), pcpMask := BitVec.ofNat 3 (c.u8 6)
       vid := BitVec.ofNat 12 (c.u16 8), vidMask := BitVec.ofNat 12 (c.u16 10), etype := BitVec.ofNat 16 (c.u16 12), program := c.u32 16 }
   Answers (.portFilterSet f) f s 0x0611 portFilterSetPlan
    (t.modPort p (fun w => { w with filters := if bit (c.u8 2) 0 then tset w.filters (c.u8 1) ent else tdel w.filters (c.u8 1) }))
    (Reply.ok [])) ∧
  (let q := c.u8 1 % 16
   let g : FuncId := ⟨c.u16 2 % 256, by omega⟩
   let recv := ringOpt (c.u32 4)
   let send := ringOpt (c.u32 8)
   Answers (.portQueueBind f) f s 0x0612 portQueueBindPlan
    ((t.bindRaw g (p.val * 16 + q) (recv.toList ++ send.toList)).modPort p (fun w => { w with
      rawqs := if recv.isNone && send.isNone then tdel w.rawqs q else tset w.rawqs q ⟨g, recv, send⟩
      defaultQ := if bit (c.u8 1) 7 && (recv.isSome || send.isSome) then some q else if w.defaultQ = some q then none else w.defaultQ })) (Reply.ok []))

/-- What the commands on PTP time, time stamps and the relay answer and do (R251, R253, R364 to R372). -/
def Obligations.TimeAndRelayCommandsAnswer : Prop :=
  ∀ (f : FuncId) (s : State), let c := s.cmd f; let t := s.take f
  (c.u8 0 = 2 → Answers (.ptpAdjust f) f s 0x0620 ptpAdjustPlan { t with ptpFreq := signed64 (c.u64 8) } (Reply.ok [])) ∧
  (c.u8 0 = 0 → Answers (.ptpAdjust f) f s 0x0620 ptpAdjustPlan (State.gatesRecompute { t with ptp := c.u64 8, ptpFrac := 0 }) (Reply.ok [])) ∧
  (c.u8 0 = 1 → Answers (.ptpAdjust f) f s 0x0620 ptpAdjustPlan
    (State.gatesRecompute { t with ptp := (((t.ptp : Int) + signed64 (c.u64 8)) % 2 ^ 64).toNat }) (Reply.ok [])) ∧
  Answers (.ptpRead f) f s 0x0621 ptpReadPlan t (Reply.ok (leBytes 8 t.ptp ++ leBytes 8 t.ppsIn)) ∧
  (let ph := c.phys 0
   let g : FuncId := ⟨c.u16 2 % 256, by omega⟩
   let s1 := match (t.physPort ph).tsCq with
     | some e => t.modCq e.1 e.2 (fun q => { q with tsPorts := q.tsPorts.filter (fun k => k != ph) })
     | none => t
   Answers (.portTsBind f) f s 0x0622 portTsBindPlan
    (((s1.modCq g (c.u32 4) (fun q => { q with tsPorts := q.tsPorts ++ [ph] })).modPhys ph (fun h => { h with tsCq := some (g, c.u32 4) })).tsPump ph)
    (Reply.ok [])) ∧
  Answers (.relaySet f) f s 0x0630 relaySetPlan
    { t with relay := { t.relay with
      nodeId := c.u32 0, hopLimit := c.u8 4, flowIdleUs := c.u32 8, unreachHoldUs := c.u32 12, ports := BitVec.ofNat 32 (c.u32 16) } }
    (Reply.ok []) ∧
  (let e := c.u8 0 == 1
   let i := c.u16 2
   let ent : RelayEntry := ⟨BitVec.ofNat 20 (c.u32 4), c.u8 8, (c.bytes 12 8).map (fun b => b.toNat) |>.filter (fun n => n != 0xFF)⟩
   let put := fun (l : Tbl RelayEntry) => if c.u8 9 = 1 then tset l i ent else tdel l i
   let r : Relay := { t.relay with heldOut := t.relay.heldOut.filter (fun h => !(h.1 == e && h.2.1 == i)) }
   Answers (.relayTableWrite f) f s 0x0631 relayTableWritePlan
    { t with relay := if e then { r with table1 := put t.relay.table1 } else { r with table0 := put t.relay.table0 } } (Reply.ok [])) ∧
  ((c.u8 0 == 1) ≠ t.relay.epoch → Answers (.relayEpochSwitch f) f s 0x0632 relayEpochSwitchPlan
    (State.switchAll { t with relay := { t.relay with epoch := c.u8 0 == 1, drainMaxUs := c.u32 4 } }) (Reply.ok [])) ∧
  ((c.u8 0 == 1) = t.relay.epoch → Answers (.relayEpochSwitch f) f s 0x0632 relayEpochSwitchPlan t (Reply.ok [])) ∧
  (let r := t.relay
   Answers (.relayQuery f) f s 0x0633 relayQueryPlan t (Reply.ok
    (leBytes 4 r.nodeId ++ leBytes 1 (b2n r.epoch) ++ leBytes 1 r.hopLimit ++ zeros 2 ++ leBytes 4 t.draining ++ leBytes 4 r.flows.length ++
     leBytes 8 r.relayed ++ leBytes 8 r.noRoute ++ leBytes 8 r.hopExpired ++ leBytes 8 r.disabled)))

/-- What the commands on communicators answer and do (R259 to R262, R289): COMM_CREATE makes each connection it names an edge. -/
def Obligations.CommunicatorCommandsAnswer : Prop :=
  ∀ (f : FuncId) (s : State), let c := s.cmd f; let t := s.take f
  (∀ (m : Nat) (q : Series), (t.func c.obj).commSeries.take 65536 = some (m, q) →
    let comm : Comm := ⟨BitVec.ofNat 32 (c.u32 0), c.u32 4, c.u32 8, c.u16 12, bit (c.u8 15) 0, c.u32 16, c.u32 20, c.u32 24, c.u16 28,
      c.u16 30, cmdChildren c, false, 0, [], false, []⟩
    let edges := ([comm.parent, comm.ringNext, comm.ringPrev] ++ comm.children.map (fun k => k.conn)).filter (fun e => e != 0)
    Answers (.commCreate f) f s 0x0700 commCreatePlan
      (forEach edges (t.setFunc c.obj { t.func c.obj with commSeries := q, comms := tset (t.func c.obj).comms m comm })
        (fun w e => w.modConn e (fun k => { k with edge := some m }))) (Reply.ok (leBytes 4 m ++ zeros 4))) ∧
  Answers (.commDestroy f) f s 0x0701 commDestroyPlan ((t.destroyComm c.obj (c.u32 0)).collPump c.obj) (Reply.ok []) ∧
  (∀ m, t.comm c.obj (c.u32 0) = some m → Answers (.commQuery f) f s 0x0702 commQueryPlan t (Reply.ok
    (leBytes 1 (b2n m.degraded) ++ zeros 3 ++ leBytes 4 (t.opsOf c.obj (c.u32 0)) ++ leBytes 4 m.pruned ++ zeros 4))) ∧
  Answers (.collSlotsQuery f) f s 0x0710 collSlotsQueryPlan t (Reply.ok
    (leBytes 4 (t.share c.obj 13) ++ leBytes 4 (t.freeSlots c.obj) ++
     leBytes 4 ((t.func c.obj).ops.filter (fun o => o.launched)).length ++ leBytes 4 (t.func c.obj).lastGseq))

/-- What the commands on drill programs and furrows answer and do: DRILL_LOAD binds the furrows it chose, the program and the weights
region, and goes on loading (R316 to R320, R327); CHECK_ONLY answers with the furrows alone and binds nothing (R42, R320). -/
def Obligations.ProgramCommandsAnswer : Prop :=
  ∀ (f : FuncId) (s : State), let c := s.cmd f; let t := s.take f; let n := c.u32 0
  (∀ (img0 : Bytes) (stoch : Option Nat) (descs : List StreamDesc) (k base : Nat) (q : Series),
    let img := (s.loadImage c img0).1
    let fs := (t.chooseFurrows c.obj img).chosen
    let w := t.weightsRegion c.obj k img fs
    let prog := t.makeProg c img descs base w.1
    let u := w.2.modFunc c.obj (fun v => { v with
      pulses := (pulseInputs prog.bindings).foldl (fun x i => tset x (base + i) (k, i)) v.pulses })
    t.progSeries.take 0xFFFFFFFF = some (k, q) → t.inputBaseFor c.obj (cmdBindings c img) = some base →
    s.accepts f 0x0800 (drillLoadPlan img0 stoch descs) = true →
    exec (.drillLoad f img0 ⟨stoch, descs⟩) s = .next
      (({ u with progSeries := q, progs := tset u.progs k prog } : State).modMbx f (fun m => { m with long := some (.drillLoad k, false) })).settle) ∧
  (∀ (img0 : Bytes) (stoch : Option Nat) (descs : List StreamDesc), s.canTake f = true → c.opcode = 0x0800 → c.checkOnly = true →
    (let p := drillLoadPlan img0 stoch descs c s
     firstFailing (commonChecks s c 0x0800 p.managerOnly p.size ++ p.checks) = none) →
    exec (.drillLoad f img0 ⟨stoch, descs⟩) s = .next (t.answer f (Reply.ok
      (zeros 12 ++ leBytes 8 (((s.chooseFurrows c.obj (s.loadImage c img0).1).chosen.map (fun k => 2 ^ k)).sum) ++ zeros 8))).settle) ∧
  GoesOn (.drillUnload f) f s 0x0801 drillUnloadPlan (t.modProg n (fun p => { p with unloading := true })) (.drillUnload n) false ∧
  (∀ p, t.prog n = some p → Answers (.drillQuery f) f s 0x0802 drillQueryPlan t (Reply.ok
    (leBytes 1 (progStateCode p.state) ++ zeros 3 ++ leBytes 8 p.runs ++ leBytes 4 p.lastFlags.toNat ++ leBytes 4 p.detLate ++
     leBytes 4 p.overrun ++ leBytes 4 p.short ++ leBytes 4 p.badInput ++ leBytes 4 p.pulseLost))) ∧
  Answers (.drillControl f) f s 0x0803 drillControlPlan
    (t.modProg n (fun p =>
      if c.u8 4 = 0 then { p with state := .disabled }
      else if c.u8 4 = 1 then { p with
        state := if p.state = .disabled then (if p.current.isSome then .running else .ready) else p.state
        waitSince := if p.state = .disabled then t.time else p.waitSince }
      else if c.u8 4 = 2 then { p with seed := BitVec.ofNat 32 (c.u64 8) }
      else { p with warmHold := c.u64 8 })) (Reply.ok []) ∧
  (let fur := c.u8 0
   let owner := s.furrowOwner fur
   let tines := (List.range 16).map (fun k => t.coreTines (fur * 16 + k))
   Answers (.furrowQuery f) f s 0x0810 furrowQueryPlan t (Reply.ok
    (leBytes 2 (match owner with | some g => g.val | none => 0xFFFF) ++ leBytes 1 (b2n (t.tines.warm.contains fur)) ++
     leBytes 1 (tines.filter (fun k => decide (k > 0))).length ++ leBytes 4 (match t.progAt fur with | some p => p.1 | none => noneId) ++
     leBytes 8 (match owner with | some g => t.freeTilth g false fur | none => 0) ++ tines.flatMap (leBytes 1))))

/-- What the commands on module memory, its granules and the spares answer and do (R338 to R348, R356, R378, R385, R404, R405): a grant on
a stack with a channel mapped out answers DEGRADED_OK (R397). -/
def Obligations.MemoryCommandsAnswer : Prop :=
  ∀ (f : FuncId) (s : State), let c := s.cmd f; let t := s.take f; let l := t.mem.layout
  Answers (.memLayoutQuery f) f s 0x0900 memLayoutQueryPlan t (Reply.ok
    (leBytes 4 l.windrowMib ++ leBytes 4 l.traceMib ++ leBytes 4 l.slots ++ zeros 4 ++
     (List.range 40).flatMap (fun k => leBytes 1 (l.inlineMib.getD k 0)) ++ leBytes 4 t.poolHbmMib ++ leBytes 4 t.poolTilthKib)) ∧
  GoesOn (.memLayoutSet f) f s 0x0901 memLayoutSetPlan t
    (.memLayoutSet (c.u32 0) (c.u32 4) (c.u32 8) ((List.range 40).map (fun k => c.u8 (16 + k)))) false ∧
  GoesOn (.shareScrub f) f s 0x0920 shareScrubPlan t (.shareScrub (c.u64 0) (c.u64 8)) false ∧
  Answers (.scrubSet f) f s 0x0930 scrubSetPlan { t with mem := { t.mem with hbmPeriod := c.u32 0, tilthPeriod := c.u32 4 } } (Reply.ok []) ∧
  Answers (.scrubQuery f) f s 0x0931 scrubQueryPlan t (Reply.ok ((List.range 6).flatMap (fun u =>
    leBytes 8 (tgetD t.mem.corrected u 0) ++ leBytes 8 (tgetD t.mem.uncorrectable u 0) ++
    leBytes 4 (min max32 (t.mem.poison.filter (fun b => memUnit (b * 64) == u)).length) ++ leBytes 4 (min max32 (tgetD t.mem.passMs u 0))))) ∧
  (let degr := c.u8 2 == 0 && (lrange (stackOf (c.u64 8)) (stackOf (c.u64 8 + c.u64 16 - 1) - stackOf (c.u64 8) + 1)).any
     (fun k => !(tgetD s.mem.channelsOut k []).isEmpty)
   Answers (.granuleGrant f) f s 0x0910 granuleGrantPlan
    (t.grant c.target (c.u8 2 == 1) (cmdGranules c (kindGranule (c.u8 2)))) (if degr then ⟨rcDegradedOk, 9, []⟩ else Reply.ok [])) ∧
  GoesOn (.granuleRevoke f) f s 0x0911 granuleRevokePlan (t.ungrant c.target (c.u8 2 == 1) (cmdGranules c (kindGranule (c.u8 2))))
    (.granuleRevoke c.target (c.u8 2 == 1) (c.u64 8) (c.u64 16)) true ∧
  (let g := kindGranule (c.u8 2)
   let v := t.func c.target
   let e := (extents ((if c.u8 2 = 1 then v.tilth else v.hbm).filter (fun k => decide (c.u64 8 ≤ k * g)))).take 253
   Answers (.granuleQuery f) f s 0x0912 granuleQueryPlan t (Reply.ok
    (leBytes 4 e.length ++ zeros 4 ++ e.flatMap (fun p => leBytes 8 (p.1 * g) ++ leBytes 8 (p.2 * g))))) ∧
  (let cores := (List.range 640).map t.coreTines
   Answers (.spareQuery f) f s 0x0A00 spareQueryPlan t (Reply.ok
    (leBytes 4 (640 - t.tines.drawn.length) ++ leBytes 4 (cores.filter (fun n => decide (0 < n) && decide (n < 16))).length ++
     leBytes 4 (cores.filter (fun n => n == 0)).length ++
     leBytes 1 (((List.finRange 4).filter (fun ph => !(t.physPort ph).spareUsed)).map (fun ph => 2 ^ ph.val)).sum ++ zeros 3 ++
     leBytes 4 ((List.range 40).map t.mem.tilthRowsLeft).sum ++ leBytes 4 t.mem.retired.length ++
     leBytes 4 (4 * Config.hbmBanks - ((tvals t.mem.hbmRows).map List.length).sum) ++
     (List.range 4).flatMap (fun k => leBytes 1 (tgetD t.mem.channelsOut k []).length) ++ leBytes 4 t.power.holdupMj))) ∧
  (c.u8 0 ≠ 8 ∧ c.u8 0 ≠ 9 → GoesOn (.repair f) f s 0x0A01 repairPlan t (.repair (c.u8 0) (c.u32 4) (c.u64 8)) false) ∧
  (c.u8 0 = 8 ∨ c.u8 0 = 9 → GoesOn (.repair f) f s 0x0A01 repairPlan (t.repaired (c.u8 0) (c.u32 4) (c.u64 8))
    (.repair (c.u8 0) (c.u32 4) (c.u64 8)) true) ∧
  (∀ mj, Answers (.holdupTest f mj) f s 0x0A02 (holdupTestPlan mj) (t.holdupMeasured mj) (Reply.ok (leBytes 4 mj ++ zeros 4)))

/-- What the commands on resets, low power, firmware images and the boot log answer and do: MODULE_RESET makes a reset due 100 µs on
(R413); IMAGE_SELECT raises MIN_VERSION and never lowers it (R422). -/
def Obligations.ResetAndImageCommandsAnswer : Prop :=
  ∀ (f : FuncId) (s : State), let c := s.cmd f; let t := s.take f
  Answers (.moduleReset f) f s 0x0B00 moduleResetPlan { t with resetAt := some (t.time + 100000) } (Reply.ok []) ∧
  Answers (.fwRestart f) f s 0x0B01 fwRestartPlan (t.beginRestart 1 (if c.u8 0 = 255 then s.image else c.u8 0)) (Reply.ok []) ∧
  GoesOn (.tineReset f) f s 0x0B02 tineResetPlan t (.tineReset (BitVec.ofNat 40 (c.u64 0))) false ∧
  (c.u8 0 = 0 → GoesOn (.moduleFallow f) f s 0x0B03 moduleFallowPlan t.enterFallow (.moduleFallow true) true) ∧
  (c.u8 0 ≠ 0 → GoesOn (.moduleFallow f) f s 0x0B03 moduleFallowPlan t (.moduleFallow false) true) ∧
  GoesOn (.moduleWipe f) f s 0x0B04 moduleWipePlan t .moduleWipe false ∧
  Answers (.imageQuery f) f s 0x0B10 imageQueryPlan t (Reply.ok
    (leBytes 1 t.image ++ leBytes 1 t.mram.next ++ leBytes 2 t.mram.minVersion ++ t.mram.slot0.toBytes ++ t.mram.slot1.toBytes)) ∧
  (∀ img, let k := 1 - s.image
    GoesOn (.imageProgram f img) f s 0x0B11 (imageProgramPlan img)
      { t with mram := t.mram.setSlot k { t.mram.slot k with state := 2 } } (.imageProgram k img) true) ∧
  Answers (.imageSelect f) f s 0x0B12 imageSelectPlan
    { t with mram := { t.mram with
      next := c.u8 0
      minVersion := if c.u8 1 = 1 then max t.mram.minVersion (t.mram.slot t.image).securityVersion else t.mram.minVersion } } (Reply.ok []) ∧
  (let l := (t.mram.bootLog.filter (fun r => decide (c.u32 0 ≤ r.boot))).take 253
   Answers (.bootLogRead f) f s 0x0B20 bootLogReadPlan t (Reply.ok
    (leBytes 4 l.length ++ leBytes 4 t.mram.bootNo ++ l.flatMap BootRec.toBytes))) ∧
  Answers (.bootLogClear f) f s 0x0B21 bootLogClearPlan { t with mram := { t.mram with failCount := [], altMethod := [] } } (Reply.ok [])

/-- What the life-cycle commands answer and do: a challenge gives a fresh nonce; a transition that passes writes its intent, uses the
nonce up and destroys the keys (R425 to R428). -/
def Obligations.LifeCycleCommandsAnswer : Prop :=
  ∀ (f : FuncId) (s : State), let c := s.cmd f; let t := s.take f
  Answers (.lcQuery f) f s 0x0B30 lcQueryPlan t (Reply.ok
    (leBytes 1 t.mram.lc ++ zeros 3 ++ leBytes 4 t.mram.transitions ++ fit 48 t.mram.ownerHash)) ∧
  (let nonce := (List.range 16).map (fun i => Config.random t.fresh.1 i)
   Answers (.lcChallenge f) f s 0x0B31 lcChallengePlan { t.fresh.2 with nonce := some nonce } (Reply.ok nonce)) ∧
  (∀ good, let h := if c.u8 7 = 1 then c.bytes 48 48 else t.mram.ownerHash
    GoesOn (.lcTransition f good) f s 0x0B32 (lcTransitionPlan good)
      ({ t with mram := { t.mram with intent := some (c.u8 7, h) }, nonce := none } : State).destroyKeys (.lcTransition (c.u8 7) h) true)

/-- What the commands on counters, the trace, the fault queue and the wait-for graph answer and do (R432 to R442, R448). -/
def Obligations.ObservationCommandsAnswer : Prop :=
  ∀ (f : FuncId) (s : State), let c := s.cmd f; let t := s.take f
  (let d := State.freshN 4 t
   let l := t.groupCounters (c.u8 0) (c.u16 2) d.1
   Answers (.cntGlobalRead f) f s 0x0C00 cntGlobalReadPlan (d.2.peaksRead (c.u8 0)) (Reply.ok (leBytes 4 l.length ++ zeros 4 ++ l.flatMap (fun v => leBytes 8 v)))) ∧
  Answers (.traceConfig f) f s 0x0C10 traceConfigPlan
    { t with trace := { t.trace with
      wrap := c.u8 0 == 1, prePercent := c.u8 1, stopOnTrigger := c.u8 2 == 1, kindMask := BitVec.ofNat 32 (c.u32 4)
      func := c.u16 8, trigKind := c.u8 10, trigFaultClass := c.u8 11, trigObject := c.u32 12 } } (Reply.ok []) ∧
  (c.u8 0 = 0 → Answers (.traceControl f) f s 0x0C11 traceControlPlan { t with trace := t.trace.start t.time } (Reply.ok [])) ∧
  (c.u8 0 = 1 → Answers (.traceControl f) f s 0x0C11 traceControlPlan { t with trace := { t.trace with state := .stopped } } (Reply.ok [])) ∧
  (c.u8 0 = 2 → Answers (.traceControl f) f s 0x0C11 traceControlPlan (t.traceTrigger 0 0 1) (Reply.ok [])) ∧
  Answers (.traceQuery f) f s 0x0C12 traceQueryPlan t (Reply.ok
    (leBytes 1 (traceStateCode t.trace.state) ++ zeros 3 ++ leBytes 4 t.trace.ignored ++
     [0, 1].flatMap (fun d => leBytes 8 (nth2 t.trace.written d) ++ leBytes 8 (nth2 t.trace.dropped d) ++
       leBytes 4 (nth2 t.trace.nextSlot d) ++ zeros 4))) ∧
  GoesOn (.traceRead f) f s 0x0C13 traceReadPlan t (.traceRead ⟨c.u8 0 % 2, by omega⟩ (c.u32 4) (c.u64 8) (c.u64 16)) false ∧
  (c.u8 0 = 0 → Answers (.faultRead f) f s 0x0C20 faultReadPlan { t with faults := t.faults.drop 124 } (Reply.ok
    (leBytes 4 (t.faults.take 124).length ++ zeros 4 ++ (lrange 1 8).flatMap (fun k => leBytes 8 (tgetD t.faultSummary k 0)) ++
     (t.faults.take 124).flatMap FaultRec.toBytes))) ∧
  (c.u8 0 ≠ 0 → let l := t.mram.faultLog.drop (t.mram.faultLog.length - 124)
    Answers (.faultRead f) f s 0x0C20 faultReadPlan t (Reply.ok
      (leBytes 4 l.length ++ zeros 4 ++ (lrange 1 8).flatMap (fun k => leBytes 8 (tgetD t.faultSummary k 0)) ++ l.flatMap FaultRec.toBytes))) ∧
  GoesOn (.hangGraph f) f s 0x0C30 hangGraphPlan t (.hangGraph (c.u32 0) (c.u64 8) (c.u64 16) t.waits) false

/-- What the commands on gleans and the global stop answer and do (R443 to R448): GLOBAL_STOP answers the module time at which the stop
began; GLOBAL_RESUME lets every domain run on. -/
def Obligations.GleanAndStopCommandsAnswer : Prop :=
  ∀ (f : FuncId) (s : State), let c := s.cmd f; let t := s.take f; let n := c.u32 0
  (∀ need, Answers (.gleanArm f (some need)) f s 0x0C40 (gleanArmPlan (some need))
    (t.modProg n (fun p => { p with glean := ⟨1, c.u16 4, c.u16 6, c.u32 8, c.u32 12, BitVec.ofNat 32 (c.u32 16), c.u64 24, need⟩ }))
    (Reply.ok (leBytes 8 need))) ∧
  (∀ p, t.prog n = some p → Answers (.gleanQuery f) f s 0x0C41 gleanQueryPlan t (Reply.ok
    (leBytes 1 p.glean.state ++ zeros 3 ++ leBytes 4 p.glean.run ++ leBytes 8 p.glean.bytes))) ∧
  Answers (.gleanCancel f) f s 0x0C42 gleanCancelPlan
    ((t.dropWhere (fun q => q == .glean n)).modProg n (fun p => { p with
      glean := { p.glean with state := 0 }
      current := p.current.map (fun r => if r.phase = .gleaning then { r with phase := .computing } else r) })) (Reply.ok []) ∧
  Answers (.globalStop f) f s 0x0C50 globalStopPlan (t.globalStop false) (Reply.ok (leBytes 8 (t.globalStop false).stop.rootTime)) ∧
  (t.stop.stopped = true → Answers (.globalResume f) f s 0x0C51 globalResumePlan t.resume (Reply.ok [])) ∧
  (t.stop.stopped = false → Answers (.globalResume f) f s 0x0C51 globalResumePlan t (Reply.ok [])) ∧
  (let k := min 168 (236 - c.u16 0)
   Answers (.stopRead f) f s 0x0C52 stopReadPlan t (Reply.ok
    (leBytes 8 t.stop.refTime ++ leBytes 8 t.stop.rootTime ++ leBytes 4 k ++ zeros 4 ++ (lrange (c.u16 0) k).flatMap t.domainBytes)))

/-! ### What every event does, where it is due

Hypotheses say when: the function can be reached (`s.reachable f`), the module runs (`s.runs`: powered, not globally stopped), and the
object the event is about stands as the event presumes. -/

/-- LONG_COMMAND_DONE: what each long command's end does, and its response (R39, R42, R47, R132, R229, R255, R316, R334, R341, R348,
R378, R384, R405, R415, R417, R420, R423, R427). Only the response of DRILL_LOAD carries more than OK. -/
def Obligations.LongCommandsEndWithTheirEffect : Prop :=
  ∀ (f : FuncId) (s : State) (b : Bool), s.serving = true →
  let ends := fun (job : LongJob) (t : State) =>
    (s.func f).mbx.long = some (job, b) → exec (.longCommandDone f) s = .next (t.answerLong f (Reply.ok [])).settle
  (∀ g, ((s.teardownDone g).func g).state ≠ .destroying → ends (.funcDestroy g) (s.teardownDone g)) ∧
  (∀ g r v, s.ring g r = some v → v.jobs = [] → v.posts = [] → v.postWait = none →
    ends (.ringRestart g r) (s.modRing g r (fun w =>
      { w with cons := w.prod, started := w.prod, held := [], fetching := none, error := false, errorIndex := 0 }))) ∧
  (∀ ph k, ends (.portBreakout ph k) s) ∧
  (∀ p, ends (.portReset p) (s.trainPort p)) ∧
  (∀ n, (s.func f).mbx.long = some (.drillLoad n, b) →
    exec (.longCommandDone f) s = .next ((s.drillLoaded n).1.answerLong f (s.drillLoaded n).2).settle) ∧
  (∀ n, s.progD n (fun p => p.current.isSome) = false → ends (.drillUnload n) (s.freeProg n)) ∧
  (∀ w t n l, ends (.memLayoutSet w t n l) (s.setLayout ⟨w, t, n, l⟩)) ∧
  (∀ base len, ends (.shareScrub base len) (s.scrub base len)) ∧
  (∀ g base len, ends (.granuleRevoke g true base len) (s.poolReturn true (lrange (base / tilthGranule) (len / tilthGranule)))) ∧
  (∀ g base len, ends (.granuleRevoke g false base len) (s.poolReturn false (lrange (base / hbmGranule) (len / hbmGranule)))) ∧
  (∀ kind unit addr, kind ≠ 8 → kind ≠ 9 → ends (.repair kind unit addr) (s.repaired kind unit addr)) ∧
  (∀ unit addr, s.mem.rehashing.contains (unit / 256) = false → ends (.repair 9 unit addr) s) ∧
  (∀ unit addr, s.mem.rehashing.contains (stackOf addr) = false → ends (.repair 8 unit addr) s) ∧
  (∀ mask, ends (.tineReset mask) (s.resetTines mask.toNat)) ∧
  ends (.moduleFallow true) s ∧ ends (.moduleFallow false) s.leaveFallow ∧ ends .moduleWipe s.wipe ∧
  (∀ slot img, ends (.imageProgram slot img)
    { s with mram := s.mram.setSlot slot ⟨1, img.securityVersion.toNat, img.fwVersion, img.sameFormat⟩ }) ∧
  (∀ to_ h, ends (.lcTransition to_ h) { s with resetAt := some s.time }) ∧
  (∀ die key off len, (s.func f).mbx.long = some (.traceRead die key off len, b) →
    exec (.longCommandDone f) s = .next (s.traceOut f die key off len).settle) ∧
  (∀ key off len sample, (s.func f).mbx.long = some (.hangGraph key off len sample, b) →
    exec (.longCommandDone f) s = .next (s.graphOut f key off len sample).settle)

/-- PROGRESS_RECORD posts a record of kind 0x0001 with the TOKEN of firmware's copy, a STAGE and units only where the command defines
them; COMMAND_TIMEOUT abandons a command that has not committed and answers TIMEOUT; GO posts a command, or is ignored while one is;
EVT_CONS frees slots; EVT_LOST is read and cleared (R35, R39, R40, R44, R47, R48, R51). -/
def Obligations.MailboxEventsAct : Prop :=
  ∀ (f : FuncId) (s : State), let m := (s.func f).mbx
  (∀ stage d n ms job b, m.long = some (job, b) → m.state = .running → s.serving = true →
    let u := s.jobUnits job d.toNat n.toNat
    exec (.progressRecord f stage d n ms) s = .next (s.post f 0x0001 m.copyToken (leBytes 2 m.opcode ++ leBytes 2 (job.stage stage.toNat) ++
      zeros 4 ++ leBytes 8 u.1 ++ leBytes 8 u.2 ++ leBytes 4 ms.toNat))) ∧
  (∀ job, m.long = some (job, false) → s.serving = true → m.timeoutMs ≠ 0 →
    exec (.commandTimeout f) s = .next ((s.abandonJob job).answerLong f (Reply.refuse rcTimeout 0)).settle) ∧
  (∀ v, s.reachable f = true → bit v.toNat 0 = true → m.state ≠ .posted → m.state ≠ .running → s.serving = true →
    let s0 := s.regSent f
    let s1 := s0.count f cntMailbox 1
    let s2 := s1.fresh.2.modMbx f (fun w => { w with
      state := .posted, token := BitVec.ofNat 16 ((s1.cmd f).hdr 2 2), mixed := [], goOrder := s.goNext })
    exec (.mbxGo f v) s = .next { s2 with goNext := s.goNext + 1 }) ∧
  (∀ v, s.reachable f = true → bit v.toNat 0 = true → m.state = .posted ∨ m.state = .running →
    exec (.mbxGo f v) s = .next ((s.regSent f).count f cntProtocol 1)) ∧
  (∀ v, s.reachable f = true → bit v.toNat 0 = true → m.state ≠ .posted → m.state ≠ .running → s.serving = false →
    exec (.mbxGo f v) s = .next (((s.regSent f).count f cntMailbox 1).hardwareBusy f)) ∧
  (∀ v : Word32, s.reachable f = true → (BitVec.ofNat 7 v.toNat - m.evtCons).toNat ≤ m.occupied →
    exec (.mbxEvtConsWrite f v) s = .next (((s.regSent f).modMbx f (fun w => { w with evtCons := BitVec.ofNat 7 v.toNat })).refillEvents f)) ∧
  (∀ v : Word32, s.reachable f = true → (BitVec.ofNat 7 v.toNat - m.evtCons).toNat > m.occupied →
    exec (.mbxEvtConsWrite f v) s = .next ((s.regSent f).count f cntProtocol 1)) ∧
  (s.reachable f = true → exec (.mbxEvtLostRead f) s = .next
    (((s.regSent f).modMbx f (fun w => { w with lost := 0 })).regReturns f (leBytes 4 m.lost)))

/-- Register accesses of a function cross the fabric from its link to Headland (R357): the command mailbox takes writes and INT_CTRL its
two bits, also during a global stop, when the low word of module time still latches the high; the MSI-X table and the window registers
take writes while the module runs; an access of the wrong size or alignment is counted, a piece of a doorbell as a discarded doorbell, and
a read of it returns ones (R9, R10, R34, R35, R40, R63 to R66, R82, R445). -/
def Obligations.RegisterAccessesAct : Prop :=
  ∀ (f : FuncId) (s0 : State), let s := s0.regSent f
  (s0.reachable f = true →
    (∀ off size (v : Word64), badAccess .bar0 true off size = false → 0x1000 ≤ off → off < 0x2000 →
      exec (.regWrite f .bar0 off size v) s0 = .next (s.mailWrite f (off - 0x1000) (leBytes size v.toNat))) ∧
    (∀ v : Word64, let w := v.toNat % 2 ^ 32
      exec (.regWrite f .bar0 0x41C 4 v) s0 = .next (s.modMbx f (fun m => { m with doneEn := bit w 0, evtEn := bit w 1 }))) ∧
    exec (.idTimeLoRead f) s0 = .next ((s.modFunc f (fun v => { v with timeHi := s.time / 2 ^ 32 % 2 ^ 32 })).regReturns f
      (leBytes 4 (s.time % 2 ^ 32)))) ∧
  (s0.served f = true →
    (∀ n (v : Word64), n < s.vectors f → n < 2048 →
      exec (.regWrite f .bar4 (16 * n + 8) 4 v) s0 = .next (s.modEntry f n (fun e => { e with data := BitVec.ofNat 32 v.toNat }))) ∧
    (∀ bar off size (v : Word64), badAccess bar true off size = true →
      exec (.regWrite f bar off size v) s0 = .next (s.count f (accessCounter bar true off) 1)) ∧
    (∀ bar off size, badAccess bar true off size = true → wholeDoorbell bar true off size = false →
      exec (.badRegAccess f bar true off size) s0 = .next (s.count f (accessCounter bar true off) 1)) ∧
    (∀ bar off size, badAccess bar false off size = true →
      exec (.badRegAccess f bar false off size) s0 = .next ((s.count f cntRegAccess 1).regReturns f (List.replicate size 0xFF))) ∧
    (∀ v : Word32, exec (.winSet f .base v) s0 = .next (s.modFunc f (fun w => { w with win := { w.win with base := BitVec.ofNat 19 v.toNat } }))) ∧
    (∀ v : Word32, exec (.winSet f .ctrl v) s0 = .next
      (s.modFunc f (fun w => { w with win := { w.win with enable := bit v.toNat 0, writeEn := bit v.toNat 1 } }))))

/-- BAR2: an access inside the function's share crosses the fabric and reads or writes module memory, and a read that meets an
uncorrectable block returns ones, poisoned; one that R67 refuses sets FAULT, is counted, signals
source 3, and a read of it returns ones (R65 to R68, R345, R357, R470). -/
def Obligations.WindowAccessesAct : Prop :=
  ∀ (f : FuncId) (s : State) (off : Nat) (obs : List BlockObs), s.served f = true →
  let a := (s.func f).win.base.toNat * 0x200000 + off
  let bad := ((s.modFunc f (fun v => { v with win := { v.win with fault := true } })).count f cntWinFault 1).signal f 3
  (∀ len, s.winRefused f false a len = false → let d := (s.winAsks f a len).memRead a len obs
    exec (.bar2Read f off len obs) s = .next (d.1.emit (.readData f (if d.2.2.1 then List.replicate len 0xFF else d.2.1) d.2.2.1))) ∧
  (∀ len, s.winRefused f false a len = true →
    exec (.bar2Read f off len obs) s = .next (bad.emit (.readData f (List.replicate len 0xFF) false))) ∧
  (∀ data, s.winRefused f true a data.length = false → exec (.bar2Write f off data obs) s = .next ((s.winSends f a data.length).memWrite a data obs).1) ∧
  (∀ data, s.winRefused f true a data.length = true → exec (.bar2Write f off data obs) s = .next bad)

/-- The event controller: a claim takes the best eligible source, EOI ends it, the threshold, the route table and EVC_CTRL take their
values, EVC_RAISE and the module's units set and withdraw pending bits (R75 to R79), the accesses and the events crossing the fabric
(R357). -/
def Obligations.EventControllerActs : Prop :=
  ∀ (f : FuncId) (s0 : State), let s := s0.regSent f; let e := (s0.func f).evc
  (∀ src, s0.served f = true → e.best = some src → exec (.evcClaimRead f) s0 = .next
    ((s.setEvc f { e with pending := lerase e.pending src, active := linsert e.active src }).regReturns f (leBytes 4 src))) ∧
  (s0.served f = true → e.best = none → exec (.evcClaimRead f) s0 = .next (s.regReturns f (leBytes 4 0xFFF))) ∧
  (∀ v : Word32, s0.served f = true → bits v.toNat 11 0 ≠ 0xFFF → e.active.contains (bits v.toNat 11 0) = true →
    exec (.evcEoiWrite f v) s0 = .next (s.setEvc f { e with active := lerase e.active (bits v.toNat 11 0) })) ∧
  (∀ v : Word32, s0.served f = true → bits v.toNat 11 0 ≠ 0xFFF → e.active.contains (bits v.toNat 11 0) = false →
    exec (.evcEoiWrite f v) s0 = .next (s.count f cntProtocol 1)) ∧
  (∀ v : Word32, s0.served f = true → exec (.evcThresholdWrite f v) s0 = .next (s.setEvc f { e with threshold := BitVec.ofNat 4 v.toNat })) ∧
  (∀ v : Word32, s0.served f = true → bit v.toNat 31 = false → validSource (bits v.toNat 11 0) = true →
    exec (.evcRaiseSignal f v) s0 = .next (s.signal f (bits v.toNat 11 0))) ∧
  (∀ v : Word32, s0.served f = true → bit v.toNat 31 = true → validSource (bits v.toNat 11 0) = true →
    exec (.evcRaiseWithdraw f v) s0 = .next (s.withdraw f (bits v.toNat 11 0))) ∧
  (∀ v : Word32, s0.served f = true → bit v.toNat 0 = true → e.msgEn = false → exec (.evcCtrlWrite f v) s0 = .next
    ((s.modFunc f (fun w => { w with evc := { w.evc with msgEn := true } })).sendAllGroups f)) ∧
  (∀ v : Word32, s0.served f = true → bit v.toNat 0 = false → exec (.evcCtrlWrite f v) s0 = .next
    (s.modFunc f (fun w => { w with evc := { w.evc with msgEn := false } }))) ∧
  (∀ src (v : Word32), s0.served f = true → src < 4095 → v &&& 0x8F0007FF#32 ≠ 0 →
    exec (.evcRouteWrite f src v) s0 = .next (s.setEvc f { e with route := tset e.route src (v &&& 0x8F0007FF#32) })) ∧
  (∀ src, validSource src = true → s0.fenced f = false → exec (.evcSourceSignal f src) s0 = .next
    (((s0.fabSend (.transport (dieOf f)) .headland .crsp 8).count f cntEvents 1).setEvc f { e with pending := linsert e.pending src })) ∧
  (∀ src, exec (.evcSourceWithdraw f src) s0 = .next (s0.setEvc f { e with pending := lerase e.pending src }))

/-- MSI-X and the counter snapshot: an unmasked vector with its pending bit set sends its message and the bit clears; enabling lets every
group's message out; masks hold (R79, R429). The vector masks of BAR4 and CNT_CTRL are written while the module runs, configuration space
also during a global stop (R445). -/
def Obligations.MessageAndCounterEventsAct : Prop :=
  ∀ (f : FuncId) (s0 : State),
  let s := s0.regSent f
  let v := s0.func f
  (s0.served f = true →
    (∀ n, n < s.vectors f → exec (.msixVectorUnmask f n) s0 = .next ((s.modEntry f n (fun e => { e with masked := false })).unmasked f n)) ∧
    (∀ x : Word32, bit x.toNat 0 = true → v.cnt.snap = false → exec (.cntSnap f x) s0 = .next
      (s.modFunc f (fun w => { w with cnt := { w.cnt with shadow := w.cnt.live, snapTime := s.time, snap := true } })))) ∧
  (s0.reachable f = true →
    (let s1 := s.modFunc f (fun w => { w with msix := { w.msix with fmask := false } })
     exec (.msixFunctionUnmask f) s0 = .next (forEach (s1.func f).msix.pba s1 (fun st n => st.unmasked f n))) ∧
    exec (.msixFunctionMaskSet f) s0 = .next (s.modFunc f (fun w => { w with msix := { w.msix with fmask := true } })) ∧
    (v.msix.enable = false → exec (.msixEnableSet f) s0 = .next
      ((s.modFunc f (fun w => { w with msix := { w.msix with enable := true } })).sendAllGroups f)) ∧
    exec (.msixEnableClear f) s0 = .next (s.modFunc f (fun w => { w with msix := { w.msix with enable := false } }))) ∧
  exec (.cntSnapDone f) s0 = .next (s0.modFunc f (fun w => { w with cnt := { w.cnt with snap := false } }))

/-- Doorbells: DBL_WORK moves the producer index of a live ring to an index within its bounds, DBL_CQ the consumer index, over the fabric
from the link to the ring's engine; any other is discarded and counted (R10, R107, R108, R116, R134, R357). -/
def Obligations.DoorbellsAct : Prop :=
  ∀ (f : FuncId) (s : State) (k : Nat) (v : Word64), s.served f = true →
  (∀ g, s.dblRefused true = false → s.ring f k = some g → bits v.toNat 15 0 < g.n →
    ringDist g.n g.prod g.cons ≤ ringDist g.n (linearOf g.n v.toNat) g.cons → ringDist g.n (linearOf g.n v.toNat) g.cons ≤ g.n →
    exec (.dblWork f k v true) s = .next (((s.dblSent f (g.kind.engine (dieOf f))).modRing f k (fun w => { w with prod := linearOf g.n v.toNat })).refreshSet (dieOf f))) ∧
  (exec (.dblWork f k v false) s = .next (s.count f cntDoorbell 1)) ∧
  (s.dblRefused true = false → s.ring f k = none → exec (.dblWork f k v true) s = .next (s.count f cntDoorbell 1)) ∧
  (∀ obs, s.dblRefused true = false → s.dblCqOk f k v = true → bit v.toNat 31 = false →
    exec (.dblCq f k v true obs) s = .next ((s.dblSent f (.transport (dieOf f))).cqConsume f k (s.dblCqIndex f k v) obs).settle) ∧
  (s.dblRefused true = false → s.dblCqOk f k v = true → bit v.toNat 31 = true →
    exec (.dblCqArm f k v true) s = .next
      (((s.dblSent f (.transport (dieOf f))).cqConsume f k (s.dblCqIndex f k v) []).armCq f k).settle) ∧
  (∀ obs, s.dblRefused true = false → s.dblCqOk f k v = false →
    exec (.dblCq f k v true obs) s = .next (s.count f cntDoorbell 1).settle)

/-- The arbiter of a die picks a ring whose next request is complete, and the request starts: taken off the ring, its slot its own (R106,
R110, R119, R148, R161, R247, R262). Each row stands for the requests of its opcode; COPY for every copy request, RAW_SEND for a raw
queue's, TRIGGERED_START for one with a WAIT extension. -/
def Obligations.RequestsStart : Prop :=
  ∀ (f : FuncId) (r : Nat) (s : State), s.runs = true →
  let s0 := s.judgeHeld f r
  ∀ (g0 g g2 : Ring) (s2 : State), s.ring f r = some g0 → g0.error = false → s0.ring f r = some g → chainOf g.held = .complete →
  let e := g.held.headD []
  let s1 := match (if g.kind = RingKind.send ∧ !isRaw g e then s0.boundConn f r e else none) with
    | some (n, c) => if c.ctx = CtxState.cached then s0 else s0.fetchContext n
    | none => s0
  s1.arbiter (dieOf f) = (s2, some (f, r)) → s2.ring f r = some g2 →
  let t := ((s2.startHeld f r g2).refreshSet (dieOf f)).settle
  let net := fun (op : Nat) => g.kind = RingKind.send ∧ entOp e = op ∧ isRaw g e = false
  let coll := fun (op : Nat) => g.kind = RingKind.coll ∧ entOp e = op
  (g.kind = .copy → exec (.copy f r) s = .next t) ∧
  (net 0x10 → exec (.write f r) s = .next t) ∧ (net 0x11 → exec (.read f r) s = .next t) ∧ (net 0x12 → exec (.send f r) s = .next t) ∧
  (g.kind = .send ∧ entOp e = 0x13 → exec (.recv f r) s = .next t) ∧
  (net 0x14 → exec (.fetchAdd f r) s = .next t) ∧ (net 0x15 → exec (.cmpSwap f r) s = .next t) ∧ (net 0x16 → exec (.swap f r) s = .next t) ∧
  (g.kind = .send ∧ isRaw g e = true ∧ entOp e ≠ 0x13 → exec (.rawSend f r) s = .next t) ∧
  (coll 0x80 → exec (.allreduce f r) s = .next t) ∧ (coll 0x81 → exec (.reduce f r) s = .next t) ∧
  (coll 0x82 → exec (.broadcast f r) s = .next t) ∧ (coll 0x83 → exec (.reduceScatter f r) s = .next t) ∧
  (coll 0x84 → exec (.allgather f r) s = .next t) ∧
  ((waitOf (g.held.drop 1)).isSome = true → exec (.triggeredStart f r) s = .next t)

/-- Entry reads: the answer to the outstanding read of a ring's entry ends its transfer, from host memory with the bytes it brought and
from module memory with what the block holds. An entry that is the ring's own lap's then joins the chain held; one that is not is read
again, and after the last reread makes the request BAD_ENTRY; a read that failed makes it MEMORY_ERROR or TRANSLATION_FAULT (R104, R105,
R109, R344, R469). -/
def Obligations.EntryReadsAct : Prop :=
  ∀ (f : FuncId) (r : Nat) (s : State), s.stop.stopped = false →
  (∀ x t bytes last obs, s.entryXfer f r = some (x, t) →
    let s1 := s.modXfer x (fun v => { v with purpose := .ringEntry f r last })
    (t.pieces.any (fun p => p.host) = true → exec (.entryReadDone f r ⟨bytes, obs⟩ last) s = .next (s1.hostReadDone x bytes).settle) ∧
    (t.pieces.any (fun p => p.host) = false → exec (.entryReadDone f r ⟨bytes, obs⟩ last) s = .next (s1.memReadDone x [obs]).settle)) ∧
  (∀ x t, s.xfers.find? (fun (q : Nat × Xfer) => q.2.readsEntry f r) = some (x, t) →
    exec (.entryReadFault f r .translation) s = .next (s.endXfer x .xlateFault).settle ∧
    (t.phase = .issued → t.pieces.any (fun p => p.host) = false →
      exec (.entryReadFault f r .memory) s = .next (s.memReadDone x [.uncorrectable]).settle) ∧
    (t.phase ≠ .issued ∨ t.pieces.any (fun p => p.host) = true →
      exec (.entryReadFault f r .memory) s = .next (s.endXfer x .memError).settle)) ∧
  (∀ g b last, s.ring f r = some g → g.wantsRead = true → s.fenced f = false →
    let held := g.held ++ [b]
    let bad := fun (x : XResult) (status : Nat) => s.onXfer (.ringEntry f r last) x =
      s.badRequest f r g g.nextRead [] [] (g.held.length + 1) status
    (entOwner b = true → entLap b = g.nextRead / g.n % 2 → s.onXfer (.ringEntry f r last) (.ok b) =
      ((s.modRing f r (fun v => { v with
        held := held, fetching := none, waitSince := if chainOf held = .complete then s.time else g.waitSince })).judgeHeld f r).refreshSet (dieOf f)) ∧
    (entOwner b = false ∨ entLap b ≠ g.nextRead / g.n % 2 → g.fetching.getD 0 < 4 → last = false → s.onXfer (.ringEntry f r last) (.ok b) =
      s.modRing f r (fun v => { v with fetching := some (g.fetching.getD 0 + 1) })) ∧
    (entOwner b = false ∨ entLap b ≠ g.nextRead / g.n % 2 → g.fetching.getD 0 ≥ 4 ∨ last = true → s.onXfer (.ringEntry f r last) (.ok b) =
      s.badRequest f r g g.started (held.headD []) (held.drop 1) (g.held.length + 1) stBadEntry) ∧
    bad .memError stMemoryError ∧ bad .xlateFault stTranslationFault ∧ bad .fenced stTranslationFault)

/-- Answers to a transfer: host bytes fill its pieces, module memory is read or written by the controllers' blocks in the order they were
reached, the answers crossing the fabric to the engine, and a transfer all of whose pieces are done ends (R21, R26, R342 to R345, R357,
R359, R470). -/
def Obligations.TransferAnswersAct : Prop :=
  ∀ (x : Nat) (t : Xfer) (s : State), s.runs = true → tget s.xfers x = some t → t.phase = .issued →
  (∀ bytes, t.write = false → t.pieces.any (fun p => p.host && !p.done) = true → (∀ slot page, t.purpose ≠ .mirrorEntry slot page) →
    exec (.dmaReadCompletion x bytes) s = .next ((((s.noteSource t).fabSend (.link t.link) (s.engineOf t) .drsp bytes.length).modXfer x
      (fun v => { v with pieces := fillRead v.pieces bytes })).checkXfer x).settle) ∧
  (∀ bytes slot page, t.write = false → t.pieces.any (fun p => p.host && !p.done) = true → t.purpose = .mirrorEntry slot page →
    exec (.dmaReadCompletion x bytes) s = .next
      ((s.fabSend (.link t.link) (s.engineOf t) .drsp bytes.length).mirrorRead x t slot page bytes).settle) ∧
  (∀ obs r, t.write = false → s.memBehind t = false → t.pieces.any (fun p => !p.host && !p.done) = true → tget s.regions t.region = some r →
    let d := (s.fabAnswer t).readPieces r t.pieces obs
    let s0 := if t.purpose.atomic then forEach (t.pieces.filter (fun p => !p.host && !p.done)) d.1 (fun st p => st.recode p.addr p.len obs) else d.1
    let s1 := s0.modXfer x (fun v => { v with pieces := d.2.1 })
    exec (.memReadResponse x obs) s = .next (if d.2.2 then s1.endXfer x .memError else s1.checkXfer x).settle) ∧
  (∀ obs r, t.write = true → s.memBehind t = false → t.pieces.any (fun p => !p.host && !p.done) = true → tget s.regions t.region = some r →
    let s0 := (s.fabAnswer t).writePieces r t.pieces obs
    let s1 := match t.purpose.writesFor with
      | some n => s.ownWrite s0 n
      | none => s0
    exec (.memWriteResponse x obs) s = .next ((s1.modXfer x (fun v => { v with
      pieces := v.pieces.map (fun p => if p.host then p else { p with done := true }) })).checkXfer x).settle)

/-- Flushes: a completed flush makes the writes it covers visible and lifts its fence; a failed probe only ends; the third failure in a
row fences the path (R71, R73). -/
def Obligations.FlushesAct : Prop :=
  ∀ (id : Nat) (fl : Flush) (s : State), s.runs = true → tget s.flushes id = some fl →
  let s1 : State := { s with flushes := tdel s.flushes id }
  exec (.flushComplete id) s = .next (forEach fl.covers
    ((s1.fabSend (.link fl.link) (.transport (dieOf fl.func)) .drsp 0).liftFence fl.func fl.link fl.viaRoot) (fun st x => st.hostVisible x)).settle ∧
  (fl.probe = true → exec (.flushFailed id) s = .next s1.settle) ∧
  (fl.probe = false → let p := s1.pathOf fl.func fl.link fl.viaRoot
    p.fails + 1 ≥ 3 →
    let s2 : State := { s1 with xfers := s1.xfers.map (fun (q : Nat × Xfer) =>
      if q.2.func == fl.func && q.2.link == fl.link && q.2.viaRoot == fl.viaRoot then (q.1, { q.2 with kept := [] }) else q) }
    exec (.flushFailed id) s = .next
      (((s2.setPath { p with fails := p.fails + 1 }).fault 2 1 (some fl.func) fl.link.val 0 0).fencePath fl.func fl.link fl.viaRoot).settle) ∧
  exec .probeFlushTimer s = .next (forEach (List.finRange 4) s (fun w l => w.probeLink l)).settle

/-- Translations and page requests: an answer is cached and the transfers that wait go on; a refused or late page request ends them with a
translation fault; an invalidation waits for the reads under the old translation; configuration space switches ATS and PRI (R32, R88 to
R90, R93). -/
def Obligations.TranslationEventsAct : Prop :=
  ∀ (s : State), s.runs = true →
  (∀ x q ans, tget s.xlates x = some q → q.paging = false → exec (.atsTranslationDone x ans) s = .next (s.xlateDone x ans).settle) ∧
  (∀ x q, tget s.xlates x = some q → q.paging = true →
    let key := (q.func, q.pasid, q.page)
    let failsOf := fun (st : State) => if q.peer then st.pageFails.erase key ++ [key] else st.pageFails
    let fails := fun (st : State) => ({ st with pageFails := failsOf st } : State)
    let ends := fun (st : State) => (forEach (s.waitersFor q) st (fun u y => u.endXfer y .xlateFault)).retryParked q.link
    let s0 : State := { s with xlates := tdel s.xlates x }
    let s1 := s0.fabSend (.link q.link) (.transport (dieOf q.func)) .crsp 16
    exec (.pageRequestResponse x .success) s = .next
      ((forEach (s.waitersFor q) s1 (fun st y => st.tryXfer y)).retryParked q.link).settle ∧
    exec (.pageRequestResponse x .responseFailure) s = .next
      (ends ((fails s1).modFunc q.func (fun v => { v with cfg := { v.cfg with priStopped := true } }))).settle ∧
    exec (.pageRequestResponse x .invalidRequest) s = .next (ends (fails s1)).settle ∧
    exec (.pageRequestTimeout x) s = .next (ends (fails s0)).settle) ∧
  (∀ l f pasid base len, linkOf f = l → (s.link l).up = true →
    exec (.invalidateRequest l f pasid base len) s = .next (s.invalidateAts l f pasid.toNat base.toNat len).settle) ∧
  (∀ id v, tget s.invals id = some v → exec (.invalidateReadTimeout id) s = .next
    (forEach v.reads { s with invals := tset s.invals id { v with reads := [] } } (fun st x => match tget st.xfers x with
      | none => st
      | some t =>
        let d := (st.dropXfer x).newId
        let st2 : State := { d.2 with xfers := tset d.2.xfers d.1 { t with phase := .parked, pieces := [] } }
        if v.destroy then st2.endXfer d.1 .gone else st2)).settle) ∧
  (∀ f, exec (.atsDisable f) s = .next ((s.configWrite (linkOf f)).disableAts f).settle) ∧
  (∀ f, exec (.atsEnableSet f) s = .next ((s.configWrite (linkOf f)).modFunc f (fun v => { v with cfg := { v.cfg with ats := true } }))) ∧
  (∀ f, exec (.priReenable f) s = .next ((s.configWrite (linkOf f)).modFunc f (fun v => { v with cfg := { v.cfg with priStopped := false } })))

/-- Sending: a READY connection of a function that may work sends its first retransmission or its next new packet; a port that is idle
starts the frame its scheduler picks, and a frame that has left is counted; shapers and class settings are refilled, gates move on (R168
to R171, R209, R210, R213, R217, R221, R222, R225, R249, R254). -/
def Obligations.SendingEventsAct : Prop :=
  ∀ (s : State), s.runs = true →
  (∀ n c c1, s.conn n = some c → s.fenced c.func = false → (s.func c.func).cfg.d3hot = false →
    (s.failUnroutable n true).conn n = some c1 → c1.state = .ready → c1.ctx = .cached → c1.tx.held = [] →
    let s1 := ((s.failUnroutable n true).rereadAll n).beginWork n
    (∀ r, c1.nextResend = some r → r.sacked = false → exec (.packetSend n) s = .next (s1.sendAgain n c1 r).settle) ∧
    (∀ r slot rest j, c1.tx.resend = [] → c1.tx.coll = [] → c1.tx.queue = (r, slot) :: rest → s1.job c1.func r slot = some j →
      s1.nextReady c1.func r c1 j = true → exec (.packetSend n) s = .next (s1.sendNew n c1 r slot j).settle)) ∧
  (∀ p k fr ms drr, let s1 := s.dropOversize p
    s1.runs = true → s1.portUp p = true → (s1.port p).paused = false → (s1.port p).sending = none → (s1.port p).suspended = none →
    (s1.pinHeads p (fun _ => true)).pickClass p (fun _ => true) = some (k, fr, ms, drr) →
    exec (.egressFrameStart p) s = .next ((s1.pinHeads p (fun _ => true)).startFrame p k fr ms drr).settle) ∧
  (∀ p q a b, (s.port p).sending = some (q, a, b) → q.badFcs = false → q.raw = none → exec (.txFrameEnd p) s = .next
    (((s.modPort p (fun v => { v with sending := none })).countPort p 2 1).countPort p 3 q.len).rawFlush.settle) ∧
  (let s1 : State := { s with funcs := s.funcs.map (fun q => (q.1, { q.2 with shapers := q.2.shapers.map (fun h => (h.1, h.2.refill)) })) }
   let s2 : State := { s1 with ports := s1.ports.map (fun q => (q.1, q.2.applyClasses)) }
   exec .shaperRefill s = .next
    ((forEach (List.finRange 32) s2 (fun st p => if thas st.ports p.val then st.refillMembers p else st)).rawFlush).settle) ∧
  (∀ p g, (s.port p).oper = some g → exec (.gateIntervalEnd p) s = .next
    (s.modPort p (fun v => { v with gateIdx := nextEntry g.entries.length g v.gateIdx, gateAt := s.ptp })).settle) ∧
  (∀ p g, (s.port p).pend = some g → exec (.gateListSwitch p) s = .next
    (s.modPort p (fun w => { w with oper := some g, pend := none, switchAt := 0, gateIdx := 0, gateAt := s.ptp })).settle)

/-- The timers of a READY connection: the oldest unacknowledged packet is acknowledged, or sent again with its path's window cut and the
timeout doubled, the path failing at PATH_FAIL of them, or ends the connection at RETRY_LIMIT; failed paths are probed; a refused packet
is sent again; a path leaves its old epoch (R138, R142, R177, R181, R184, R193, R371). -/
def Obligations.ConnectionTimersAct : Prop :=
  ∀ (s : State) (n : Nat) (c : Conn), s.runs = true → s.conn n = some c → c.state = .ready →
  (0 < c.rx.sinceAck → exec (.ackDelayExpiry n) s = .next (s.sendAck n 0x10 0 0 c.rx.echo).settle) ∧
  (∀ r, c.tx.records.find? (fun r => !r.sacked) = some r → r.tries + 1 > (s.ruleOf c r).1.retryLimit →
    exec (.rtoExpiry n) s = .next (s.connError n).settle) ∧
  (∀ r, c.tx.records.find? (fun r => !r.sacked) = some r → let x := s.ruleOf c r
    r.tries + 1 ≤ x.1.retryLimit →
    let again := c.tx.backoff.1 = r.psn ∧ c.tx.backoff.2 > 0
    let v := c.pathCc r.path
    let c1 := c.setPath r.path { v with timeouts := v.timeouts + 1, cwnd := if c.native then x.2.cwndMin * 256 else v.cwnd }
    let c2 : Conn := { c1 with
      stats := { c1.stats with timeouts := satAdd max32 c1.stats.timeouts 1 }
      tx := { c1.tx with
        backoff := (r.psn, if again then c.tx.backoff.2 + 1 else 1), rto := min (2 * c.tx.rto) (x.1.rtoMaxMs * 1000000) } }
    let s1 := (({ s with conns := tset s.conns n c2 } : State).lose n [r.psn]).rereadAll n
    exec (.rtoExpiry n) s = .next (if v.timeouts + 1 ≥ x.1.pathFail ∧ c.native = true then s1.pathFail n r.path else s1).settle) ∧
  (c.native = true → exec (.probeIntervalExpiry n) s = .next
    (forEach ((List.range c.npaths).filter (fun p => (c.pathCc p).failed)) s (fun st p =>
      ((st.modConn n (fun v =>
        let q := v.pathCc p
        v.setPath p { q with probing := true, probeOk := if q.probing then 0 else q.probeOk })).sendOn n c p st.relay.epoch (fun q =>
        .native (st.nativeFrame n c q p 0x20 (flagBit 6 st.relay.epoch) 0 0 st.time none none []))).1)).settle) ∧
  (c.tx.rnrPause = true → exec (.rnrRetryExpiry n) s = .next
    ((((s.traceRecord (dieOf c.func) c.func 0x07 n c.peer c.tx.rnrReason (s.time - c.tx.rnrAt)).modTx n
      (fun t => { t with rnrPause := false, refused := [] })).lose n (c.packetsOf c.tx.refused)).rereadAll n).settle) ∧
  (∀ p, (c.pathCc p).draining = true →
    let v := c.pathCc p
    let old := (c.tx.records.filter (fun r => r.path == p && r.epoch == v.epoch && !r.sacked)).map (fun r => r.psn)
    exec (.drainMaxExpiry n p) s = .next
      ((({ s with conns := tset s.conns n (c.setPath p { v with draining := false, epoch := s.relay.epoch }) } : State).lose n old).rereadAll n).settle) ∧
  (c.mode = .roce → c.tx.cnpSeen = true → exec (.rpTimerExpiry n) s = .next (s.modTx n (fun t => { t with cnpSeen := false })).settle) ∧
  (c.mode = .roce → c.tx.cnpSeen = false →
    let target := if c.tx.stage + 1 > c.cc.rpFastStages then min (c.tx.target + c.cc.rpRaiMbps) (s.portMbps (s.portNow n c 0)) else c.tx.target
    exec (.rpTimerExpiry n) s = .next (s.modTx n (fun v => { v with
      alpha := c.tx.alpha - c.tx.alpha / 2 ^ c.cc.gShift, stage := c.tx.stage + 1, target := target, rate := (c.tx.rate + target) / 2 })).settle) ∧
  (∀ obs, c.ctx = .fetching →
    let s1 := s.modConn n (fun v => { v with ctx := .cached, missed := [] })
    let d := s1.decodeBlock (s1.contextBlock n) obs
    let s2 := if d.2.1 then (d.1.fault 4 2 (some c.func) n 0 0).toError n else d.1
    let s3 := forEach c.missed s2 (fun st (w : LPort × NFrame) => st.rxTransport w.1 w.2 true)
    exec (.contextFetchDone n obs) s = .next
      (forEach c.missedRoce (s3.modConn n (fun k => if c.missedRoce.isEmpty then k else { k with missedRoce := [] }))
        (fun st (w : LPort × RFrame) => st.roceTransport w.1 w.2 true)).settle) ∧
  (exec (.contextWriteBackDone n) s = .next (s.modConn n (fun k => if k.ctx = .writingBack then { k with ctx := .backing } else k)).settle)

/-- A PCIe link: DL_Down is a retrain where LINK_RETAIN is set and a hot reset otherwise; DL_Active replays what was recorded and probes
the fenced paths; an expired window resets the link's functions; an idle link asks for L1 or narrows (R60, R73, R80 to R83, R421). -/
def Obligations.LinkEventsAct : Prop :=
  ∀ (s : State) (l : LinkId), s.runs = true → let k := s.link l
  let down := s.modLink l (fun v => { v with up := false, rate := 0, width := 0, l1 := false, l0p := false })
  (k.up = true → k.retain = false → exec (.linkDown l) s = .next (down.hotReset l).settle) ∧
  (k.up = true → k.retain = true → exec (.linkDown l) s = .next
    ((((down.loseLink l).modLink l (fun v => { v with downAt := some s.time, retrains := v.retrains + 1 })).fault 2 3 none l.val 0 0).signalLink l).settle) ∧
  (∀ rate width, k.up = false → k.downAt = none → exec (.linkUp l rate width) s = .next
    (((((s.modLink l (fun v => { v with up := true, rate := rate, width := width, downAt := none })).signalLink l).probeLink l).narrowLink l rate width)).settle) ∧
  (∀ rate width, k.up = false → k.downAt ≠ none → k.cfgTouched = true → let s2 := s.hotReset l
    (s2.link l).up = false → (s2.link l).downAt = none → exec (.linkUp l rate width) s = .next
      (((((s2.modLink l (fun v => { v with up := true, rate := rate, width := width, downAt := none })).signalLink l).probeLink l).narrowLink l
        rate width)).settle) ∧
  (∀ rate width, k.up = false → k.downAt ≠ none → k.cfgTouched = false →
    let s1 := (s.modLink l (fun v => { v with up := true, rate := rate, width := width, downAt := none })).signalLink l
    exec (.linkUp l rate width) s = .next
      (((forEach ((funcsOfLink l).filter (fun f => (s.func f).state != .disabled)) (s1.replayLink l)
        (fun st f => st.sendAllGroups f)).probeLink l).narrowLink l rate width).settle) ∧
  (k.replaying = true → s.replayRereads l = false → exec (.replayDone l) s = .next
    (((forEach ((s.flushes.filter (fun (q : Nat × Flush) => q.2.link == l && q.2.replay)).map Prod.fst) s
      (fun st id => st.flushDone id)).settle.modLink l (fun v => { v with replaying := false })).signalLink l).settle) ∧
  (k.downAt ≠ none → exec (.retrainWindowExpiry l) s = .next (s.hotReset l).settle) ∧
  (exec (.linkHotReset l) s = .next
    (forEach (funcsOfLink l)
      ((s.modLink l (fun v => { v with
        retrains := v.retrains - b2n v.downAt.isSome, downAt := none, replaying := false, cfgTouched := false })).dropInvalidates l)
      (fun st f => (st.silentJob f).resetFunc f)).settle) ∧
  (k.up = true → k.l1 = false → s.flushes.any (fun q => q.2.link == l) = false →
    exec (.l1IdleEntry l) s = .next ((s.emit (.l1Request l)).modLink l (fun v => { v with l1 := true })).settle) ∧
  (k.up = true → exec (.l0pNarrow l) s = .next (s.modLink l (fun v => { v with l0p := true })).settle)

/-- Functions: a reset of one, its configuration done, its time to attach over, its teardown over; virtual functions enabled and taken
away; D3hot stops messages and D0 lets them out again (R58, R79, R82, R374, R375, R382 to R384, R419). -/
def Obligations.FunctionEventsAct : Prop :=
  ∀ (s : State), s.runs = true →
  (∀ f, exec (.functionLevelReset f) s = .next ((s.silentJob f).resetFunc f).settle) ∧
  (∀ f, exec (.configResetDone f) s = .next (s.configDone f).settle) ∧
  (∀ f, (s.func f).state = .fenced → exec (.attachMsExpiry f) s = .next (s.startTeardown f).settle) ∧
  (∀ f, exec (.teardownDone f) s = .next (s.teardownDone f).settle) ∧
  (∀ l n, s.vfsAllowed = true → exec (.vfEnable l n) s = .next
    (forEach ((lrange 1 (min n 63)).map (vfOf l)) ((s.configWrite l).modLink l (fun v => { v with numVfs := min n 63 })) (fun st f =>
      if (st.func f).state == .disabled then st.modFunc f (fun v => { v with state := .unprovisioned }) else st)).settle) ∧
  (∀ l n, n < (s.link l).numVfs → exec (.vfDisable l n) s = .next
    (forEach ((lrange (n + 1) ((s.link l).numVfs - n)).map (vfOf l)) ((s.configWrite l).modLink l (fun v => { v with numVfs := n })) (fun st f =>
      match (st.func f).state with
      | .disabled => st
      | .destroying => st
      | .unprovisioned => (st.silentJob f).destroyFunc f
      | .active => (st.silentJob f).destroyFunc f
      | .fenced => (st.resetWhole f).destroyFunc f
      | .cleaning => (st.resetWhole f).destroyFunc f)).settle) ∧
  (∀ f, (s.func f).state ≠ .disabled → exec (.d3hotEntry f) s = .next
    ((s.configWrite (linkOf f)).modFunc f (fun v => { v with cfg := { v.cfg with d3hot := true } })).settle) ∧
  (∀ f, (s.func f).cfg.d3hot = true → exec (.d0Return f) s = .next
    (((s.configWrite (linkOf f)).modFunc f (fun v => { v with cfg := { v.cfg with d3hot := false } })).sendAllGroups f).settle)

/-- Lanes and ports of a powered module, stopped or not: the spare takes over a lane that fails while one is left (R231, R232), else the
lane is lost (R233); a port that loses its link is recorded and goes down; one that trains comes up (R190, R229 to R233). -/
def Obligations.LaneAndPortEventsAct : Prop :=
  ∀ (s : State), s.power.on = true →
  (∀ ph (lane : Fin 9), s.spareReady ph lane.val = true → (s.physPort ph).laneServes lane.val = true →
    exec (.laneSerExceeded ph lane) s = .next (s.beginSwap ph lane.val true).settle) ∧
  (∀ ph (lane : Fin 9), (s.physPort ph).dark = false →
    (s.spareReady ph lane.val = true ∧ (s.physPort ph).laneServes lane.val = true) ∨ (s.physPort ph).swap.any (fun w => w.1 == lane.val) = true →
    exec (.laneSignalLoss ph lane) s = .next (s.beginSwap ph lane.val false).settle) ∧
  (∀ ph (lane : Fin 9), (s.physPort ph).dark = false → s.spareReady ph lane.val = false ∨ (s.physPort ph).laneServes lane.val = false →
    (s.physPort ph).swap.any (fun w => w.1 == lane.val) = false →
    exec (.laneSignalLoss ph lane) s = .next (s.loseLane ph lane.val).settle) ∧
  (∀ ph, exec (.laneSwapDone ph) s = .next (s.swapDone ph).settle) ∧
  (∀ p, (s.port p).up = true → exec (.portLinkDown p) s = .next ((s.fault 7 1 none p.val 0 0).portDown p).settle) ∧
  (∀ p a b, (s.port p).up = false → exec (.portLinkUp p a b) s = .next
    ((s.modPort p (fun v => { v with peer7440 := a, reversed := b })).trainPort p).settle)

/-- Runs and tines: a run that is due starts and its inputs stream once the furrows are warm, which the governor grants in the order of
the requests and never below 54.0 V of the hold-up store; its schedule's end and its end let its outputs go, or hold them; a glean waits
for its region; a warm furrow idles cold; a failed tine takes its core's spare, or is lost (R321 to R334, R386 to R389, R443, R444). -/
def Obligations.RunAndTineEventsAct : Prop :=
  ∀ (s : State), s.runs = true →
  (∀ n feed p, s.prog n = some p → p.state = .ready → p.loading = false → p.unloading = false → p.current = none → s.runDue p = true →
    feed.all p.canMove = true →
    let s1 := (s.modProg n (fun q => { q with
      state := .running
      pending := if p.startKind = 0 then q.pending - 1 else q.pending
      threshold := if p.startKind = 1 then satAdd max64 q.threshold q.step else q.threshold
      frames := p.frameInputs.foldl (fun l b => takeFrame b.index l) q.frames
      spoil := q.spoil - 1
      run := add32 q.run 1
      glean := if q.glean.state = 1 ∧ q.glean.run = 0xFFFFFFFF then { q.glean with run := p.run } else q.glean
      current := some { Run.fresh p feed with late := s.slowed p } })).clearFlags p
    let s2 := s1.traceRecord ⟨(p.furrows.headD 0) / 20 % 2, by omega⟩ p.func 0x09 n (if p.startKind = 1 then p.startCounter else p.startInput)
      p.run (s.time - p.waitSince)
    exec (.runStart n feed) s = .next (if p.furrows.all (fun f => s.tines.warm.contains f) then s2.streamInputs n
      else { s2 with tines := { s2.tines with ramps := s2.tines.ramps ++ [n] } }).settle) ∧
  (∀ n p r, s.prog n = some p → p.current = some r → p.deterministic = true → r.scheduleEnded = false → r.phase = .waiting →
    exec (.runScheduleEnd n) s = .next ((s.modRun n (fun q => { q with scheduleEnded := true })).writeOutputs n).settle) ∧
  (∀ n ops outs added cycles p r, s.prog n = some p → p.current = some r → r.phase = .computing →
    ops.all p.can = true → outs.all p.canMove = true →
    let d := s.tineOps n p r ops
    let s1 := forEach (ops.takeWhile TineOp.goesOn) d.1 (fun st o => st.noteStore o)
    let s2 : State := ({ s1 with free := s1.free + 1 } : State).modRun n (fun q => { q with cycles := cycles })
    let late := p.deterministic && decide (cycles > p.schedule)
    let done := fun (ph : RunPhase) => s2.modRun n (fun q => { q with
      outputs := (d.1.endBarriers p).gatherOutputs p outs, added := added, flags := d.1.runFlags p, phase := ph
      cycles := if p.deterministic then max cycles p.schedule else cycles
      late := q.late || late || s.slowed p })
    (∀ l w, d.2 = some (l, w) → exec (.runEnd n ops outs added cycles) s = .next ((s2.abortRun n stRunAborted w false).storeFailed l).settle) ∧
    (d.2 = none → p.deterministic = false ∨ r.scheduleEnded = true ∨ cycles > p.schedule →
      exec (.runEnd n ops outs added cycles) s = .next ((done .computing).writeOutputs n).settle) ∧
    (d.2 = none → p.deterministic = true → r.scheduleEnded = false → cycles ≤ p.schedule →
      exec (.runEnd n ops outs added cycles) s = .next (done .waiting).settle)) ∧
  (∀ n (step : Word32) data p r, s.prog n = some p → p.current = some r → r.phase = .computing → p.glean.state = 1 → p.glean.run = r.num →
    p.glean.step = step.toNat → let s1 := s.modRun n (fun q => { q with phase := .gleaning })
    (s1.accessOk p.func p.glean.key accLocalWrite p.glean.offset p.glean.bytes).isSome = true →
    exec (.gleanStepReached n step data) s = .next
      (s1.startWrite p.func p.glean.key p.glean.offset (fit p.glean.bytes data) (.glean n)).settle) ∧
  (∀ n p r, s.prog n = some p → p.current = some r → r.phase = .ramping → s.tines.ramps.head? = some n →
    s.power.reading.storeMv ≥ 54000 → exec (.rampGranted n) s = .next
      ((({ s with tines := { s.tines with ramps := lerase s.tines.ramps n } } : State).warm p.furrows).streamInputs n).settle) ∧
  (∀ fur, s.mayCool fur.val = true → exec (.warmHoldExpiry fur) s = .next
    ({ s with tines := { s.tines with warm := lerase s.tines.warm fur.val, ranAt := tdel s.tines.ranAt fur.val } } : State).settle) ∧
  (∀ (fur : FurrowId) (core tine : Fin 16), thas s.tines.drawn (fur.val * 16 + core.val) = true →
    exec (.tineFault fur core tine) s = .next (s.loseTine fur.val core.val tine.val).settle) ∧
  (∀ (fur : FurrowId) (core tine : Fin 16), thas s.tines.drawn (fur.val * 16 + core.val) = false →
    (lastDay s.uptime (tgetD s.tines.storeErrors (tineNo fur.val core.val tine.val) [])).length ≥ 64 →
    exec (.tineThresholdDraw fur core tine) s = .next (s.drawSpare fur.val core.val tine.val).settle) ∧
  (∀ f n b, (s.func f).mbx.long = some (.drillUnload n, b) → s.progD n (fun p => p.current.isSome) = true →
    exec (.unloadRunTimeout f) s = .next (s.abortRun n stRunAborted false true).settle) ∧
  (∀ n p r, s.prog n = some p → p.current = some r → r.unjudged = true → r.phase ≠ .reserving → r.phase ≠ .verdict →
    exec (.drillFrameVerdict n true) s = .next (s.modRun n (fun q => { q with verdict := some true })).settle)

/-- Memory upkeep and fault reports: the patrol scrub decodes the next block and moves on, a rehash ends, an interval's hot pages join the
list, and a function's faults are summed up in a record of kind 0x0008 (R97, R344, R346, R347, R392, R440). -/
def Obligations.UpkeepEventsAct : Prop :=
  ∀ (s : State),
  (∀ tilth obs, s.runs = true → s.fallow = false →
    let s1 := (s.decodeBlock (s.mem.scrubAt tilth).1 obs).1
    exec (.patrolScrub tilth obs) s = .next ({ s1 with mem := s1.mem.scrubNext tilth s.time } : State).settle) ∧
  (∀ stack : Fin 4, s.runs = true → exec (.rehashDone stack) s = .next
    ({ s with mem := { s.mem with rehashing := lerase s.mem.rehashing stack.val } } : State).settle) ∧
  (∀ f, s.runs = true → exec (.hotIntervalEnd f) s = .next
    (let v := s.func f
     let mine := s.regions.filter (fun (q : Nat × Region) => q.2.func == f && q.2.grants accCount)
     let hot := mine.flatMap (fun q => (q.2.hotPages v.hotThreshold).map (fun o => HotEntry.mk (regionKey q.1 q.2.gen) o))
     let regions := s.regions.map (fun (q : Nat × Region) => if q.2.func == f then (q.1, { q.2 with counters := [] }) else q)
     let s1 := ({ s with regions := regions } : State).modFunc f (fun w => { w with
       hotList := w.hotList ++ hot.take (1024 - v.hotList.length)
       hotOverflow := satAdd max32 w.hotOverflow (hot.length - (1024 - v.hotList.length)) })
     if v.hotList.isEmpty && !hot.isEmpty then s1.signalBound f v.hotSource else s1).settle) ∧
  (∀ f, let v := s.func f
    s.serving = true → v.state ≠ .disabled → v.faultCounts ≠ [] → v.faultPostedAt = none →
    exec (.faultSummaryPost f) s = .next
      ((s.modFunc f (fun w => { w with faultCounts := [], faultFirst := none, faultPostedAt := some s.time })).post f 0x0008 0
        ((lrange 1 8).flatMap (fun k => leBytes 4 (tgetD v.faultCounts k 0)) ++ leBytes 4 (v.faultFirst.getD 0) ++ zeros 12)))

/-- Firmware and the global stop: a watchdog or fault restarts firmware, which advances RESTART_GEN, answers BUSY to commands that had not
committed and tells every function; FREEZE# stops the module and lets it run on; the stop reference latches every domain (R57, R412, R414,
R439, R445 to R447, R459). -/
def Obligations.FirmwareAndStopEventsAct : Prop :=
  ∀ (s : State), s.power.on = true →
  (s.serving = true → exec .fwWatchdogExpiry s = .next (s.beginRestart 2 s.image).settle) ∧
  (s.serving = true → exec .fwFault s = .next (s.beginRestart 3 s.image).settle) ∧
  (∀ cause start image, s.restart = some (cause, start, image) →
    let s1 : State := { s with
      fw := if s.safeHeld then .safeMode else .running, restartGen := s.restartGen + 1, image := image, restart := none }
    let s2 := forEach allFuncs s1 (fun st f => st.restartAnswer f)
    exec .fwRestartDone s = .next (forEach s2.liveFuncs s2 (fun st f => st.post f 0x0003 0 (s2.restartRecord cause start))).settle) ∧
  (s.power.served = true → exec .freezeAssert s = .next
    ((({ s with power := { s.power with freezeLow := true } } : State).globalStop true).settle)) ∧
  (s.stop.stopped = true → s.stop.byPin = true → exec .freezeRelease s = .next
    ({ s with power := { s.power with freezeLow := false } } : State).resume) ∧
  (exec .stopRefLatch s = .next { s with stop := { s.stop with
    refTime := s.time, refCounts := (List.range 236).map s.domainCount } })

/-- Power: a module with its input starts and boots; a reset that is due, or MRST#, starts it anew; lost power flushes the records and
keeps only what MRAM holds; samples move the governor and the throttling; an overcurrent shuts the module down with its cause (R399 to
R406, R412, R413, R450 to R458). -/
def Obligations.PowerEventsAct : Prop :=
  ∀ (s : State),
  (∀ boots, s.power.good = false → s.power.flushing = false → s.power.latched = false →
    exec (.powerOn boots) s = .next
      (({ s.cold false with power := { (s.cold false).power with input := true, good := true } } : State).boot boots)) ∧
  (∀ boots, s.power.good = true → s.power.flushing = false → s.power.latched = false →
    (s.resetAt ≠ none → exec (.moduleResetStart boots) s = .next ((s.cold true).boot boots)) ∧
    exec (.mrstAssert boots) s = .next ((s.cold true).boot boots)) ∧
  (s.power.good = true → s.power.latched = false → s.power.flushing = false → exec .powerLoss s = .next (s.powerDown 1 false)) ∧
  (s.power.flushing = true → exec .powerLossFlushDone s = .next
    { s with power := { s.power with flushing := false, shutdown := false, reading := { s.power.reading with storeMv := 0 } } }) ∧
  (∀ mj, s.power.on = true → exec (.holdupMeasure mj) s = .next (s.holdupMeasured mj).settle) ∧
  (∀ r, s.power.on = true → exec (.powerSample r) s = .next (s.powerSample r)) ∧
  (∀ t, s.power.on = true → tempsShut t = false → exec (.thermalSample t) s = .next
    (forEach (List.range 40) { s with power := { s.power with
      temps := t, hotStacks := (List.range 4).filter (fun k => decide (t.hbm.getD k 0 ≥ 85))
      opticsHot := t.optics.any (fun v => decide (v ≥ 70)) } }
      (fun st f => match t.furrows[f]? with | some v => st.throttle f v | none => st))) ∧
  (∀ ma, s.power.input = true → s.power.flushing = false → s.power.latched = false → ma > 40000 →
    exec (.overcurrent ma false) s = .next
      (s.powerDown (4 ||| (if tempsShut s.power.temps then 2 else 0) ||| (if s.overLong then 8 else 0)) true)) ∧
  (∀ mv, s.power.input = false → exec (.inputInsertion mv) s = .next
    { s with power := { s.power with
      input := decide (mv > 44000), reading := { s.power.reading with millivolts := mv, storeMv := 54000 } } })

/-- Time inputs: a PPS_IN edge stamps PTP time, PPS_OUT rises on the second, the reference locks and is lost (R459 to R461). The
management bus answers a read with the command's bytes, little-endian, while the input is present and no flush runs; no write is
acknowledged (R462). -/
def Obligations.TimeAndManagementBusEventsAct : Prop :=
  ∀ (s : State),
  (s.power.on = true →
    ((∀ t, s.ppsInAt = some t → s.time - t ≥ 100000000) → exec .ppsInEdge s = .next { s with ppsIn := s.ptp, ppsInAt := some s.time }) ∧
    ((∀ t, s.ppsOutAt = some t → s.time - t ≥ 500000000) →
      exec .ppsOutSecond s = .next { s.emit (.ppsOut s.ptp) with ppsOutAt := some s.time }) ∧
    exec .refLock s = .next { s with power := { s.power with refLocked := true } } ∧
    exec .refLost s = .next { s with power := { s.power with refLocked := false } }) ∧
  (s.power.input = true → s.power.flushing = false →
    let gives := fun (i : Instr) (b : Bytes) => exec i s = .next (s.emit (.smbus b))
    gives .smbusId (leBytes 2 0x7440 ++ leBytes 1 0xB1) ∧
    gives .smbusStatus (leBytes 2 (b2n (s.fw == .safeMode) + 2 * b2n s.degraded + 4 * b2n s.fallow + 8 * b2n s.power.throttling +
      16 * b2n s.powerLimit + 32 * b2n s.power.refLocked + 64 * b2n (s.power.good && s.fw == .booting))) ∧
    (∀ r, s.mram.bootLog.getLast? = some r → exec .smbusBoot s = .next
      { s.emit (.smbus (leBytes 1 r.step ++ leBytes 1 r.unit ++ leBytes 1 r.method ++ leBytes 1 r.result)) with free := s.free + 1 }) ∧
    gives .smbusVin (leBytes 2 s.power.reading.millivolts) ∧
    gives .smbusIin (leBytes 2 s.power.reading.milliamps) ∧
    gives .smbusPin (leBytes 2 (s.power.pins.sum / max 1 s.power.pins.length)) ∧
    gives .smbusTemp (degByte (hottest s.power.temps.furrows) ++ degByte (hottest s.power.temps.hbm) ++
      degByte (hottest s.power.temps.optics) ++ degByte s.power.temps.other) ∧
    gives .smbusHoldup (leBytes 2 s.power.holdupMj) ∧
    gives .smbusShutdownCause [s.mram.shutdownCause] ∧
    (∀ code data, exec (.smbusWrite code data) s = .next (s.emit .smbusNak)))

/-- Acknowledgements, NAKs and probes: a report that reaches a READY native connection is taken (R172); a NAK refuses its packet or its
sequence (R175, R184, R185); NAK_CLOSED ends the connection (R182); a PROBE is answered with its own stamp, a PROBE_REPLY restores its
path (R193). -/
def Obligations.ReportsAct : Prop :=
  ∀ (s s2 : State) (p : LPort) (fr : NFrame) (m : Bool) (n : Nat) (c : Conn),
  s.HandsOn p fr s2 m → s2.Reaches fr n c →
  let f1 := fr.marked m
  let st := s2.touchConn n
  (fr.type = 0x10 → exec (.rxAck p fr) s = .next (st.takeAck n (ackInfo f1)).settle) ∧
  (fr.type = 0x11 → exec (.rxNakRnr p fr) s = .next (
    let s3 := (st.takeAck n (ackInfo f1)).onNakRnr n f1.nakPsn f1.reason
    if f1.reason = 4 then s3.edgeLost n 1 else s3).settle) ∧
  (fr.type = 0x12 → exec (.rxNakAccess p fr) s = .next (st.takeAck n (ackInfo f1)).settle) ∧
  (fr.type = 0x13 → exec (.rxNakSeq p fr) s = .next ((st.takeAck n (ackInfo f1)).resendFrom n f1.psn.toNat).settle) ∧
  (fr.type = 0x14 → exec (.rxNakClosed p fr) s = .next (st.connError n).settle) ∧
  (fr.type = 0x20 → exec (.rxProbe p fr) s = .next (st.sendOn n c f1.path st.relay.epoch (fun q =>
    .native (st.nativeFrame n c q f1.path 0x21 (flagBit 6 st.relay.epoch) 0 0 f1.offset.toNat none none []))).1.settle) ∧
  (fr.type = 0x21 → exec (.rxProbeReply p fr) s = .next (st.probeReply n f1.path).settle)

/-- Packets with data, requests and responses of a READY native connection whose function may work: opened with the connection's key, a
response goes to the request that awaits it, everything else through the sequence check (R151, R174, R183, R198, R280). -/
def Obligations.NativePacketsAct : Prop :=
  ∀ (s s2 : State) (p : LPort) (fr f1 : NFrame) (m nx : Bool) (n : Nat) (c v : Conn),
  s.HandsOn p fr s2 m → s2.Reaches fr n c → s2.fenced c.func = false → (s2.func c.func).cfg.d3hot = false →
  (fr.type.toNat ≥ 0x40 → c.edge.isSome = true) →
  s2.openFrame c (fr.marked m) = (f1, true, nx) → (((s2.touchConn n).noteKeyPhase n (fr.marked m) nx).dropOldRx n).conn n = some v →
  let st := ((s2.touchConn n).noteKeyPhase n (fr.marked m) nx).dropOldRx n
  let cls := (s2.port p).classOf (fr.marked m).ip.dscp.toNat
  let takes := fun (ty : Byte) (i : Instr) => fr.type = ty → exec i s = .next (st.sequence n v p cls f1 true).settle
  takes 0x01 (.rxWrite p fr) ∧ takes 0x02 (.rxWriteFlag p fr) ∧ takes 0x03 (.rxSend p fr) ∧ takes 0x04 (.rxReadReq p fr) ∧
  takes 0x06 (.rxAtomicReq p fr) ∧ takes 0x40 (.rxCollUp p fr) ∧ takes 0x41 (.rxCollDown p fr) ∧ takes 0x42 (.rxCollReport p fr) ∧
  takes 0x43 (.rxCollSeal p fr) ∧ takes 0x44 (.rxCollRepair p fr) ∧ takes 0x45 (.rxCollGrant p fr) ∧
  (fr.type = 0x05 → exec (.rxReadResp p fr) s = .next
    (st.response n v p cls fr.l2.length fr.psn.toNat false f1.payload).settle) ∧
  (fr.type = 0x07 → exec (.rxAtomicResp p fr) s = .next
    (st.response n v p cls fr.l2.length fr.psn.toNat true f1.payload).settle)

/-- RoCE v2: a packet of a READY RC queue pair is sequenced, a reply taken, and one marked CE answered with a CNP (R196, R211); a request
to a function that may not work is refused with reason 4 (R184, R419); a CNP cuts the rate by alpha and restarts its recovery (R212). -/
def Obligations.RocePacketsAct : Prop :=
  ∀ (s s2 : State) (p : LPort) (fr f1 : RFrame) (c : Conn), s.HandsOnRoce p fr f1 s2 → s2.conn fr.dqp.toNat = some c → c.mode = .roce →
  c.ctx = .cached → c.state = .ready → fr.pkey = c.pkey → c.sourceOk fr.ip.src = true →
  let n := fr.dqp.toNat
  let cls := (s2.port p).classOf fr.ip.dscp.toNat
  (fr.op ≠ .cnp → s2.fenced c.func = false → (s2.func c.func).cfg.d3hot = false →
    let st := if f1.ip.ecn = 3 then (s2.touchConn n).sendCnp n else s2.touchConn n
    (roceRequest fr.op = true → exec (.rxRocePacket p fr) s = .next (st.roceSequence n c p cls f1).settle) ∧
    (roceRequest fr.op = false → exec (.rxRocePacket p fr) s = .next (st.roceReply n c p cls f1).settle)) ∧
  (fr.op ≠ .cnp → s2.fenced c.func = true ∨ (s2.func c.func).cfg.d3hot = true →
    let st := if f1.ip.ecn = 3 then s2.sendCnp n else s2
    (roceRequest fr.op = true → exec (.rxRocePacket p fr) s = .next (st.nakRnr n 4 fr.psn.toNat (roceEcho fr.psn.toNat)).settle) ∧
    (roceRequest fr.op = false → exec (.rxRocePacket p fr) s = .next ((st.touchConn n).roceReply n c p cls f1).settle)) ∧
  (fr.op = .cnp → exec (.rxCnp p fr) s = .next (s2.modConn n (fun k => { k with tx := { k.tx with
    target := k.tx.rate
    rate := max (k.tx.rate * (131072 - k.tx.alpha) / 131072) k.cc.rpMinMbps
    alpha := k.tx.alpha - k.tx.alpha / 2 ^ k.cc.gShift + 65536 / 2 ^ k.cc.gShift
    stage := 0
    cnpSeen := true } })).settle)

/-- Frames a port disposes of itself, once it has parsed their tags (R244): runts and frames that nothing takes are counted and dropped
(R235, R238); one for a raw queue goes into its oldest RECV (R247, R248), one for a program waits for its next run (R328). -/
def Obligations.PortFramesAct : Prop :=
  ∀ (s s1 : State) (p : LPort) (fr f : EFrame), s.runs = true →
  let w := (s.port p).sees fr
  (s.portUp p = true → fr.l2.length ≤ 63 → exec (.rxFrameDiscard p fr) s = .next
    (((((s.countPort p 0 1).countPort p 1 fr.l2.length).countPort p 10 fr.l2.corrected).countPort p 11 fr.l2.uncorrectable).countPort p 5 1).settle) ∧
  (s.rxOther p w = (s1, some (true, f)) → s.dispatch p w = .daDrop → exec (.rxFrameDiscard p fr) s = .next (s1.countPort p 12 1).settle) ∧
  (s.rxOther p w = (s1, some (true, f)) → s.dispatch p w = .noMatch → exec (.rxFrameDiscard p fr) s = .next (s1.countPort p 13 1).settle) ∧
  (∀ q k g rq r v j, s.rxOther p w = (s1, some (true, f)) → s.dispatch p w = .raw q k g →
    tget (s1.port p).rawqs q = some rq → rq.recv = some r → s1.ring rq.func r = some v →
    v.jobs.find? (fun j => j.phase == .posted && entOp j.ent == 0x13) = some j →
    let b := s1.rawBytes p f k g
    b.length ≤ netLen j.ent → s1.fenced rq.func = false → s1.rawRoom (dieOf rq.func) b.length = true →
    let s2 := s1.modJob rq.func r j.slot (fun w => { w with phase := .writing })
    (s2.accessOk rq.func (netKey j.ent) accLocalWrite (netOff j.ent) b.length).isSome = true →
    exec (.rxRawFrame p fr) s = .next
      (((s2.rxKeep p (.raw rq.func r j.slot) (s.rxClass p fr) f.l2.length).rxCross p (dieOf rq.func) f.l2.length).startWrite rq.func (netKey j.ent)
        (netOff j.ent) b (.rawRecv rq.func r j.slot)).settle) ∧
  (∀ n good q b, s.rxOther p w = (s1, some (good, f)) → s.dispatch p w = .drill n → s1.prog n = some q →
    q.inputOn p = some b → q.loading = false → q.unloading = false →
    bits b.b 15 0 + bits b.b 31 16 ≤ f.bytes.length + 4 →
    let starts := q.startKind == 2 && b.index == q.startInput
    q.frames.countP (fun e => e.1 == b.index) < bits b.b 39 32 + b2n (starts && q.current.isNone && q.state == .ready) →
    exec (.rxDrillFrame p fr) s = .next (((s1.rxKeep p (.drill n b.index) (s.rxClass p fr) f.l2.length).fabSend (.portMac (physOf p))
      (.furrow (q.furrows.headD 0)) .dreq f.l2.length).modProg n (fun v => { v with
        frames := v.frames ++ [(b.index, f)]
        waitSince := if starts && v.current.isNone && (v.frameOf b.index).isNone then s1.time else v.waitSince })).settle)

/-- The relay: a frame for another node leaves on the port its epoch's table gives, one hop fewer (R28, R364 to R366); UNREACH holds its
port out of the entry it names until the hold expires (R368); an idle flow's entry lapses (R367). -/
def Obligations.RelayEventsAct : Prop :=
  ∀ (s s1 s2 : State) (p : LPort) (fr : NFrame), s.runs = true → s.portUp p = true →
  (s.port p).knowsTags fr.l2 = true →
  (∀ m s3 q, s.addressed p fr.l2.da = true → s.forMe fr = false → fr.type ≠ 0x22 →
    fr.udpDst = s.nativePort → s.rxLink p fr.l2 (s.ipClass p fr.ip) = (s1, some true) →
    fr.version = 1 → 78 ≤ fr.l2.length → fr.l2.length = fr.wireLen → s1.police p fr.l2 fr.ip fr.ipLen none = (s2, true, m) →
    bit s2.relay.ports.toNat p.val = true → fr.hopLimit ≠ 0 →
    s2.routeFlow (dieOfPort p) fr.node (fr.dstConn.toNat % 2 ^ 24) fr.path (frameEpoch fr)
      (fr.marked m).ip.dscp.toNat = (s3, some q) →
    let len := min fr.l2.length (s3.port p).maxFrame
    max 64 fr.ipLen ≤ (s3.port q).maxFrame → s3.canEnqueue q ((s3.port q).classOf (fr.marked m).ip.dscp.toNat) = true →
    s3.rawRoom (dieOfPort p) len = true →
    let f1 := fr.marked m
    let f2 : NFrame := { f1 with
      hopLimit := f1.hopLimit - 1, l2 := { f1.l2 with da := Config.nextMac q.val f1.ip.dst, sa := (s3.port q).mac, length := len } }
    exec (.relayFrame p fr) s = .next
      (((s3.enqueueFrom (.portMac (physOf p)) q ((s3.port q).classOf f1.ip.dscp.toNat) ⟨.native f2, len, none, none, false, false⟩).modRelay
        (fun r => { r with relayed := satAdd max64 r.relayed 1 })).countGlobal 4 (4 * (dieOfPort p).val + 3) 1).settle) ∧
  (∀ m q, s.addressed p fr.l2.da = true → fr.type = 0x22 → fr.udpDst = s.nativePort → 78 ≤ fr.l2.length → s.rxLink p fr.l2 (s.ipClass p fr.ip) = (s1, some true) → fr.version = 1 →
    s1.police p fr.l2 fr.ip fr.ipLen none = (s2, true, m) → fr.l2.length = fr.wireLen →
    s2.relay.lookup (frameEpoch fr) fr.node = some q → s2.relay.heldOut.contains (frameEpoch fr, q.1, p.val) = false →
    exec (.rxUnreach p fr) s = .next
      ((s2.modRelay (fun r => { r with heldOut := r.heldOut ++ [(frameEpoch fr, q.1, p.val)] })).failUnroutableAll).settle) ∧
  (∀ epoch index, exec (.unreachHoldExpiry epoch index p) s = .next
    (s.modRelay (fun r => { r with heldOut := r.heldOut.filter (fun w => w != (epoch, index, p.val)) })).settle) ∧
  (∀ die node conn path,
    s.livePorts.any (fun p => (s.port p).classes.any (fun (c : Nat × ClassCfg) => c.2.queue.any (fun q => q.ofFlow node conn path))) = false →
    exec (.flowIdleExpiry die node conn path) s = .next
      (s.modRelay (fun r => { r with
        flows := r.flows.filter (fun w => !(w.die == die && w.node == node && w.conn == conn && w.path == path)) })).settle)

/-- Pauses and preemption of a port that is up, stopped or not: a pause frame stops the port or its classes until its quanta end; XOFF is
repeated while the buffer is full; verify frames are answered, sent at most three times, and counted as failed after that (R239, R242,
R243, R445). -/
def Obligations.PortControlActs : Prop :=
  ∀ (s : State) (p : LPort), s.power.on = true → s.portUp p = true →
  (∀ q, (s.port p).flow = 1 →
    exec (.rxPause p q) s = .next ((s.countPort p 16 1).modPort p (fun v => { v with paused := q != 0 }))) ∧
  (∀ en (qs : List (BitVec 16)), (s.port p).flow = 2 → exec (.rxPfc p en qs) s = .next ((s.countPort p 18 1).modPort p (fun v =>
    ((List.range 8).filter (fun k => bit en.toNat k)).foldl
      (fun (w : PortSt) k => w.modCls k (fun c => { c with pfcPaused := qs.getD k 0 != 0 })) v))) ∧
  exec (.pauseQuantaExpiry p none) s = .next (s.modPort p (fun v => { v with paused := false })) ∧
  (∀ k : ClassId, exec (.pauseQuantaExpiry p (some k)) s = .next
    (s.modPort p (fun v => v.modCls k.val (fun c => { c with pfcPaused := false })))) ∧
  (∀ k : ClassId, s.stop.stopped = false → (s.port p).pfcOn k.val = true → ((s.port p).cls k.val).xoffSent = true →
    ((s.port p).cls k.val).rxBytes > (s.port p).xon → exec (.pfcXoffRefresh p k) s = .next
      (((s.emit (.pfc p k (s.port p).pfcQuanta)).countPort p 19 1).modPort p (fun w => w.modCls k.val (fun c => { c with xoffSent := true })))) ∧
  (∀ k : ClassId, s.stop.stopped = true → (s.port p).flow = 1 →
    exec (.pfcXoffRefresh p k) s = .next ((s.emit (.pause p 0xFFFF)).countPort p 17 1)) ∧
  exec (.rxPreemptVerify p false) s = .next (s.emit (.respond p)) ∧
  ((s.port p).preempt = true → 1 ≤ (s.port p).verifySent → (s.port p).verifySent ≤ 3 →
    exec (.rxPreemptVerify p true) s = .next (s.modPort p (fun v => { v with preemptActive := true }))) ∧
  ((s.port p).preempt = true → (s.port p).preemptActive = false → 1 ≤ (s.port p).verifySent → (s.port p).verifySent ≤ 2 →
    exec (.preemptVerifyTimeout p) s = .next ((s.emit (.verify p)).modPort p (fun w => { w with verifySent := w.verifySent + 1 }))) ∧
  ((s.port p).preempt = true → (s.port p).preemptActive = false → (s.port p).verifySent = 3 →
    exec (.preemptVerifyTimeout p) s = .next ((s.countPort p 22 1).modPort p (fun w => { w with verifySent := 4 })))

/-! ### The machine as a whole -/

/-- A step takes the command at the front of the queue and is its meaning on the rest; on an empty queue time passes (log entry 1). -/
def Obligations.StepTakesTheFrontCommand : Prop :=
  (∀ (c : Instr) (s : State), step { s with pending := c :: s.pending } = exec c s) ∧
  (∀ (c : Instr) (rest : List Instr) (s : State), s.pending = c :: rest → step s = exec c { s with pending := rest }) ∧
  (∀ s : State, s.pending = [] → step s = .next s.tick)

/-- At reset no command waits, no region, connection, transfer or program is left, module memory is in its canonical form, and every
function's mailboxes, window, event controller, MSI-X table and counters hold the reset values the manual gives. That memory reads zero is
the model's reading of R417 (log entry 42). -/
def Obligations.ResetHoldsTheManualsValues : Prop :=
  let z := State.reset
  z.pending = [] ∧ Memory.wf z.mem.bytes = true ∧ (∀ a, mget z.mem.bytes a = 0) ∧ z.regions = [] ∧ z.conns = [] ∧ z.xfers = [] ∧ z.progs = [] ∧
  z.manager = 0 ∧ z.nativePort = 50722 ∧ z.stop.stopped = false ∧
  ∀ f : FuncId, let v := z.func f
    v.mbx.state = .idle ∧ v.mbx.result = 0 ∧ v.mbx.token = 0 ∧ v.mbx.evtProd = 0 ∧ v.mbx.evtCons = 0 ∧ v.mbx.lost = 0 ∧
    v.mbx.evtEn = false ∧ v.mbx.doneEn = false ∧
    v.win.base = 0 ∧ v.win.enable = false ∧ v.win.writeEn = false ∧ v.win.fault = false ∧
    v.evc.pending = [] ∧ v.evc.active = [] ∧ v.evc.threshold = 0 ∧ v.evc.msgEn = false ∧ (∀ src, tgetD v.evc.route src 0 = 0) ∧
    v.msix.enable = false ∧ v.msix.fmask = false ∧ v.msix.pba = [] ∧ (∀ n, (v.msix.entry n).masked = true) ∧
    (∀ c ∈ v.cnt.live, c = 0) ∧ v.cnt.snap = false

/-- Whatever a command does, the queue of waiting commands is left as it was, module memory keeps its canonical form, MIN_VERSION never
falls, a destroyed seed stays destroyed and a DECOMMISSIONED module stays so (R422, R425, R427); so does every step, which takes one
command from the queue. -/
def Obligations.EveryStepKeepsThePledge : Prop :=
  (∀ (c : Instr) (s t : State), Memory.wf s.mem.bytes = true → exec c s = .next t → t.Keeps s.pledge) ∧
  (∀ s t : State, Memory.wf s.mem.bytes = true → step s = .next t → t.Keeps { s.pledge with queue := s.pending.tail })

/-- No run ever stops: from every state, whatever commands wait, every step has a next state. -/
def Obligations.NoRunEverStops : Prop := ∀ s : State, s.NeverStops

/-- A mailbox command that is not there to take is left alone; one that fails a check, or only asks for its checks, changes nothing beside
its own function's mailbox and what reports it, and is answered: with the RESULT of the first check that fails, or with OK (R42, R45). -/
def Obligations.CommandsNotAcceptedChangeNothing : Prop :=
  ∀ (i : Instr) (q : Request) (s : State), mailRequest i = some q →
  (q.due s = false → exec i s = .next s.settle) ∧
  (q.due s = true → ∀ k, firstFailing (q.checks s) = some k → ∃ t, exec i s = .next t.settle ∧ s.Beside q.f t ∧
    (t.func q.f).mbx.state = .done ∧ (t.func q.f).mbx.result = BitVec.ofNat 8 k.code) ∧
  (q.due s = true → firstFailing (q.checks s) = none → (s.cmd q.f).checkOnly = true → ∃ t, exec i s = .next t.settle ∧ s.Beside q.f t ∧
    (t.func q.f).mbx.state = .done ∧ (t.func q.f).mbx.result = 0)

/-- R54: in safe mode every opcode outside the ranges 0x00xx, 0x0Bxx and 0x0Cxx is answered BAD_STATE, once the checks of a lower order
pass; safe mode forbids none inside them while step 3 of the boot is not the cause and the life cycle forbids none. -/
def Obligations.SafeModeAnswersBadState : Prop :=
  ∀ (i : Instr) (q : Request) (s : State), mailRequest i = some q → s.fw = .safeMode →
  (q.op / 256 ≠ 0x00 → q.op / 256 ≠ 0x0B → q.op / 256 ≠ 0x0C → q.due s = true → (∀ k ∈ q.checks s, k.order < 5 → k.bad = false) →
    exec i s = .next (q.last ((s.take q.f).answer q.f (Reply.refuse rcBadState 0))).settle) ∧
  (q.op / 256 = 0x00 ∨ q.op / 256 = 0x0B ∨ q.op / 256 = 0x0C → s.mram.stuck 3 255 = false → s.mram.lc ≠ 4 →
    s.forbids q.op = false)

/-- A global stop: the module's engines stand still, what arrives over the links, and every access to a BAR but those of the mailboxes,
their registers and reads of the ID_ and CNT_ blocks, is held in order, and nothing else changes (R445). -/
def Obligations.AStopHoldsArrivalsAndEngines : Prop :=
  ∀ (s : State), s.power.on = true → s.stop.stopped = true →
  (∀ i, ownWork i = true → exec i s = .next s) ∧
  (∀ i, arrivesOnLink i = true → exec i s = .next { s with held := s.held ++ [(s.ptp, s.ptpFrac, i)] }) ∧
  (∀ f off n size data obs whole reg (v : Word32) (v64 : Word64) (r : Bar), s.reachable f = true →
    (∀ i ∈ [Instr.bar2Read f off n obs, .bar2Write f off data obs, .dblWork f n v64 whole, .dblCq f n v64 whole obs, .winSet f reg v,
      .evcClaimRead f, .evcEoiWrite f v, .evcThresholdWrite f v, .evcCtrlWrite f v, .evcRouteWrite f n v, .msixVectorUnmask f n, .cntSnap f v],
      exec i s = .next { s with held := s.held ++ [(s.ptp, s.ptpFrac, i)] }) ∧
    (stopServes r true off = false → exec (.regWrite f r off size v64) s = .next { s with held := s.held ++ [(s.ptp, s.ptpFrac, .regWrite f r off size v64)] }))

/-- The frame of a function's register accesses: whatever they are, they change nothing beside the function's own registers, mailboxes,
event controller, MSI-X and counters, its link's power state, and the messages that leave, or wait, in a global stop, for its end (R445).
No byte of module memory changes. -/
def Obligations.RegisterAccessesStayWithTheirFunction : Prop :=
  ∀ (f : FuncId) (s : State) (bar : Bar) (off size n : Nat) (w : Bool) (v : Word32) (v64 : Word64) (reg : WinReg),
  ∀ i ∈ [Instr.regWrite f bar off size v64, .badRegAccess f bar w off size, .idTimeLoRead f, .winSet f reg v, .mbxGo f v,
    .mbxEvtConsWrite f v, .mbxEvtLostRead f, .evcClaimRead f, .evcEoiWrite f v, .evcThresholdWrite f v, .evcRaiseSignal f v,
    .evcRaiseWithdraw f v, .evcCtrlWrite f v, .evcRouteWrite f n v, .evcSourceSignal f n, .evcSourceWithdraw f n, .msixVectorUnmask f n,
    .msixFunctionUnmask f, .msixEnableSet f, .msixFunctionMaskSet f, .msixEnableClear f, .cntSnap f v, .cntSnapDone f],
  ∃ t, exec i s = .next t ∧ (s.Beside f t ∨ s.stop.stopped = true ∧ t = { s with held := s.held ++ [(s.ptp, s.ptpFrac, i)] })

/-! ### Single rules -/

/-- R9: an access of any size but 4, or not aligned to 4 bytes, is discarded or returns all ones, and is counted: a piece of a doorbell
with the discarded doorbells (R10). Writes of 8 bytes into the command mailbox are the exception R34 makes, a doorbell written whole is a
doorbell. -/
def Obligations.OddRegisterAccessesAreRefused : Prop :=
  ∀ (f : FuncId) (bar : Bar) (off size : Nat) (v : Word64) (s : State), s.served f = true → (size ≠ 4 ∨ off % 4 ≠ 0) →
  (¬ (bar = .bar0 ∧ 0x1000 ≤ off ∧ off < 0x2000 ∧ size = 8 ∧ off % 8 = 0) →
    exec (.regWrite f bar off size v) s = .next ((s.regSent f).count f (accessCounter bar true off) 1) ∧
    (wholeDoorbell bar true off size = false →
      exec (.badRegAccess f bar true off size) s = .next ((s.regSent f).count f (accessCounter bar true off) 1))) ∧
  exec (.badRegAccess f bar false off size) s =
    .next (((s.regSent f).count f cntRegAccess 1).regReturns f (List.replicate size 0xFF))

/-- R77: a read of EVC_CLAIM returns the eligible source of the highest PRIO, the lowest number among equals, and moves it from pending to
active; with none eligible it returns 0xFFF and changes nothing else. -/
def Obligations.ClaimsTakeTheBestSource : Prop :=
  ∀ (f : FuncId) (s : State), s.served f = true → let e := (s.func f).evc
  ((∀ x, e.eligible x = false) → exec (.evcClaimRead f) s = .next ((s.regSent f).regReturns f (leBytes 4 0xFFF))) ∧
  ((∃ x, e.eligible x = true) → ∃ src t, e.eligible src = true ∧
    (∀ x, e.eligible x = true → e.prio x < e.prio src ∨ (e.prio x = e.prio src ∧ src ≤ x)) ∧
    exec (.evcClaimRead f) s = .next t ∧ t.out.getLast? = some (.readData f (leBytes 4 src) false) ∧
    (∀ x, (t.func f).evc.pending.contains x = (e.pending.contains x && x != src)) ∧
    (∀ x, (t.func f).evc.active.contains x = (e.active.contains x || x == src)) ∧ s.Beside f t)

/-- R78: a write of a number to EVC_EOI clears that source's active bit, whichever active source it is; one for a source that is not
active is only counted, and 0xFFF does nothing. -/
def Obligations.EndOfInterruptClearsActive : Prop :=
  ∀ (f : FuncId) (v : Word32) (s : State), s.served f = true →
  let e := (s.func f).evc
  let src := bits v.toNat 11 0
  (src = 0xFFF → exec (.evcEoiWrite f v) s = .next (s.regSent f)) ∧
  (src ≠ 0xFFF → e.active.contains src = false → exec (.evcEoiWrite f v) s = .next ((s.regSent f).count f cntProtocol 1)) ∧
  (src ≠ 0xFFF → e.active.contains src = true → ∃ t, exec (.evcEoiWrite f v) s = .next t ∧
    (∀ x, (t.func f).evc.active.contains x = (e.active.contains x && x != src)) ∧ (t.func f).evc.pending = e.pending ∧ s.Beside f t)

/-- R68, R335: a write through BAR2 that the window allows places exactly its bytes at WIN_BASE × 2 MiB plus the offset, every other byte
of module memory and everything but memory, its counters, the packets on the fabric (R357) and what programs note of their inputs and
weights (R325, R327) stays as it was, and a read there returns what was written, where the blocks are good and nothing else is to be
placed there. -/
def Obligations.WindowWritesReadBack : Prop :=
  ∀ (f : FuncId) (off : Nat) (data : Bytes) (obs : List BlockObs) (s : State), s.served f = true → (∀ o ∈ obs, o = .good) →
  Memory.wf s.mem.bytes = true → ∀ a, s.winAddr f off = a → s.winRefused f true a data.length = false →
  ∃ t, exec (.bar2Write f off data obs) s = .next t ∧ ({ t with mem := s.mem, globals := s.globals, fabric := s.fabric, progs := s.progs } : State) = s ∧
    (∀ x, (x < a ∨ a + data.length ≤ x) → mget t.mem.bytes x = mget s.mem.bytes x) ∧
    (∀ i, i < data.length → s.mem.fallowAt (a + i) = false → mget t.mem.bytes (a + i) = data.getD i 0) ∧
    (∀ i, i < data.length → s.mem.fallowAt (a + i) = true → mget t.mem.bytes (a + i) = mget s.mem.bytes (a + i)) ∧
    (∀ obs2, (∀ o ∈ obs2, o = .good) → (∀ i, i < data.length → s.mem.fallowAt (a + i) = false) →
      (∀ i, i < data.length → t.mem.poison.contains ((a + i) / 64) = false ∧ s.mem.fallowAt ((a + i) / 64 * 64) = false) →
      (∀ i, i < data.length → inRanges s.pendingWrites (a + i) = false) →
      ∃ u, exec (.bar2Read f off data.length obs2) t = .next u ∧ u.out = t.out ++ [.readData f data false])

/-- R304: an integer dot adds the exact sum of products to its accumulator; beyond INT32 it saturates to the nearer limit and sets
OVERFLOW, and INEXACT with it (R311). Up to 32,767 four-way dots of INT8 from 0 stay exact. -/
def Obligations.IntegerDotsSaturate : Prop :=
  (∀ (pairs : List (Int × Int)) (c : Int), let v := c + (pairs.map (fun p => p.1 * p.2)).sum
    (v > 2 ^ 31 - 1 → idotSum pairs c = (2 ^ 31 - 1, fOverflow + fInexact)) ∧
    (v < -2 ^ 31 → idotSum pairs c = (-2 ^ 31, fOverflow + fInexact)) ∧
    (-2 ^ 31 ≤ v → v ≤ 2 ^ 31 - 1 → idotSum pairs c = (v, 0))) ∧
  (∀ dots : List (List (Int × Int)), dots.length ≤ 32767 →
    (∀ d ∈ dots, d.length ≤ 4 ∧ ∀ p ∈ d, -128 ≤ p.1 ∧ p.1 ≤ 127 ∧ -128 ≤ p.2 ∧ p.2 ≤ 127) →
    dots.foldl (fun (a : Int × Nat) d => ((idotSum d a.1).1, a.2 ||| (idotSum d a.1).2)) (0, 0) =
      ((dots.map (fun d => (d.map (fun p => p.1 * p.2)).sum)).sum, 0))

/-- R219: over any frames that arrive in order, the bytes a policer passes green draw no more than what its CIR bucket held and gained,
and the bytes it passes at all no more than its PIR bucket. Buckets count 1/8,000 byte; a colour is 0 green, 1 yellow, 2 red. -/
def Obligations.PolicersPassNoMoreThanTheirBuckets : Prop :=
  ∀ (frames : List (Nat × Nat × Nat)) (q : Policer), (q.lastAt :: frames.map (fun x => x.1)).IsChain (· ≤ ·) →
  let run := frames.foldl (fun (a : Policer × Nat × Nat) x =>
    let d := a.1.judge x.1 x.2.1 x.2.2
    (d.1, a.2.1 + (if d.2 = 0 then x.2.1 else 0), a.2.2 + (if d.2 = 2 then 0 else x.2.1))) (q, 0, 0)
  8000 * run.2.1 ≤ q.tc + q.cir * (run.1.lastAt - q.lastAt) ∧ 8000 * run.2.2 ≤ q.tp + q.pir * (run.1.lastAt - q.lastAt)
end

