-- ==== Sys2Proof/Laws/Access.lean ====
section
/-! SUPPORT. Laws/Access.lean: when a host's access to a function's BARs takes place, and when it waits (R61, R445). -/

namespace Sys2Proof.Machine

/-- A function is served where it can be reached and no global stop holds its accesses. -/
theorem served_iff {s : State} {f : FuncId} : s.served f = true ↔ s.reachable f = true ∧ s.stop.stopped = false := by
  simp [State.served]

/-- Crossing the fabric changes nothing that a register access reads. -/
@[simp] theorem regSent_func (s : State) (f g : FuncId) : (s.regSent f).func g = s.func g := rfl
@[simp] theorem regSent_serving (s : State) (f : FuncId) : (s.regSent f).serving = s.serving := rfl
@[simp] theorem regSent_time (s : State) (f : FuncId) : (s.regSent f).time = s.time := rfl
@[simp] theorem regSent_goNext (s : State) (f : FuncId) : (s.regSent f).goNext = s.goNext := rfl
@[simp] theorem regSent_vectors (s : State) (f g : FuncId) : (s.regSent f).vectors g = s.vectors g := rfl

/-- An access that a stop serves takes place at a function that can be reached. -/
theorem hostAccess_reachable {s : State} {f : FuncId} {g : State → State} (h : s.reachable f = true) : s.hostAccess f g = g (s.regSent f) := by
  simp [State.hostAccess, h]

/-- No access reaches a function that is DISABLED or whose link is down. -/
theorem hostAccess_unreachable {s : State} {f : FuncId} {g : State → State} (h : s.reachable f = false) : s.hostAccess f g = s := by
  simp [State.hostAccess, h]

/-- An access of any kind takes place at a function that is served. -/
theorem barAccess_served {s : State} {f : FuncId} {c : Instr} {g : State → State} (h : s.served f = true) : s.barAccess f c g = g s := by
  obtain ⟨h1, h2⟩ := served_iff.mp h
  simp [State.barAccess, h1, h2]

/-- A register access takes place at a function that is served. -/
theorem regAccess_served {s : State} {f : FuncId} {c : Instr} {g : State → State} (h : s.served f = true) :
    s.regAccess f c g = g (s.regSent f) := barAccess_served h

/-- During a global stop an access that the stop does not serve waits in arrival order. -/
theorem barAccess_stopped {s : State} {f : FuncId} {c : Instr} {g : State → State} (h1 : s.reachable f = true) (h2 : s.stop.stopped = true) :
    s.barAccess f c g = { s with held := s.held ++ [(s.ptp, s.ptpFrac, c)] } := by
  simp [State.barAccess, h1, h2, State.holdArrival]

end Sys2Proof.Machine
end

