-- ==== Sys2Proof/Laws/Table.lean ====
section
/-! SUPPORT. Laws/Table.lean: laws of the finite maps and the sparse byte memories: a read after a write, other places left alone,
and the canonical form kept by every operation. -/

namespace Sys2Proof.Machine

variable {α : Type}

/-! ### Finite maps -/

@[simp] theorem tget_nil (k : Nat) : tget ([] : Tbl α) k = none := rfl

/-- A value just set is the value found. -/
@[simp] theorem tget_tset_same (t : Tbl α) (k : Nat) (v : α) : tget (tset t k v) k = some v := by
  induction t with
  | nil => simp [tset, tget]
  | cons c r ih =>
    obtain ⟨j, w⟩ := c
    simp only [tset]
    split
    · simp [tget]
    · split
      · simp [tget]
      · have : j ≠ k := fun e => by omega
        simp [tget, this, ih]

/-- Setting one key leaves every other key alone. -/
theorem tget_tset_ne (t : Tbl α) {j k : Nat} (v : α) (hne : j ≠ k) : tget (tset t k v) j = tget t j := by
  induction t with
  | nil => simp [tset, tget, Ne.symm hne]
  | cons c r ih =>
    obtain ⟨i, w⟩ := c
    simp only [tset]
    split
    · simp [tget, Ne.symm hne]
    · split
      · subst_vars; simp [tget, Ne.symm hne]
      · simp [tget, ih]

theorem tgetD_tset_same (t : Tbl α) (k : Nat) (v d : α) : tgetD (tset t k v) k d = v := by simp [tgetD]

theorem tgetD_tset_ne (t : Tbl α) {j k : Nat} (v d : α) (hne : j ≠ k) : tgetD (tset t k v) j d = tgetD t j d := by
  simp [tgetD, tget_tset_ne t v hne]

/-- A key with no listing below the first key of a rising map. -/
theorem tget_below (t : Tbl α) {j k : Nat} {v : α} (hs : tsorted ((j, v) :: t) = true) (hk : k < j) : tget ((j, v) :: t) k = none := by
  induction t generalizing j v with
  | nil => simp [tget]; omega
  | cons c r ih =>
    obtain ⟨i, w⟩ := c
    simp only [tsorted, Bool.and_eq_true, decide_eq_true_eq] at hs
    have h2 : tsorted ((i, w) :: r) = true := by simp only [tsorted, Bool.and_eq_true]; exact hs.2
    have h3 := ih h2 (by omega : k < i)
    have : j ≠ k := by omega
    simp only [tget, this, if_false] at h3 ⊢
    exact h3

theorem tsorted_tail (c : Nat × α) (r : Tbl α) (hs : tsorted (c :: r) = true) : tsorted r = true := by
  obtain ⟨j, v⟩ := c
  simp only [tsorted, Bool.and_eq_true] at hs
  exact hs.2

/-- Every key of a rising map lies above its first key. -/
theorem tsorted_head_lt (j : Nat) (v : α) (r : Tbl α) (hs : tsorted ((j, v) :: r) = true) : ∀ c ∈ r, j < c.1 := by
  induction r generalizing j v with
  | nil => simp
  | cons c r ih =>
    obtain ⟨i, w⟩ := c
    have hij : j < i := by simp only [tsorted, Bool.and_eq_true, decide_eq_true_eq] at hs; exact hs.1
    have := ih i w (tsorted_tail _ _ hs)
    intro d hd
    rcases List.mem_cons.mp hd with rfl | hd
    · exact hij
    · exact Nat.lt_trans hij (this d hd)

theorem tsorted_cons_iff (j : Nat) (v : α) (r : Tbl α) :
    tsorted ((j, v) :: r) = true ↔ (∀ c ∈ r, j < c.1) ∧ tsorted r = true := by
  constructor
  · intro hs; exact ⟨tsorted_head_lt j v r hs, tsorted_tail _ _ hs⟩
  · rintro ⟨h1, h2⟩
    cases r with
    | nil => rfl
    | cons c r =>
      obtain ⟨i, w⟩ := c
      simp only [tsorted, Bool.and_eq_true, decide_eq_true_eq]
      refine ⟨h1 (i, w) (by simp), ?_⟩
      simpa only [tsorted, Bool.and_eq_true] using h2

/-- The keys of `tset` are the keys there were and the new one. -/
theorem mem_tset (t : Tbl α) (k : Nat) (v : α) (c : Nat × α) (hc : c ∈ tset t k v) : c = (k, v) ∨ c ∈ t := by
  induction t with
  | nil => simpa [tset] using hc
  | cons d r ih =>
    obtain ⟨j, w⟩ := d
    simp only [tset] at hc
    split at hc
    · simpa using hc
    · split at hc
      · rcases List.mem_cons.mp hc with h | h
        · exact .inl h
        · exact .inr (by simp [h])
      · rcases List.mem_cons.mp hc with h | h
        · exact .inr (by simp [h])
        · rcases ih h with h | h
          · exact .inl h
          · exact .inr (by simp [h])

/-- `tset` keeps the keys rising. -/
theorem tset_sorted (t : Tbl α) (k : Nat) (v : α) (hs : tsorted t = true) : tsorted (tset t k v) = true := by
  induction t with
  | nil => rfl
  | cons c r ih =>
    obtain ⟨j, w⟩ := c
    have hr := (tsorted_cons_iff j w r).mp hs
    simp only [tset]
    split
    · rename_i hlt
      refine (tsorted_cons_iff k v _).mpr ⟨?_, hs⟩
      intro c hc
      rcases List.mem_cons.mp hc with rfl | hc
      · exact hlt
      · exact Nat.lt_trans hlt (hr.1 c hc)
    · split
      · subst_vars; exact (tsorted_cons_iff _ v _).mpr hr
      · refine (tsorted_cons_iff j w _).mpr ⟨?_, ih hr.2⟩
        intro c hc
        rcases mem_tset r k v c hc with rfl | hc
        · simp only; omega
        · exact hr.1 c hc

theorem mem_tdel (t : Tbl α) (k : Nat) (c : Nat × α) (hc : c ∈ tdel t k) : c ∈ t := by
  induction t with
  | nil => simp [tdel] at hc
  | cons d r ih =>
    obtain ⟨j, w⟩ := d
    simp only [tdel] at hc
    split at hc
    · simp [hc]
    · rcases List.mem_cons.mp hc with h | h
      · simp [h]
      · simp [ih h]

/-- `tdel` keeps the keys rising. -/
theorem tdel_sorted (t : Tbl α) (k : Nat) (hs : tsorted t = true) : tsorted (tdel t k) = true := by
  induction t with
  | nil => rfl
  | cons c r ih =>
    obtain ⟨j, w⟩ := c
    have hr := (tsorted_cons_iff j w r).mp hs
    simp only [tdel]
    split
    · exact hr.2
    · exact (tsorted_cons_iff j w _).mpr ⟨fun c hc => hr.1 c (mem_tdel r k c hc), ih hr.2⟩

/-- Any part of a rising map rises. -/
theorem filter_sorted (t : Tbl α) (q : Nat × α → Bool) (hs : tsorted t = true) : tsorted (t.filter q) = true := by
  induction t with
  | nil => rfl
  | cons c r ih =>
    obtain ⟨j, w⟩ := c
    have hr := (tsorted_cons_iff j w r).mp hs
    simp only [List.filter]
    split
    · exact (tsorted_cons_iff j w _).mpr ⟨fun c hc => hr.1 c (List.mem_filter.mp hc).1, ih hr.2⟩
    · exact ih hr.2

/-- A key taken out of a rising map is found no more. -/
theorem tget_tdel_same (t : Tbl α) (k : Nat) (hs : tsorted t = true) : tget (tdel t k) k = none := by
  induction t with
  | nil => rfl
  | cons c r ih =>
    obtain ⟨j, w⟩ := c
    have hr := (tsorted_cons_iff j w r).mp hs
    simp only [tdel]
    split
    · rename_i e
      subst e
      cases r with
      | nil => rfl
      | cons d r =>
        obtain ⟨i, v⟩ := d
        exact tget_below r hr.2 (hr.1 (i, v) (by simp))
    · rename_i e
      simp only [tget, e, if_false]
      exact ih hr.2

theorem tget_tdel_ne (t : Tbl α) {j k : Nat} (hne : j ≠ k) : tget (tdel t k) j = tget t j := by
  induction t with
  | nil => rfl
  | cons c r ih =>
    obtain ⟨i, w⟩ := c
    simp only [tdel]
    split
    · rename_i e
      have : i ≠ j := by omega
      simp [tget, this]
    · simp [tget, ih]

/-! ### Sparse byte memories -/

/-- Writing one byte keeps the canonical form. -/
theorem mset_wf (m : Mem) (a : Nat) (b : Byte) (hw : Memory.wf m = true) : Memory.wf (mset m a b) = true := by
  simp only [Memory.wf, Bool.and_eq_true, List.all_eq_true, bne_iff_ne, ne_eq] at hw ⊢
  simp only [mset]
  split
  · exact ⟨tdel_sorted m a hw.1, fun c hc => hw.2 c (mem_tdel m a c hc)⟩
  · rename_i hb
    refine ⟨tset_sorted m a b hw.1, fun c hc => ?_⟩
    rcases mem_tset m a b c hc with rfl | hc
    · exact hb
    · exact hw.2 c hc

/-- Writing bytes keeps the canonical form. -/
theorem mwrite_wf (m : Mem) (a : Nat) (bs : Bytes) (hw : Memory.wf m = true) : Memory.wf (mwrite m a bs) = true := by
  induction bs generalizing m a with
  | nil => exact hw
  | cons b r ih => exact ih _ _ (mset_wf m a b hw)

/-- Zeroing a range keeps the canonical form. -/
theorem mzero_wf (m : Mem) (a n : Nat) (hw : Memory.wf m = true) : Memory.wf (mzero m a n) = true := by
  simp only [Memory.wf, Bool.and_eq_true, List.all_eq_true, bne_iff_ne, ne_eq] at hw ⊢
  exact ⟨filter_sorted m _ hw.1, fun c hc => hw.2 c (List.mem_filter.mp hc).1⟩

/-- A byte just written is the byte read. -/
theorem mget_mset_same (m : Mem) (a : Nat) (b : Byte) (hw : Memory.wf m = true) : mget (mset m a b) a = b := by
  simp only [Memory.wf, Bool.and_eq_true] at hw
  simp only [mget, mset]
  split
  · rename_i e; subst e; simp [tget_tdel_same m a hw.1]
  · simp

/-- Writing one byte leaves every other byte alone. -/
theorem mget_mset_ne (m : Mem) {a c : Nat} (b : Byte) (hne : c ≠ a) : mget (mset m a b) c = mget m c := by
  simp only [mget, mset]
  split
  · rw [tget_tdel_ne m hne]
  · rw [tget_tset_ne m b hne]

/-- Writing bytes leaves every byte outside them alone. -/
theorem mget_mwrite_outside (m : Mem) (a c : Nat) (bs : Bytes) (ho : c < a ∨ a + bs.length ≤ c) :
    mget (mwrite m a bs) c = mget m c := by
  induction bs generalizing m a with
  | nil => rfl
  | cons b r ih =>
    simp only [List.length_cons] at ho
    simp only [mwrite]
    rw [ih _ _ (by omega), mget_mset_ne m b (by omega)]

/-- Each byte written is the byte read. -/
theorem mget_mwrite_inside (m : Mem) (a i : Nat) (bs : Bytes) (hw : Memory.wf m = true) (hi : i < bs.length) :
    mget (mwrite m a bs) (a + i) = bs.getD i 0 := by
  induction bs generalizing m a i with
  | nil => simp at hi
  | cons b r ih =>
    simp only [mwrite]
    cases i with
    | zero =>
      rw [mget_mwrite_outside _ _ _ _ (by omega)]
      simp [mget_mset_same m a b hw]
    | succ k =>
      have : a + (k + 1) = (a + 1) + k := by omega
      rw [this, ih _ _ _ (mset_wf m a b hw) (by simpa using hi)]
      simp

end Sys2Proof.Machine
end

