-- ==== Sys2Proof/Laws/Beside.lean ====
section
/-! SUPPORT. Laws/Beside.lean: what a function's own accesses and refused commands leave alone (R45, R61, R74, R79). -/

namespace Sys2Proof.Machine

variable {f : FuncId} {s t u : State}

/-- Nothing changed. -/
theorem State.Beside.refl (f : FuncId) (s : State) : s.Beside f s :=
  ⟨rfl, fun _ _ => rfl, fun _ _ => rfl, fun _ _ => rfl, [], by simp⟩

/-- One change after another. -/
theorem State.Beside.trans (h : s.Beside f t) (k : t.Beside f u) : s.Beside f u := by
  obtain ⟨a1, a2, a3, a4, m1, a5⟩ := h
  obtain ⟨b1, b2, b3, b4, m2, b5⟩ := k
  refine ⟨?_, fun g hg => (b2 g hg).trans (a2 g hg), fun l hl => (b3 l hl).trans (a3 l hl), fun k hk => (b4 k hk).trans (a4 k hk),
    m1 ++ m2, by rw [b5, a5, List.append_assoc]⟩
  rw [← a1, ← b1]

/-- A change of the function's own record. -/
theorem State.Beside.modFunc (f : FuncId) (s : State) (g : Func → Func) : s.Beside f (s.modFunc f g) := by
  refine ⟨rfl, fun h hh => ?_, fun _ _ => rfl, fun _ _ => rfl, [], by simp [State.modFunc, State.setFunc]⟩
  simp only [State.func, State.modFunc, State.setFunc]
  exact tgetD_tset_ne _ _ _ (fun e => hh (Fin.ext e))

/-- A change of the function's mailboxes. -/
theorem State.Beside.modMbx (f : FuncId) (s : State) (g : Mbx → Mbx) : s.Beside f (s.modMbx f g) := State.Beside.modFunc f s _

/-- Packets go over the fabric (R357). -/
theorem State.Beside.fabSend (f : FuncId) (s : State) (a b : FabUnit) (c : FabChan) (n : Nat) : s.Beside f (s.fabSend a b c n) :=
  ⟨rfl, fun _ _ => rfl, fun _ _ => rfl, fun _ _ => rfl, [], by simp [State.fabSend]⟩

/-- A free value is taken. -/
theorem State.Beside.fresh (f : FuncId) (s : State) : s.Beside f s.fresh.2 :=
  ⟨rfl, fun _ _ => rfl, fun _ _ => rfl, fun _ _ => rfl, [], by simp [State.fresh]⟩

/-- Waking a link leaves the others alone. -/
theorem wakeLink_other (t : Tbl Link) {l k : LinkId} (h : k ≠ l) (d : Link) : tgetD (wakeLink t l) k.val d = tgetD t k.val d := by
  unfold wakeLink
  split
  · split
    · exact tgetD_tset_ne _ _ _ (fun e => h (Fin.ext e))
    · rfl
  · rfl

/-- Something leaves the module, on the function's link or on none. -/
theorem State.Beside.emit (s : State) (e : Emit) (h : ∀ l, e.tlp = some l → l = linkOf f) : s.Beside f (s.emit e) := by
  refine ⟨rfl, fun _ _ => rfl, fun l hl => ?_, fun _ _ => rfl, [e], rfl⟩
  simp only [State.link, State.emit]
  cases ht : e.tlp with
  | none => rfl
  | some k => exact wakeLink_other _ (fun e => hl (e.trans (h k ht))) _

/-- An event of the function is counted. -/
theorem State.Beside.count (f : FuncId) (s : State) (i n : Nat) : s.Beside f (s.count f i n) := by
  simp only [State.count]
  refine State.Beside.trans (State.Beside.modFunc f s (fun v =>
    { v with cnt := { v.cnt with live := v.cnt.live.set i (satAdd max64 (v.cnt.live.getD i 0) n) } })) ?_
  split
  · rename_i j hj
    refine ⟨rfl, fun _ _ => rfl, fun _ _ => rfl, fun k hk => ?_, [], by simp [State.countGlobal, State.modFunc, State.setFunc]⟩
    have : j < 4 := by
      simp only [groupIndex] at hj
      repeat' split at hj
      all_goals first | cases hj; decide | cases hj
    simp only [State.countGlobal]
    exact tgetD_tset_ne _ _ _ (by omega)
  · exact State.Beside.refl f _

/-- A loop changes no more than its body. -/
theorem State.Beside.forEach {α : Type} (l : List α) (s : State) (g : State → α → State) (h : ∀ (st : State) x, st.Beside f (g st x)) :
    s.Beside f (Machine.forEach l s g) := by
  unfold Machine.forEach
  induction l generalizing s with
  | nil => exact State.Beside.refl f s
  | cons x r ih => exact (h s x).trans (ih _)

/-- A vector's message (R79). -/
theorem State.Beside.sendVector (f : FuncId) (s : State) (v : Nat) : s.Beside f (s.sendVector f v) := by
  simp only [State.sendVector]
  split
  · exact State.Beside.refl f s
  · split
    · exact State.Beside.modFunc f s _
    · split
      · exact State.Beside.refl f s
      · exact State.Beside.emit s _ (fun l h => by simpa [Emit.tlp] using h.symm)

/-- The event controller is replaced (R79). -/
theorem State.Beside.setEvc (f : FuncId) (s : State) (e : Evc) : s.Beside f (s.setEvc f e) := by
  simp only [State.setEvc]
  split
  · exact (State.Beside.modFunc f s _).trans (State.Beside.forEach _ _ _ (fun st v => State.Beside.sendVector f st v))
  · exact State.Beside.modFunc f s _

/-- Messages become possible (R79). -/
theorem State.Beside.sendAllGroups (f : FuncId) (s : State) : s.Beside f (s.sendAllGroups f) := by
  simp only [State.sendAllGroups]
  split
  · exact State.Beside.forEach _ _ _ (fun st v => State.Beside.sendVector f st v)
  · exact State.Beside.refl f s

/-- A source is signalled (R76). -/
theorem State.Beside.signal (f : FuncId) (s : State) (src : Nat) : s.Beside f (s.signal f src) := by
  simp only [State.signal]
  split
  · exact State.Beside.refl f s
  · exact ((State.Beside.fabSend f s _ _ _ _).trans (State.Beside.count f _ _ _)).trans (State.Beside.setEvc f _ _)

/-- What a register read returns. -/
theorem State.Beside.regReturns (f : FuncId) (s : State) (b : Bytes) : s.Beside f (s.regReturns f b) :=
  (State.Beside.fabSend f s _ _ _ _).trans (State.Beside.emit _ _ (fun l h => by simpa [Emit.tlp] using h.symm))

/-- A source is withdrawn (R76). -/
theorem State.Beside.withdraw (f : FuncId) (s : State) (src : Nat) : s.Beside f (s.withdraw f src) := State.Beside.setEvc f s _

/-- A response is written (R38, R39). -/
theorem State.Beside.respond (f : FuncId) (s : State) (e : Nat) (r : Reply) : s.Beside f (s.respond f e r) := by
  simp only [State.respond]
  split
  · exact (State.Beside.modMbx f s _).trans (State.Beside.signal f _ _)
  · exact State.Beside.modMbx f s _

/-- A command that ran in one step is answered. -/
theorem State.Beside.answer (f : FuncId) (s : State) (r : Reply) : s.Beside f (s.answer f r) :=
  (State.Beside.fresh f s).trans (State.Beside.respond f _ _ _)

/-- Firmware takes a command (R39). -/
theorem State.Beside.take (f : FuncId) (s : State) : s.Beside f (s.take f) := (State.Beside.fresh f s).trans (State.Beside.modMbx f _ _)

/-- The mailbox hardware answers BUSY (R57). -/
theorem State.Beside.hardwareBusy (f : FuncId) (s : State) : s.Beside f (s.hardwareBusy f) :=
  ((State.Beside.fresh f s).trans (State.Beside.modMbx f _ _)).trans (State.Beside.respond f _ _ _)

/-- A command takes its place in the order of posting (R41). -/
theorem State.Beside.goNext (f : FuncId) (s : State) (n : Nat) : s.Beside f { s with goNext := n } :=
  ⟨rfl, fun _ _ => rfl, fun _ _ => rfl, fun _ _ => rfl, [], by simp⟩

/-- GO is written (R39, R57). -/
theorem State.Beside.go (f : FuncId) (s : State) (v : Word32) : s.Beside f (s.go f v) := by
  simp only [State.go]
  split
  · exact State.Beside.refl f s
  · split
    · exact State.Beside.count f s _ _
    · split
      · exact (State.Beside.count f s _ _).trans (State.Beside.hardwareBusy f _)
      · exact (((State.Beside.count f s _ _).trans (State.Beside.fresh f _)).trans (State.Beside.modMbx f _ _)).trans (State.Beside.goNext f _ _)

/-- Event records move from the backlog into the ring (R52). -/
theorem State.Beside.refillEvents (f : FuncId) (s : State) : s.Beside f (s.refillEvents f) := by
  simp only [State.refillEvents]
  split <;> split <;>
    first | exact (State.Beside.modFunc f _ _).trans (State.Beside.signal f _ _) | exact State.Beside.modFunc f _ _

/-- MBX_EVT_CONS is written (R48, R52). -/
theorem State.Beside.evtCons (f : FuncId) (s : State) (v : Word32) : s.Beside f (s.evtCons f v) := by
  simp only [State.evtCons]
  split
  · exact State.Beside.count f s _ _
  · exact State.Beside.trans (State.Beside.modMbx f s _) (State.Beside.refillEvents f _)

/-- Either branch. -/
theorem State.Beside.ite {f : FuncId} {s t u : State} {c : Prop} [Decidable c] (h1 : s.Beside f t) (h2 : s.Beside f u) : s.Beside f (if c then t else u) := by
  split
  · exact h1
  · exact h2

/-- The link of the function is changed. -/
theorem State.Beside.modLink (f : FuncId) (s : State) (g : Link → Link) : s.Beside f (s.modLink (linkOf f) g) := by
  refine ⟨rfl, fun _ _ => rfl, fun l hl => ?_, fun _ _ => rfl, [], by simp [State.modLink]⟩
  simp only [State.link, State.modLink]
  exact tgetD_tset_ne _ _ _ (fun e => hl (Fin.ext e))

/-- A vector is unmasked (R79). -/
theorem State.Beside.unmasked (f : FuncId) (s : State) (v : Nat) : s.Beside f (s.unmasked f v) := by
  simp only [State.unmasked]
  split
  · exact State.Beside.refl f s
  · split
    · exact State.Beside.trans (State.Beside.modFunc f s _) (State.Beside.sendVector f _ _)
    · exact State.Beside.modFunc f s _

/-- The mask bit of a vector is cleared (R79). -/
theorem State.Beside.unmaskVector (f : FuncId) (s : State) (v : Nat) : s.Beside f (s.unmaskVector f v) := by
  simp only [State.unmaskVector, State.modEntry]
  split
  · exact State.Beside.refl f s
  · exact State.Beside.trans (State.Beside.modFunc f s _) (State.Beside.unmasked f _ _)

/-- WIN_BASE or WIN_CTRL is written (R65). -/
theorem State.Beside.winSet (f : FuncId) (s : State) (r : WinReg) (v : Word32) : s.Beside f (s.winSet f r v) := by
  cases r <;> exact State.Beside.modFunc f s _

/-- The registers of the event controller and CNT_CTRL (R75 to R79, R429). -/
theorem State.Beside.evcWrites (f : FuncId) (s : State) (v : Word32) (n : Nat) : s.Beside f (s.evcEoi f v) ∧ s.Beside f (s.evcRaise f v) ∧
    s.Beside f (s.evcCtrl f v) ∧ s.Beside f (s.evcRoute f n v) ∧ s.Beside f (s.cntSnap f v) ∧ s.Beside f (s.evcClaim f) := by
  refine ⟨?_, ?_, ?_, ?_, ?_, ?_⟩
  · simp only [State.evcEoi]
    repeat' split
    all_goals first | exact State.Beside.refl f s | exact State.Beside.setEvc f s _ | exact State.Beside.count f s _ _
  · simp only [State.evcRaise]
    repeat' split
    all_goals first | exact State.Beside.refl f s | exact State.Beside.withdraw f s _ | exact State.Beside.count f s _ _ | exact State.Beside.signal f s _
  · simp only [State.evcCtrl]
    split
    · exact State.Beside.trans (State.Beside.modFunc f s _) (State.Beside.sendAllGroups f _)
    · exact State.Beside.modFunc f s _
  · simp only [State.evcRoute]
    split
    · exact State.Beside.count f s _ _
    · exact State.Beside.setEvc f s _
  · simp only [State.cntSnap]
    split
    · exact State.Beside.refl f s
    · exact State.Beside.modFunc f s _
  · simp only [State.evcClaim]
    split
    · exact State.Beside.regReturns f s _
    · exact State.Beside.trans (State.Beside.setEvc f s _) (State.Beside.regReturns f _ _)

/-- A register of BAR0 is written (R63). -/
theorem State.Beside.regWrite0 (f : FuncId) (s : State) (off : Nat) (v : Word32) : s.Beside f (s.regWrite0 f off v) := by
  simp only [State.regWrite0, State.reservedWrite]
  repeat' with_reducible apply State.Beside.ite
  all_goals first
    | exact State.Beside.refl f s | exact State.Beside.count f s _ _ | exact State.Beside.modLink f s _ | exact State.Beside.go f s _
    | exact State.Beside.evtCons f s _ | exact State.Beside.modMbx f s _ | exact State.Beside.winSet f s _ _ | exact State.Beside.modFunc f s _
    | exact (State.Beside.evcWrites f s _ 0).1 | exact (State.Beside.evcWrites f s _ 0).2.1 | exact (State.Beside.evcWrites f s _ 0).2.2.1 | exact (State.Beside.evcWrites f s _ _).2.2.2.1
    | exact (State.Beside.evcWrites f s _ 0).2.2.2.2.1 | exact State.Beside.setEvc f s _

/-- A register of BAR4 is written (R62). -/
theorem State.Beside.regWrite4 (f : FuncId) (s : State) (off : Nat) (v : Word32) : s.Beside f (s.regWrite4 f off v) := by
  simp only [State.regWrite4, State.reservedWrite, State.modEntry]
  repeat' split
  all_goals first
    | exact State.Beside.refl f s | exact State.Beside.count f s _ _ | exact State.Beside.modFunc f s _ | exact State.Beside.unmaskVector f s _

/-- The event controller of a function is as it is set, and its mailboxes are left alone. -/
theorem setEvc_mbx (s : State) (f : FuncId) (e : Evc) : ((s.setEvc f e).func f).mbx = (s.func f).mbx ∧ ((s.setEvc f e).func f).evc = e := by
  have same : ∀ (st : State) (g : Func → Func), (st.modFunc f g).func f = g (st.func f) := by
    intro st g; simp only [State.func, State.modFunc, State.setFunc, tgetD_tset_same]
  have vec : ∀ (st : State) v, ((st.sendVector f v).func f).mbx = (st.func f).mbx ∧ ((st.sendVector f v).func f).evc = (st.func f).evc := by
    intro st v
    simp only [State.sendVector]
    split
    · exact ⟨rfl, rfl⟩
    · split
      · rw [same]; exact ⟨rfl, rfl⟩
      · split
        · exact ⟨rfl, rfl⟩
        · exact ⟨rfl, rfl⟩
  have loop : ∀ (l : List Nat) (st : State), ((forEach l st (fun st v => st.sendVector f v)).func f).mbx = (st.func f).mbx ∧
      ((forEach l st (fun st v => st.sendVector f v)).func f).evc = (st.func f).evc := by
    intro l
    induction l with
    | nil => intro st; exact ⟨rfl, rfl⟩
    | cons x r ih =>
      intro st
      have h1 := ih (st.sendVector f x)
      have h2 := vec st x
      exact ⟨h1.1.trans h2.1, h1.2.trans h2.2⟩
  simp only [State.setEvc]
  split
  · have := loop (e.groups.filter (fun v => !(s.func f).evc.groups.contains v)) (s.modFunc f (fun w => { w with evc := e }))
    rw [same] at this
    exact this
  · rw [same]; exact ⟨rfl, rfl⟩

/-- Counting leaves mailboxes and event controller alone. -/
theorem count_func (s : State) (f : FuncId) (i n : Nat) : ((s.count f i n).func f).mbx = (s.func f).mbx ∧ ((s.count f i n).func f).evc = (s.func f).evc := by
  have same : ∀ (st : State) (g : Func → Func), (st.modFunc f g).func f = g (st.func f) := by
    intro st g; simp only [State.func, State.modFunc, State.setFunc, tgetD_tset_same]
  have k : ∀ (st : State) g, ({ st with globals := g } : State).func f = st.func f := fun _ _ => rfl
  simp only [State.count, State.countGlobal]
  split
  · rw [k, same]; exact ⟨rfl, rfl⟩
  · rw [same]; exact ⟨rfl, rfl⟩

/-- A command answered is DONE, with its RESULT (R38, R39). -/
theorem answer_done (s : State) (f : FuncId) (r : Reply) :
    ((s.answer f r).func f).mbx.state = .done ∧ ((s.answer f r).func f).mbx.result = BitVec.ofNat 8 r.code := by
  have same : ∀ (st : State) (g : Mbx → Mbx), ((st.modMbx f g).func f).mbx = g (st.func f).mbx := by
    intro st g; simp only [State.func, State.modMbx, State.modFunc, State.setFunc, tgetD_tset_same]
  have sig : ∀ (st : State), ((st.signal f 0).func f).mbx = (st.func f).mbx := by
    intro st
    unfold State.signal
    split
    · rfl
    · exact ((setEvc_mbx _ f _).1.trans (count_func _ f _ _).1).trans rfl
  unfold State.answer
  generalize s.fresh = q
  obtain ⟨n, s1⟩ := q
  simp only [State.respond]
  split
  · rw [sig, same]; exact ⟨rfl, rfl⟩
  · rw [same]; exact ⟨rfl, rfl⟩

end Sys2Proof.Machine
end

