-- ==== Sys2Proof/Laws/Frames.lean ====
section
/-! SUPPORT. Laws/Frames.lean: how an arriving frame reaches its connection (R174, R218, R235, R238). -/

namespace Sys2Proof.Machine

/-- A frame that arrives at a module that runs takes effect at once. -/
theorem frameArrival_runs {s : State} {p : LPort} {l : L2} {cls : Nat} {c : Instr} {g : State → State} (h : s.runs = true) :
    s.frameArrival p l cls c g = .next (g s).settle := by
  obtain ⟨a, b⟩ : s.power.on = true ∧ s.stop.stopped = false := by simpa [State.runs] using h
  simp [State.frameArrival, next, a, b]

/-- The policers leave a frame its type. -/
theorem marked_type (fr : NFrame) (m : Bool) : (fr.marked m).type = fr.type := by cases m <;> rfl

/-- A native frame that is handed on reaches the transport, judged good. -/
theorem rxNative_handsOn {s s2 : State} {p : LPort} {fr : NFrame} {m : Bool} (h : s.HandsOn p fr s2 m) :
    s.rxNative p fr = s2.rxTransport p (fr.marked m) true := by
  obtain ⟨h1, h2, h3, h4, h0, ht, h5, h6, h7, s1, s3, h8, h9, rfl⟩ := h
  simp only [State.rxNative]
  rw [if_neg (by simp [h2, h3, h4, h0, ht])]
  rw [show s.rxLink p fr.l2 ((s.port p).classOf fr.ip.dscp.toNat) = (s1, some true) from h8]
  simp only
  rw [if_neg (by simp [h5]; omega), h9]
  simp [h7, NFrame.marked]

/-- A frame of a READY connection in the cache goes on to the steps of R174. -/
theorem rxTransport_reaches {s2 : State} {p : LPort} {fr : NFrame} {m : Bool} {n : Nat} {c : Conn} (h : s2.Reaches fr n c) :
    s2.rxTransport p (fr.marked m) true = s2.live n c p ((s2.port p).classOf (fr.marked m).ip.dscp.toNat) (fr.marked m) true := by
  obtain ⟨h1, h2, h3, h4, h5, h6, h7⟩ := h
  have e : (fr.marked m).dstConn = fr.dstConn := by cases m <;> rfl
  simp only [State.rxTransport, e, h1, h2]
  rw [if_neg (by simpa using h3), if_neg (by simp [h4]), if_neg (by simp [h4])]

/-- A native row whose frame is handed on and reaches its connection. -/
theorem rxRow_reaches {s s2 : State} {p : LPort} {fr : NFrame} {m : Bool} {n : Nat} {c : Conn} {ty : Byte} {i : Instr}
    (h : s.HandsOn p fr s2 m) (h2 : s2.Reaches fr n c) (ht : fr.type = ty) :
    s.rxRow p fr ty i = .next (s2.live n c p ((s2.port p).classOf (fr.marked m).ip.dscp.toNat) (fr.marked m) true).settle := by
  rw [State.rxRow, if_neg (by simp [ht]), frameArrival_runs h.1, rxNative_handsOn h, rxTransport_reaches h2]

/-- The steps of R174 on a good frame from the peer of a READY connection. -/
theorem live_ready {s2 : State} {p : LPort} {fr : NFrame} {m : Bool} {n cls : Nat} {c : Conn} (h : s2.Reaches fr n c) :
    s2.live n c p cls (fr.marked m) true =
      (if isControl fr.type then (s2.touchConn n).control n c (fr.marked m)
       else if s2.fenced c.func = true ∨ (s2.func c.func).cfg.d3hot = true then s2.nakRnr n 4 (fr.marked m).psn.toNat (frameEcho (fr.marked m))
       else if fr.type.toNat ≥ 0x40 ∧ c.edge.isNone then s2.countPort p 7 1
       else
         let o := s2.openFrame c (fr.marked m)
         let s1 := s2.touchConn n
         if !o.2.1 && !c.encrypt then s1.countPort p 7 1
         else
           let s3 := if o.2.1 then (s1.noteKeyPhase n (fr.marked m) o.2.2).dropOldRx n else s1
           match s3.conn n with
           | none => s3
           | some v =>
             if fr.type = 0x05 ∨ fr.type = 0x07 then
               (if o.2.1 then s3.response n v p cls (fr.marked m).l2.length (fr.marked m).psn.toNat (fr.type == 0x07) o.1.payload
                else s3.respTagFailed n v (fr.marked m))
             else s3.sequence n v p cls o.1 o.2.1) := by
  obtain ⟨h1, h2, h3, h4, h5, h6, h7⟩ := h
  have e1 : (fr.marked m).srcConn = fr.srcConn := by cases m <;> rfl
  have e2 : (fr.marked m).ip.src = fr.ip.src := by cases m <;> rfl
  simp only [State.live, e1, e2, marked_type, h5]
  rw [if_neg (by rw [h6, h7]; simp)]
  simp <;> rfl

end Sys2Proof.Machine
end

