-- ==== Sys2Proof/Laws/Keeps.lean ====
section
/-! SUPPORT. Laws/Keeps.lean: how a pledge (the queue, the canonical form of memory, MIN_VERSION, the seed, DECOMMISSIONED) passes
through updates of the state and through loops. -/

namespace Sys2Proof.Machine

/-- An update that leaves the pledge's fields as another state has them keeps what that state keeps. -/
theorem State.Keeps.congr {g : Pledge} {s t : State} (hq : t.pending = s.pending) (hm : t.mem.bytes = s.mem.bytes)
    (hv : t.mram.minVersion = s.mram.minVersion) (hg : t.mram.seedGone = s.mram.seedGone) (hl : t.mram.lc = s.mram.lc)
    (h : s.Keeps g) : t.Keeps g := by
  obtain ⟨h1, h2, h3, h4, h5⟩ := h
  exact ⟨hq.trans h1, by rw [hm]; exact h2, by rw [hv]; exact h3, fun e => by rw [hg]; exact h4 e, fun e => by rw [hl]; exact h5 e⟩

/-- What keeping a pledge asks of the five fields it reads. -/
def KeepsFields (g : Pledge) (q : List Instr) (b : Mem) (v : Nat) (d : Bool) (l : Nat) : Prop :=
  q = g.queue ∧ Memory.wf b = true ∧ g.minVersion ≤ v ∧ (g.seedGone = true → d = true) ∧ (g.decommissioned = true → l = 4)

theorem keeps_of_fields {g : Pledge} {s : State}
    (h : KeepsFields g s.pending s.mem.bytes s.mram.minVersion s.mram.seedGone s.mram.lc) : s.Keeps g := h

theorem fields_of_keeps {g : Pledge} {s : State} (h : s.Keeps g) :
    KeepsFields g s.pending s.mem.bytes s.mram.minVersion s.mram.seedGone s.mram.lc := h

theorem keeps_of_fst {g : Pledge} {α : Type} {p : State × α} {s : State} {x : α} (e : p = (s, x)) (h : p.1.Keeps g) : s.Keeps g := by
  subst e; exact h

theorem keeps_of_snd {g : Pledge} {α : Type} {p : α × State} {s : State} {x : α} (e : p = (x, s)) (h : p.2.Keeps g) : s.Keeps g := by
  subst e; exact h

theorem keeps_of_some {g : Pledge} {o : Option State} {s : State} (e : o = some s) (h : ∀ t, o = some t → t.Keeps g) : s.Keeps g :=
  h s e

theorem keeps_of_next {g : Pledge} {o : Host.Outcome State Fault Refusal} {s : State} (e : o = .next s)
    (h : ∀ t, o = .next t → t.Keeps g) : s.Keeps g := h s e

/-- A state whose memory has its canonical form keeps its own pledge. -/
theorem State.keeps_pledge {s : State} (hw : Memory.wf s.mem.bytes = true) : s.Keeps s.pledge :=
  ⟨rfl, hw, Nat.le_refl _, id, fun e => by simpa [State.pledge] using e⟩

/-- A loop keeps what its body keeps. -/
theorem forEach_keeps {g : Pledge} {α : Type} (l : List α) (s : State) (f : State → α → State) (h : s.Keeps g)
    (hf : ∀ st x, st.Keeps g → (f st x).Keeps g) : (forEach l s f).Keeps g := by
  unfold forEach
  induction l generalizing s with
  | nil => exact h
  | cons x r ih => exact ih _ (hf s x h)

theorem foldl_keeps {g : Pledge} {α : Type} (l : List α) (s : State) (f : State → α → State) (h : s.Keeps g)
    (hf : ∀ st x, st.Keeps g → (f st x).Keeps g) : (l.foldl f s).Keeps g := forEach_keeps l s f h hf

theorem foldl_keeps_fst {g : Pledge} {α β : Type} (l : List α) (p : State × β) (f : State × β → α → State × β) (h : p.1.Keeps g)
    (hf : ∀ (q : State × β) x, q.1.Keeps g → (f q x).1.Keeps g) : (l.foldl f p).1.Keeps g := by
  induction l generalizing p with
  | nil => exact h
  | cons x r ih => exact ih _ (hf p x h)

theorem keeps_some {g : Pledge} {s : State} (h : s.Keeps g) : ∀ t, some s = some t → t.Keeps g := by
  intro t e; cases e; exact h

theorem keeps_none {g : Pledge} : ∀ t : State, none = some t → t.Keeps g := by
  intro t e; cases e

theorem keeps_ite {g : Pledge} {c : Prop} [Decidable c] {s t : State} (hs : s.Keeps g) (ht : t.Keeps g) :
    (if c then s else t).Keeps g := by
  split
  · exact hs
  · exact ht

theorem keeps_map {g : Pledge} {o : Option State} {f : State → State} (h : ∀ t, o = some t → t.Keeps g)
    (hf : ∀ st, st.Keeps g → (f st).Keeps g) : ∀ t, o.map f = some t → t.Keeps g := by
  intro t e
  obtain ⟨u, hu, rfl⟩ := Option.map_eq_some_iff.mp e
  exact hf u (h u hu)

theorem keeps_next {g : Pledge} {s : State} (h : s.Keeps g) : ∀ t, next s = .next t → t.Keeps g := by
  intro t e; cases e; exact h

end Sys2Proof.Machine
end

