-- ==== Sys2Proof/Laws/KeepsOps.lean ====
section
/-! SUPPORT. Laws/KeepsOps.lean: a pledge (Safety.lean) is kept by the shared operations: memory, mailboxes, transfers, completions, the network: one lemma for each function. -/

namespace Sys2Proof.Machine

/-! ### Fabric -/

theorem State.fabSend_keeps {g : Pledge} (s : State) (src dst : FabUnit) (chan : FabChan) (n : Nat) (h : s.Keeps g) :
    (State.fabSend s src dst chan n).Keeps g := by
  unfold State.fabSend
  try dsimp only
  repeat' first
    | with_reducible assumption | (with_reducible apply keeps_of_fields; dsimp only; with_reducible apply fields_of_keeps)

/-! ### Ops -/

theorem State.setFunc_keeps {g : Pledge} (s : State) (f : FuncId) (v : Func) (h : s.Keeps g) : (State.setFunc s f v).Keeps g := by
  unfold State.setFunc
  try dsimp only
  repeat' first
    | with_reducible assumption | (with_reducible apply keeps_of_fields; dsimp only; with_reducible apply fields_of_keeps)

theorem State.modFunc_keeps {g : Pledge} (s : State) (f : FuncId) (x : Func → Func) (h : s.Keeps g) :
    (State.modFunc s f x).Keeps g := by
  unfold State.modFunc
  try dsimp only
  repeat' first
    | with_reducible assumption | with_reducible apply State.setFunc_keeps

theorem State.modLink_keeps {g : Pledge} (s : State) (l : LinkId) (x : Link → Link) (h : s.Keeps g) :
    (State.modLink s l x).Keeps g := by
  unfold State.modLink
  try dsimp only
  repeat' first
    | with_reducible assumption | (with_reducible apply keeps_of_fields; dsimp only; with_reducible apply fields_of_keeps)

theorem State.modPort_keeps {g : Pledge} (s : State) (p : LPort) (x : PortSt → PortSt) (h : s.Keeps g) :
    (State.modPort s p x).Keeps g := by
  unfold State.modPort
  try dsimp only
  repeat' first
    | with_reducible assumption | (with_reducible apply keeps_of_fields; dsimp only; with_reducible apply fields_of_keeps)

theorem State.modPhys_keeps {g : Pledge} (s : State) (ph : PhysId) (x : PhysSt → PhysSt) (h : s.Keeps g) :
    (State.modPhys s ph x).Keeps g := by
  unfold State.modPhys
  try dsimp only
  repeat' first
    | with_reducible assumption | (with_reducible apply keeps_of_fields; dsimp only; with_reducible apply fields_of_keeps)

theorem State.modRing_keeps {g : Pledge} (s : State) (f : FuncId) (r : Nat) (x : Ring → Ring) (h : s.Keeps g) :
    (State.modRing s f r x).Keeps g := by
  unfold State.modRing
  try dsimp only
  repeat' first
    | with_reducible assumption | with_reducible apply State.modFunc_keeps

theorem State.modCq_keeps {g : Pledge} (s : State) (f : FuncId) (c : Nat) (x : Cq → Cq) (h : s.Keeps g) :
    (State.modCq s f c x).Keeps g := by
  unfold State.modCq
  try dsimp only
  repeat' first
    | with_reducible assumption | with_reducible apply State.modFunc_keeps

theorem State.modConn_keeps {g : Pledge} (s : State) (n : Nat) (x : Conn → Conn) (h : s.Keeps g) :
    (State.modConn s n x).Keeps g := by
  unfold State.modConn
  try dsimp only
  repeat' first
    | with_reducible assumption | (with_reducible apply keeps_of_fields; dsimp only; with_reducible apply fields_of_keeps)

theorem State.modProg_keeps {g : Pledge} (s : State) (n : Nat) (x : Prog → Prog) (h : s.Keeps g) :
    (State.modProg s n x).Keeps g := by
  unfold State.modProg
  try dsimp only
  repeat' first
    | with_reducible assumption | (with_reducible apply keeps_of_fields; dsimp only; with_reducible apply fields_of_keeps)

theorem State.modTx_keeps {g : Pledge} (s : State) (n : Nat) (x : Tx → Tx) (h : s.Keeps g) : (State.modTx s n x).Keeps g := by
  unfold State.modTx
  try dsimp only
  repeat' first
    | with_reducible assumption | with_reducible apply State.modConn_keeps

theorem State.modRx_keeps {g : Pledge} (s : State) (n : Nat) (x : Rx → Rx) (h : s.Keeps g) : (State.modRx s n x).Keeps g := by
  unfold State.modRx
  try dsimp only
  repeat' first
    | with_reducible assumption | with_reducible apply State.modConn_keeps

theorem State.modConnStats_keeps {g : Pledge} (s : State) (n : Nat) (x : ConnStats → ConnStats) (h : s.Keeps g) :
    (State.modConnStats s n x).Keeps g := by
  unfold State.modConnStats
  try dsimp only
  repeat' first
    | with_reducible assumption | with_reducible apply State.modConn_keeps

theorem State.countGlobal_keeps {g : Pledge} (s : State) (group i n : Nat) (h : s.Keeps g) :
    (State.countGlobal s group i n).Keeps g := by
  unfold State.countGlobal
  try dsimp only
  repeat' first
    | with_reducible assumption | (with_reducible apply keeps_of_fields; dsimp only; with_reducible apply fields_of_keeps)

theorem State.peakGlobal_keeps {g : Pledge} (s : State) (group i v : Nat) (h : s.Keeps g) :
    (State.peakGlobal s group i v).Keeps g := by
  unfold State.peakGlobal
  try dsimp only
  repeat' first
    | with_reducible assumption | (with_reducible apply keeps_of_fields; dsimp only; with_reducible apply fields_of_keeps)

theorem State.count_keeps {g : Pledge} (s : State) (f : FuncId) (i n : Nat) (h : s.Keeps g) : (State.count s f i n).Keeps g := by
  unfold State.count
  try dsimp only
  repeat' first
    | with_reducible assumption | with_reducible apply State.modFunc_keeps | with_reducible apply State.countGlobal_keeps
    | split

theorem State.countPort_keeps {g : Pledge} (s : State) (p : LPort) (i n : Nat) (h : s.Keeps g) :
    (State.countPort s p i n).Keeps g := by
  unfold State.countPort
  try dsimp only
  repeat' first
    | with_reducible assumption | with_reducible apply State.modPort_keeps

theorem State.emit_keeps {g : Pledge} (s : State) (e : Emit) (h : s.Keeps g) : (State.emit s e).Keeps g := by
  unfold State.emit
  try dsimp only
  repeat' first
    | with_reducible assumption | (with_reducible apply keeps_of_fields; dsimp only; with_reducible apply fields_of_keeps)

theorem State.fresh_keeps {g : Pledge} (s : State) (h : s.Keeps g) : (State.fresh s).2.Keeps g := by
  unfold State.fresh
  try dsimp only
  repeat' first
    | with_reducible assumption | (with_reducible apply keeps_of_fields; dsimp only; with_reducible apply fields_of_keeps)

theorem State.newId_keeps {g : Pledge} (s : State) (h : s.Keeps g) : (State.newId s).2.Keeps g := by
  unfold State.newId
  try dsimp only
  repeat' first
    | with_reducible assumption | (with_reducible apply keeps_of_fields; dsimp only; with_reducible apply fields_of_keeps)

theorem State.sendVector_keeps {g : Pledge} (s : State) (f : FuncId) (v : Nat) (h : s.Keeps g) :
    (State.sendVector s f v).Keeps g := by
  unfold State.sendVector
  try dsimp only
  repeat' first
    | with_reducible assumption | with_reducible apply State.modFunc_keeps | with_reducible apply State.emit_keeps
    | with_reducible apply keeps_ite

theorem State.setEvc_keeps {g : Pledge} (s : State) (f : FuncId) (e : Evc) (h : s.Keeps g) : (State.setEvc s f e).Keeps g := by
  unfold State.setEvc
  try dsimp only
  repeat' first
    | with_reducible assumption | with_reducible apply State.modFunc_keeps | with_reducible apply forEach_keeps
    | with_reducible apply State.sendVector_keeps | with_reducible apply keeps_ite | (intro st x hst; try dsimp only)

theorem State.sendAllGroups_keeps {g : Pledge} (s : State) (f : FuncId) (h : s.Keeps g) : (State.sendAllGroups s f).Keeps g := by
  unfold State.sendAllGroups
  try dsimp only
  repeat' first
    | with_reducible assumption | with_reducible apply forEach_keeps | with_reducible apply State.sendVector_keeps
    | with_reducible apply keeps_ite | (intro st x hst; try dsimp only)

theorem State.signal_keeps {g : Pledge} (s : State) (f : FuncId) (src : Nat) (h : s.Keeps g) :
    (State.signal s f src).Keeps g := by
  unfold State.signal
  try dsimp only
  repeat' first
    | with_reducible assumption | with_reducible apply State.setEvc_keeps | with_reducible apply State.count_keeps
    | with_reducible apply State.fabSend_keeps | with_reducible apply keeps_ite

theorem State.withdraw_keeps {g : Pledge} (s : State) (f : FuncId) (src : Nat) (h : s.Keeps g) :
    (State.withdraw s f src).Keeps g := by
  unfold State.withdraw
  try dsimp only
  repeat' first
    | with_reducible assumption | with_reducible apply State.setEvc_keeps

theorem State.signalBound_keeps {g : Pledge} (s : State) (f : FuncId) (src : Nat) (h : s.Keeps g) :
    (State.signalBound s f src).Keeps g := by
  unfold State.signalBound
  try dsimp only
  repeat' first
    | with_reducible assumption | with_reducible apply State.signal_keeps | with_reducible apply keeps_ite

theorem State.post_keeps {g : Pledge} (s : State) (f : FuncId) (kind token : BitVec 16) (body : Bytes) (h : s.Keeps g) :
    (State.post s f kind token body).Keeps g := by
  unfold State.post
  try dsimp only
  repeat' first
    | with_reducible assumption | with_reducible apply State.modFunc_keeps | with_reducible apply State.signal_keeps
    | with_reducible apply keeps_ite

theorem State.refillEvents_keeps {g : Pledge} (s : State) (f : FuncId) (h : s.Keeps g) : (State.refillEvents s f).Keeps g := by
  unfold State.refillEvents
  try dsimp only
  repeat' first
    | with_reducible assumption | with_reducible apply State.modFunc_keeps | with_reducible apply State.signal_keeps
    | with_reducible apply keeps_ite

theorem State.postFallow_keeps {g : Pledge} (s : State) (kind action unit addr sparesLeft before after : Nat)
     (holders : List FuncId) (h : s.Keeps g) :
    (State.postFallow s kind action unit addr sparesLeft before after holders).Keeps g := by
  unfold State.postFallow
  try dsimp only
  repeat' first
    | with_reducible assumption | with_reducible apply forEach_keeps | with_reducible apply State.post_keeps
    | (intro st x hst; try dsimp only)

theorem State.countClocks_keeps {g : Pledge} (s : State) (h : s.Keeps g) : (State.countClocks s).Keeps g := by
  unfold State.countClocks
  try dsimp only
  repeat' first
    | with_reducible assumption | (with_reducible apply keeps_of_fields; dsimp only; with_reducible apply fields_of_keeps)

theorem State.startStop_keeps {g : Pledge} (s : State) (byPin : Bool) (h : s.Keeps g) : (State.startStop s byPin).Keeps g := by
  unfold State.startStop
  try dsimp only
  repeat' first
    | with_reducible assumption | (with_reducible apply keeps_of_fields; dsimp only; with_reducible apply fields_of_keeps)
    | with_reducible apply keeps_ite

theorem State.traceTrigger_keeps {g : Pledge} (s : State) (kind object source : Nat) (h : s.Keeps g) :
    (State.traceTrigger s kind object source).Keeps g := by
  unfold State.traceTrigger
  try dsimp only
  repeat' first
    | with_reducible assumption | with_reducible apply State.startStop_keeps
    | (with_reducible apply keeps_of_fields; dsimp only; with_reducible apply fields_of_keeps) | with_reducible apply keeps_ite

theorem State.globalStop_keeps {g : Pledge} (s : State) (byPin : Bool) (h : s.Keeps g) : (State.globalStop s byPin).Keeps g := by
  unfold State.globalStop
  try dsimp only
  repeat' first
    | with_reducible assumption | with_reducible apply State.traceTrigger_keeps | with_reducible apply State.startStop_keeps
    | with_reducible apply keeps_ite

theorem State.traceRecord_keeps {g : Pledge} (s : State) (d : DieId) (f : FuncId) (kind object other value waitNs : Nat)
     (h : s.Keeps g) : (State.traceRecord s d f kind object other value waitNs).Keeps g := by
  unfold State.traceRecord
  try dsimp only
  repeat' first
    | with_reducible assumption | with_reducible apply State.fabSend_keeps | with_reducible apply State.traceTrigger_keeps
    | (with_reducible apply keeps_of_fields; dsimp only; with_reducible apply fields_of_keeps) | with_reducible apply keeps_ite

theorem State.fault_keeps {g : Pledge} (s : State) (cls code : Nat) (f : Option FuncId) (object detail address : Nat)
     (h : s.Keeps g) : (State.fault s cls code f object detail address).Keeps g := by
  unfold State.fault
  try dsimp only
  repeat' first
    | with_reducible assumption | with_reducible apply State.modFunc_keeps | with_reducible apply State.traceTrigger_keeps
    | (with_reducible apply keeps_of_fields; dsimp only; with_reducible apply fields_of_keeps) | with_reducible apply keeps_ite
    | split

/-! ### Memory -/

theorem State.retireGranule_keeps {g : Pledge} (s : State) (a : Nat) (h : s.Keeps g) : (State.retireGranule s a).Keeps g := by
  unfold State.retireGranule
  try dsimp only
  repeat' first
    | with_reducible assumption | with_reducible apply State.postFallow_keeps
    | (with_reducible apply keeps_of_fields; dsimp only; with_reducible apply fields_of_keeps) | with_reducible apply keeps_ite
    | split

theorem State.mapOut_keeps {g : Pledge} (s : State) (stack channel : Nat) (h : s.Keeps g) : (s.mapOut stack channel).Keeps g := by
  have key : ∀ m : MemSt, m.bytes = s.mem.bytes → State.Keeps g { s with mem := m, degraded := true } :=
    fun m e => ⟨h.1, by rw [e]; exact h.2.1, h.2.2⟩
  simp only [State.mapOut]
  split
  · exact h
  exact State.postFallow_keeps _ _ _ _ _ _ _ _ _ (key _ rfl)

theorem State.repairTilthRow_keeps {g : Pledge} (s : State) (a : Nat) (h : s.Keeps g) : (State.repairTilthRow s a).Keeps g := by
  unfold State.repairTilthRow
  try dsimp only
  repeat' first
    | with_reducible assumption | with_reducible apply State.retireGranule_keeps | with_reducible apply State.postFallow_keeps
    | (with_reducible apply keeps_of_fields; dsimp only; with_reducible apply fields_of_keeps) | with_reducible apply keeps_ite

theorem State.repairHbmRow_keeps {g : Pledge} (s : State) (a : Nat) (h : s.Keeps g) : (State.repairHbmRow s a).Keeps g := by
  unfold State.repairHbmRow
  try dsimp only
  repeat' first
    | with_reducible assumption | with_reducible apply State.mapOut_keeps | with_reducible apply State.postFallow_keeps
    | (with_reducible apply keeps_of_fields; dsimp only; with_reducible apply fields_of_keeps) | with_reducible apply keeps_ite

theorem State.repairRow_keeps {g : Pledge} (s : State) (a : Nat) (h : s.Keeps g) : (State.repairRow s a).Keeps g := by
  unfold State.repairRow
  try dsimp only
  repeat' first
    | with_reducible assumption | with_reducible apply State.repairTilthRow_keeps
    | with_reducible apply State.repairHbmRow_keeps | with_reducible apply keeps_ite

theorem State.noteCorrected_keeps {g : Pledge} (s : State) (b : Nat) (h : s.Keeps g) : (State.noteCorrected s b).Keeps g := by
  unfold State.noteCorrected
  try dsimp only
  repeat' first
    | with_reducible assumption | with_reducible apply State.countGlobal_keeps | with_reducible apply State.repairRow_keeps
    | (with_reducible apply keeps_of_fields; dsimp only; with_reducible apply fields_of_keeps) | with_reducible apply keeps_ite

theorem State.notePoison_keeps {g : Pledge} (s : State) (b : Nat) (h : s.Keeps g) : (State.notePoison s b).Keeps g := by
  unfold State.notePoison
  try dsimp only
  repeat' first
    | with_reducible assumption | with_reducible apply State.repairRow_keeps | with_reducible apply State.fault_keeps
    | (with_reducible apply keeps_of_fields; dsimp only; with_reducible apply fields_of_keeps)

theorem State.decodeBlock_keeps {g : Pledge} (s : State) (b : Nat) (o : BlockObs) (h : s.Keeps g) :
    (s.decodeBlock b o).1.Keeps g := by
  unfold State.decodeBlock
  split
  · exact h
  · split
    · exact h
    · exact State.noteCorrected_keeps _ _ h
    · exact State.notePoison_keeps _ _ h
    · exact State.noteCorrected_keeps _ _ ⟨h.1, mwrite_wf _ _ _ h.2.1, h.2.2⟩
    · exact h

theorem State.decodeBlocks_keeps {g : Pledge} (s : State) (bs : List Nat) (obs : List BlockObs) (h : s.Keeps g) :
    (s.decodeBlocks bs obs).1.Keeps g := by
  induction bs generalizing s obs with
  | nil => exact h
  | cons b r ih => exact ih _ _ (State.decodeBlock_keeps s b _ h)

theorem State.unpoison_keeps {g : Pledge} (s : State) (a n : Nat) (h : s.Keeps g) : (State.unpoison s a n).Keeps g := by
  unfold State.unpoison
  try dsimp only
  repeat' first
    | with_reducible assumption | (with_reducible apply keeps_of_fields; dsimp only; with_reducible apply fields_of_keeps)

theorem State.countMem_keeps {g : Pledge} (s : State) (a n dir : Nat) (h : s.Keeps g) : (State.countMem s a n dir).Keeps g := by
  unfold State.countMem
  try dsimp only
  repeat' first
    | with_reducible assumption | with_reducible apply State.countGlobal_keeps | with_reducible apply keeps_ite

theorem State.memRead_keeps {g : Pledge} (s : State) (a n : Nat) (obs : List BlockObs) (h : s.Keeps g) :
    (State.memRead s a n obs).1.Keeps g := by
  unfold State.memRead
  try dsimp only
  repeat' first
    | with_reducible assumption | with_reducible apply State.decodeBlocks_keeps | with_reducible apply State.countMem_keeps
    | (with_reducible apply keeps_of_fields; dsimp only; with_reducible apply fields_of_keeps)

theorem State.undefine_keeps {g : Pledge} (s : State) (a n : Nat) (h : s.Keeps g) : (State.undefine s a n).Keeps g := by
  unfold State.undefine
  try dsimp only
  repeat' first
    | with_reducible assumption | (with_reducible apply keeps_of_fields; dsimp only; with_reducible apply fields_of_keeps)
    | with_reducible apply keeps_ite

theorem State.undefineRuns_keeps {g : Pledge} (s : State) (l : List (Nat × Nat)) (h : s.Keeps g) :
    (State.undefineRuns s l).Keeps g := by
  unfold State.undefineRuns
  try dsimp only
  repeat' first
    | with_reducible assumption | (with_reducible apply keeps_of_fields; dsimp only; with_reducible apply fields_of_keeps)

theorem State.overwrite_keeps {g : Pledge} (s : State) (a : Nat) (data : Bytes) (h : s.Keeps g) :
    (State.overwrite s a data).Keeps g := by
  unfold State.overwrite
  try dsimp only
  repeat' first
    | with_reducible assumption | (with_reducible apply keeps_of_fields; dsimp only; with_reducible apply fields_of_keeps)

theorem State.ownWrite_keeps {g : Pledge} (s t : State) (n : Nat) (h : s.Keeps g) (h : t.Keeps g) :
    (State.ownWrite s t n).Keeps g := by
  unfold State.ownWrite
  try dsimp only
  repeat' first
    | with_reducible assumption | with_reducible apply State.modProg_keeps | split

theorem foldl_mwrite_wf {β : Type} (f : β → Nat) (d : β → Bytes) (l : List β) (m : Mem) (h : Memory.wf m = true) :
    Memory.wf (l.foldl (fun m w => mwrite m (f w) (d w)) m) = true := by
  induction l generalizing m with
  | nil => exact h
  | cons x r ih => exact ih _ (mwrite_wf _ _ _ h)

theorem foldl_mset_wf (l : List (Byte × Nat)) (m : Mem) (h : Memory.wf m = true) :
    Memory.wf (l.foldl (fun m (p : Byte × Nat) => mset m p.2 p.1) m) = true := by
  induction l generalizing m with
  | nil => exact h
  | cons x r ih => exact ih _ (mset_wf _ _ _ h)

theorem State.memWriteIn_keeps {g : Pledge} (s : State) (a : Nat) (data : Bytes) (obs : List BlockObs) (lo k : Nat) (h : s.Keeps g) :
    (s.memWriteIn a data obs lo k).1.Keeps g := by
  have hd : ∀ l o, ((s.overwrite a data).decodeBlocks l o).1.Keeps g := fun l o => State.decodeBlocks_keeps _ l o (State.overwrite_keeps s a data h)
  exact State.countMem_keeps _ _ _ _
    ⟨(hd _ _).1, foldl_mset_wf _ _ (foldl_mwrite_wf _ _ _ _ (hd _ _).2.1), (hd _ _).2.2⟩

theorem State.memWrite_keeps {g : Pledge} (s : State) (a : Nat) (data : Bytes) (obs : List BlockObs) (h : s.Keeps g) :
    (State.memWrite s a data obs).1.Keeps g := by
  unfold State.memWrite
  try dsimp only
  repeat' first
    | with_reducible assumption | with_reducible apply State.memWriteIn_keeps

theorem State.writeRuns_keeps {g : Pledge} (s : State) (x1 : List (Nat × Nat)) (x2 : Bytes) (h : s.Keeps g) :
    (State.writeRuns s x1 x2).Keeps g := by
  induction x1 generalizing s x2 with
  | nil => exact h
  | cons p rest ih =>
    unfold State.writeRuns
    try dsimp only
    repeat' first
      | with_reducible apply ih | with_reducible assumption | with_reducible apply State.memWrite_keeps

theorem State.readRuns_keeps {g : Pledge} (s : State) (l : List (Nat × Nat)) (obs : List BlockObs) (h : s.Keeps g) :
    (s.readRuns l obs).1.Keeps g := by
  induction l generalizing s obs with
  | nil => exact h
  | cons x r ih => exact ih _ _ (State.memRead_keeps _ _ _ _ h)

theorem State.recode_keeps {g : Pledge} (s : State) (a n : Nat) (obs : List BlockObs) (h : s.Keeps g) : (s.recode a n obs).Keeps g := by
  refine ⟨h.1, ?_, h.2.2⟩
  show Memory.wf (List.foldl _ s.mem.bytes _) = true
  have key : ∀ (l : List (Nat × BlockObs)) (m : Mem), Memory.wf m = true → Memory.wf (l.foldl (fun (m : Mem) (w : Nat × BlockObs) => match w.2 with
      | .unchanged b => if s.mem.poison.contains w.1 || s.mem.fallowAt (w.1 * 64) then m else mwrite m (w.1 * 64) (fit 64 b)
      | _ => m) m) = true := by
    intro l
    induction l with
    | nil => exact fun _ hm => hm
    | cons x r ih =>
      intro m hm
      refine ih _ ?_
      dsimp only
      split
      · split
        · exact hm
        · exact mwrite_wf _ _ _ hm
      · exact hm
  exact key _ _ h.2.1

theorem State.scrub_keeps {g : Pledge} (s : State) (a n : Nat) (h : s.Keeps g) : (s.scrub a n).Keeps g :=
  ⟨h.1, mzero_wf _ _ _ h.2.1, h.2.2⟩

theorem State.scrubGranules_keeps {g : Pledge} (s : State) (size : Nat) (l : List Nat) (h : s.Keeps g) :
    (State.scrubGranules s size l).Keeps g := by
  unfold State.scrubGranules
  try dsimp only
  repeat' first
    | with_reducible assumption | with_reducible apply forEach_keeps | with_reducible apply State.scrub_keeps
    | (intro st x hst; try dsimp only)

theorem State.regionRead_keeps {g : Pledge} (s : State) (r : Region) (off a n : Nat) (obs : List BlockObs) (h : s.Keeps g) :
    (State.regionRead s r off a n obs).1.Keeps g := by
  unfold State.regionRead
  try dsimp only
  repeat' first
    | with_reducible assumption | with_reducible apply State.memRead_keeps | split

theorem State.regionWrite_keeps {g : Pledge} (s : State) (r : Region) (off a : Nat) (data : Bytes) (obs : List BlockObs) (h : s.Keeps g) :
    (s.regionWrite r off a data obs).1.Keeps g := by
  unfold State.regionWrite
  split
  · exact State.memWrite_keeps s a data obs h
  · exact keeps_of_fields (fields_of_keeps (State.memWriteIn_keeps s _ _ obs a _ h))

/-! ### Mail -/

theorem Plan.run_keeps {g : Pledge} (p : Plan) (s : State) (hp : p.Keeps g) (h : s.Keeps g) : (p.run s).1.Keeps g := hp s h

theorem State.modMbx_keeps {g : Pledge} (s : State) (f : FuncId) (x : Mbx → Mbx) (h : s.Keeps g) :
    (State.modMbx s f x).Keeps g := by
  unfold State.modMbx
  try dsimp only
  repeat' first
    | with_reducible assumption | with_reducible apply State.modFunc_keeps

theorem State.respond_keeps {g : Pledge} (s : State) (f : FuncId) (elapsed : Nat) (r : Reply) (h : s.Keeps g) :
    (State.respond s f elapsed r).Keeps g := by
  unfold State.respond
  try dsimp only
  repeat' first
    | with_reducible assumption | with_reducible apply State.modMbx_keeps | with_reducible apply State.signal_keeps
    | with_reducible apply keeps_ite

theorem State.answer_keeps {g : Pledge} (s : State) (f : FuncId) (r : Reply) (h : s.Keeps g) : (State.answer s f r).Keeps g := by
  unfold State.answer
  try dsimp only
  repeat' first
    | with_reducible assumption | with_reducible apply State.fresh_keeps | with_reducible apply State.respond_keeps

theorem State.answerLong_keeps {g : Pledge} (s : State) (f : FuncId) (r : Reply) (h : s.Keeps g) :
    (State.answerLong s f r).Keeps g := by
  unfold State.answerLong
  try dsimp only
  repeat' first
    | with_reducible assumption | with_reducible apply State.respond_keeps | with_reducible apply State.modMbx_keeps
    | with_reducible apply keeps_ite

theorem State.take_keeps {g : Pledge} (s : State) (f : FuncId) (h : s.Keeps g) : (State.take s f).Keeps g := by
  unfold State.take
  try dsimp only
  repeat' first
    | with_reducible assumption | with_reducible apply State.modMbx_keeps | with_reducible apply State.fresh_keeps

theorem State.hardwareBusy_keeps {g : Pledge} (s : State) (f : FuncId) (h : s.Keeps g) : (State.hardwareBusy s f).Keeps g := by
  unfold State.hardwareBusy
  try dsimp only
  repeat' first
    | with_reducible assumption | with_reducible apply State.respond_keeps | with_reducible apply State.modMbx_keeps
    | with_reducible apply State.fresh_keeps

theorem State.runCommandC_keeps {g : Pledge} (s : State) (f : FuncId) (op : Nat) (dry : Cmd → State → Bytes)
    (plan : Cmd → State → Plan) (h : s.Keeps g) (hf : ∀ c st, (plan c st).Keeps g) : (s.runCommandC f op dry plan).Keeps g := by
  unfold State.runCommandC
  simp only
  split
  · exact h
  · split
    · exact State.answer_keeps _ _ _ (State.take_keeps _ _ h)
    · split
      · exact State.answer_keeps _ _ _ (State.take_keeps _ _ h)
      · have hr := hf (s.cmd f) s _ (State.take_keeps s f h)
        split
        · exact State.answer_keeps _ _ _ (keeps_of_fst (by assumption) hr)
        · exact State.modMbx_keeps _ _ _ (keeps_of_fst (by assumption) hr)

theorem State.runCommand_keeps {g : Pledge} (s : State) (f : FuncId) (op : Nat) (plan : Cmd → State → Plan) (h : s.Keeps g)
     (hf : ∀ c st, (plan c st).Keeps g) : (State.runCommand s f op plan).Keeps g := by
  unfold State.runCommand
  try dsimp only
  repeat' first
    | with_reducible assumption | with_reducible apply State.runCommandC_keeps

theorem queryPlan_keeps {g : Pledge} (managerOnly : Bool) (size : Nat) (checks : List Check) (p : State → Bytes) :
    (queryPlan managerOnly size checks p).Keeps g := fun _ h => h

theorem setPlan_keeps {g : Pledge} (managerOnly : Bool) (size : Nat) (checks : List Check) (k : State → State)
    (hf : ∀ st, st.Keeps g → (k st).Keeps g) : (setPlan managerOnly size checks k).Keeps g := fun s h => hf s h

/-! ### Transfer -/

theorem State.setPath_keeps {g : Pledge} (s : State) (p : PathState) (h : s.Keeps g) : (State.setPath s p).Keeps g := by
  unfold State.setPath
  try dsimp only
  repeat' first
    | with_reducible assumption | (with_reducible apply keeps_of_fields; dsimp only; with_reducible apply fields_of_keeps)

theorem State.countPath_keeps {g : Pledge} (s : State) (f : FuncId) (viaRoot write : Bool) (n : Nat) (h : s.Keeps g) :
    (State.countPath s f viaRoot write n).Keeps g := by
  unfold State.countPath
  try dsimp only
  repeat' first
    | with_reducible assumption | with_reducible apply State.count_keeps

theorem State.countAccess_keeps {g : Pledge} (s : State) (slot off n : Nat) (h : s.Keeps g) :
    (State.countAccess s slot off n).Keeps g := by
  unfold State.countAccess
  try dsimp only
  repeat' first
    | with_reducible assumption | (with_reducible apply keeps_of_fields; dsimp only; with_reducible apply fields_of_keeps)
    | with_reducible apply keeps_ite | split

theorem State.dropXfer_keeps {g : Pledge} (s : State) (x : Nat) (h : s.Keeps g) : (State.dropXfer s x).Keeps g := by
  unfold State.dropXfer
  try dsimp only
  repeat' first
    | with_reducible assumption | with_reducible apply forEach_keeps | with_reducible apply State.undefine_keeps
    | (with_reducible apply keeps_of_fields; dsimp only; with_reducible apply fields_of_keeps) | with_reducible apply keeps_ite
    | split | (intro st x hst; try dsimp only)

theorem State.endXfer_keeps {g : Pledge} (s : State) (x : Nat) (r : XResult) (h : s.Keeps g) : (State.endXfer s x r).Keeps g := by
  unfold State.endXfer
  try dsimp only
  repeat' first
    | with_reducible assumption | with_reducible apply State.dropXfer_keeps | with_reducible apply State.count_keeps
    | (with_reducible apply keeps_of_fields; dsimp only; with_reducible apply fields_of_keeps) | with_reducible apply keeps_ite
    | split

theorem State.modXfer_keeps {g : Pledge} (s : State) (x : Nat) (y : Xfer → Xfer) (h : s.Keeps g) :
    (State.modXfer s x y).Keeps g := by
  unfold State.modXfer
  try dsimp only
  repeat' first
    | with_reducible assumption | (with_reducible apply keeps_of_fields; dsimp only; with_reducible apply fields_of_keeps)

theorem State.checkXfer_keeps {g : Pledge} (s : State) (x : Nat) (h : s.Keeps g) : (State.checkXfer s x).Keeps g := by
  unfold State.checkXfer
  try dsimp only
  repeat' first
    | with_reducible assumption | with_reducible apply State.endXfer_keeps | with_reducible apply keeps_ite | split

theorem State.entryIssued_keeps {g : Pledge} (s : State) (x : Nat) (h : s.Keeps g) : (State.entryIssued s x).Keeps g := by
  unfold State.entryIssued
  try dsimp only
  repeat' first
    | with_reducible assumption | with_reducible apply State.modXfer_keeps
    | (with_reducible apply keeps_of_fields; dsimp only; with_reducible apply fields_of_keeps) | with_reducible apply keeps_ite
    | split

theorem State.startFlush_keeps {g : Pledge} (s : State) (t : Xfer) (covers : List Nat) (addr : Nat) (probe replay : Bool)
     (h : s.Keeps g) : (State.startFlush s t covers addr probe replay).Keeps g := by
  unfold State.startFlush
  try dsimp only
  repeat' first
    | with_reducible assumption | with_reducible apply State.newId_keeps | with_reducible apply State.fabSend_keeps
    | with_reducible apply State.count_keeps | with_reducible apply State.emit_keeps
    | (with_reducible apply keeps_of_fields; dsimp only; with_reducible apply fields_of_keeps)

theorem State.overwriteHost_keeps {g : Pledge} (s : State) (t : Xfer) (p : XPiece) (h : s.Keeps g) :
    (State.overwriteHost s t p).Keeps g := by
  unfold State.overwriteHost
  try dsimp only
  repeat' first
    | with_reducible assumption | (with_reducible apply keeps_of_fields; dsimp only; with_reducible apply fields_of_keeps)

theorem State.emitWrites_keeps {g : Pledge} (s : State) (r : Region) (t : Xfer) (h : s.Keeps g) :
    (State.emitWrites s r t).Keeps g := by
  unfold State.emitWrites
  try dsimp only
  repeat' first
    | with_reducible assumption | with_reducible apply forEach_keeps | with_reducible apply State.emit_keeps
    | with_reducible apply State.setPath_keeps | with_reducible apply State.overwriteHost_keeps
    | with_reducible apply State.countAccess_keeps | with_reducible apply State.countPath_keeps
    | (intro st x hst; try dsimp only)

theorem State.fabXfer_keeps {g : Pledge} (s : State) (t : Xfer) (h : s.Keeps g) : (State.fabXfer s t).Keeps g := by
  unfold State.fabXfer
  try dsimp only
  repeat' first
    | with_reducible assumption | with_reducible apply forEach_keeps | with_reducible apply State.fabSend_keeps | split
    | (intro st x hst; try dsimp only)

theorem State.issueXfer_keeps {g : Pledge} (s0 : State) (x : Nat) (r : Region) (t : Xfer) (pieces : List XPiece)
     (h : s0.Keeps g) : (State.issueXfer s0 x r t pieces).Keeps g := by
  unfold State.issueXfer
  try dsimp only
  repeat' first
    | with_reducible assumption | with_reducible apply State.fabXfer_keeps | with_reducible apply State.modLink_keeps
    | with_reducible apply State.emitWrites_keeps | with_reducible apply State.startFlush_keeps
    | with_reducible apply forEach_keeps | with_reducible apply State.countAccess_keeps
    | with_reducible apply State.countPath_keeps | with_reducible apply State.emit_keeps
    | with_reducible apply State.entryIssued_keeps | with_reducible apply State.checkXfer_keeps
    | (with_reducible apply keeps_of_fields; dsimp only; with_reducible apply fields_of_keeps) | with_reducible apply keeps_ite
    | (intro st x hst; try dsimp only)

theorem State.requestXlate_keeps {g : Pledge} (s : State) (x : Nat) (r : Region) (t : Xfer) (off : Nat) (h : s.Keeps g) :
    (State.requestXlate s x r t off).Keeps g := by
  unfold State.requestXlate
  try dsimp only
  repeat' first
    | with_reducible assumption | with_reducible apply State.modXfer_keeps | with_reducible apply State.newId_keeps
    | with_reducible apply State.fabSend_keeps | with_reducible apply State.emit_keeps
    | (with_reducible apply keeps_of_fields; dsimp only; with_reducible apply fields_of_keeps) | with_reducible apply keeps_ite

theorem State.requestMirror_keeps {g : Pledge} (s : State) (x : Nat) (r : Region) (t : Xfer) (off : Nat) (h : s.Keeps g) :
    (State.requestMirror s x r t off).Keeps g := by
  unfold State.requestMirror
  try dsimp only
  repeat' first
    | with_reducible assumption | with_reducible apply State.modXfer_keeps | with_reducible apply State.newId_keeps
    | with_reducible apply State.countPath_keeps | with_reducible apply State.emit_keeps
    | (with_reducible apply keeps_of_fields; dsimp only; with_reducible apply fields_of_keeps) | with_reducible apply keeps_ite

theorem State.tryXfer_keeps {g : Pledge} (s : State) (x : Nat) (h : s.Keeps g) : (State.tryXfer s x).Keeps g := by
  unfold State.tryXfer
  try dsimp only
  repeat' first
    | with_reducible assumption | with_reducible apply State.endXfer_keeps | with_reducible apply State.modXfer_keeps
    | with_reducible apply State.issueXfer_keeps | with_reducible apply State.requestMirror_keeps
    | with_reducible apply State.requestXlate_keeps | with_reducible apply keeps_ite | split

theorem State.startXfer_keeps {g : Pledge} (s : State) (f : FuncId) (slot : Nat) (spans : List (Nat × Nat)) (write : Bool)
     (data : Bytes) (purpose : Purpose) (h : s.Keeps g) : (State.startXfer s f slot spans write data purpose).Keeps g := by
  unfold State.startXfer
  try dsimp only
  repeat' first
    | with_reducible assumption | with_reducible apply State.newId_keeps | with_reducible apply State.tryXfer_keeps
    | (with_reducible apply keeps_of_fields; dsimp only; with_reducible apply fields_of_keeps)

theorem State.startRead_keeps {g : Pledge} (s : State) (f : FuncId) (k : Word32) (off len : Nat) (p : Purpose) (h : s.Keeps g) :
    (State.startRead s f k off len p).Keeps g := by
  unfold State.startRead
  try dsimp only
  repeat' first
    | with_reducible assumption | with_reducible apply State.startXfer_keeps

theorem State.startWrite_keeps {g : Pledge} (s : State) (f : FuncId) (k : Word32) (off : Nat) (data : Bytes) (p : Purpose)
     (h : s.Keeps g) : (State.startWrite s f k off data p).Keeps g := by
  unfold State.startWrite
  try dsimp only
  repeat' first
    | with_reducible assumption | with_reducible apply State.startXfer_keeps

theorem State.retryParked_keeps {g : Pledge} (s : State) (l : LinkId) (h : s.Keeps g) : (State.retryParked s l).Keeps g := by
  unfold State.retryParked
  try dsimp only
  repeat' first
    | with_reducible assumption | with_reducible apply forEach_keeps | with_reducible apply State.tryXfer_keeps
    | with_reducible apply keeps_ite

theorem State.retryFab_keeps {g : Pledge} (s : State) (h : s.Keeps g) : (State.retryFab s).Keeps g := by
  unfold State.retryFab
  try dsimp only
  repeat' first
    | with_reducible assumption | with_reducible apply forEach_keeps | with_reducible apply State.tryXfer_keeps

theorem State.fabAnswer_keeps {g : Pledge} (s : State) (t : Xfer) (h : s.Keeps g) : (State.fabAnswer s t).Keeps g := by
  unfold State.fabAnswer
  try dsimp only
  repeat' first
    | with_reducible assumption | with_reducible apply forEach_keeps | with_reducible apply State.fabSend_keeps | split
    | (intro st x hst; try dsimp only)

theorem State.readPieces_keeps {g : Pledge} (s : State) (r : Region) (ps : List XPiece) (obs : List BlockObs) (h : s.Keeps g) :
    (s.readPieces r ps obs).1.Keeps g := by
  induction ps generalizing s obs with
  | nil => exact h
  | cons p rest ih =>
    simp only [State.readPieces]
    split
    · exact ih _ _ h
    · split
      · exact ih _ _ (State.regionRead_keeps _ _ _ _ _ _ h)
      · exact ih _ _ (State.memRead_keeps _ _ _ _ h)

theorem State.slotRead_keeps {g : Pledge} (s : State) (x : Nat) (t : Xfer) (obs : List BlockObs) (h : s.Keeps g) :
    (State.slotRead s x t obs).Keeps g := by
  unfold State.slotRead
  try dsimp only
  repeat' first
    | with_reducible assumption | with_reducible apply State.decodeBlocks_keeps | with_reducible apply State.countMem_keeps
    | with_reducible apply State.fabAnswer_keeps | with_reducible apply State.endXfer_keeps

theorem State.memReadDone_keeps {g : Pledge} (s : State) (x : Nat) (obs : List BlockObs) (h : s.Keeps g) :
    (State.memReadDone s x obs).Keeps g := by
  unfold State.memReadDone
  try dsimp only
  repeat' first
    | with_reducible assumption | with_reducible apply State.slotRead_keeps | with_reducible apply State.endXfer_keeps
    | with_reducible apply State.readPieces_keeps | with_reducible apply State.fabAnswer_keeps
    | with_reducible apply forEach_keeps | with_reducible apply State.recode_keeps | with_reducible apply State.modXfer_keeps
    | with_reducible apply State.checkXfer_keeps | with_reducible apply keeps_ite | split | (intro st x hst; try dsimp only)

theorem State.writePieces_keeps {g : Pledge} (s : State) (r : Region) (ps : List XPiece) (obs : List BlockObs) (h : s.Keeps g) :
    (s.writePieces r ps obs).Keeps g := by
  induction ps generalizing s obs with
  | nil => exact h
  | cons p rest ih =>
    simp only [State.writePieces]
    split
    · exact ih _ _ h
    · split
      · exact ih _ _ (State.regionWrite_keeps _ _ _ _ _ _ h)
      · exact ih _ _ (State.memWrite_keeps _ _ _ _ h)

theorem State.memWriteDone_keeps {g : Pledge} (s : State) (x : Nat) (obs : List BlockObs) (h : s.Keeps g) :
    (State.memWriteDone s x obs).Keeps g := by
  unfold State.memWriteDone
  try dsimp only
  repeat' first
    | with_reducible assumption | with_reducible apply State.endXfer_keeps | with_reducible apply State.writePieces_keeps
    | with_reducible apply State.fabAnswer_keeps | with_reducible apply State.ownWrite_keeps
    | with_reducible apply State.checkXfer_keeps | with_reducible apply State.modXfer_keeps | with_reducible apply keeps_ite
    | split

theorem State.mirrorRead_keeps {g : Pledge} (s : State) (x : Nat) (t : Xfer) (slot page : Nat) (bytes : Bytes) (h : s.Keeps g) :
    (State.mirrorRead s x t slot page bytes).Keeps g := by
  unfold State.mirrorRead
  try dsimp only
  repeat' first
    | with_reducible assumption | with_reducible apply State.dropXfer_keeps | with_reducible apply State.modLink_keeps
    | with_reducible apply forEach_keeps | with_reducible apply State.endXfer_keeps | with_reducible apply State.tryXfer_keeps
    | with_reducible apply keeps_ite | split | (intro st x hst; try dsimp only)

theorem State.noteSource_keeps {g : Pledge} (s : State) (t : Xfer) (h : s.Keeps g) : (State.noteSource s t).Keeps g := by
  unfold State.noteSource
  try dsimp only
  repeat' first
    | with_reducible assumption | with_reducible apply State.modRing_keeps | split

theorem State.hostReadDone_keeps {g : Pledge} (s : State) (x : Nat) (bytes : Bytes) (h : s.Keeps g) :
    (State.hostReadDone s x bytes).Keeps g := by
  unfold State.hostReadDone
  try dsimp only
  repeat' first
    | with_reducible assumption | with_reducible apply State.mirrorRead_keeps | with_reducible apply State.fabSend_keeps
    | with_reducible apply State.checkXfer_keeps | with_reducible apply State.modXfer_keeps
    | with_reducible apply State.noteSource_keeps | with_reducible apply keeps_ite | split

theorem State.notePeer_keeps {g : Pledge} (s : State) (q : XlateReq) (h : s.Keeps g) : (State.notePeer s q).Keeps g := by
  unfold State.notePeer
  try dsimp only
  repeat' first
    | with_reducible assumption | (with_reducible apply keeps_of_fields; dsimp only; with_reducible apply fields_of_keeps)

theorem State.pageFault_keeps {g : Pledge} (s : State) (x : Nat) (q : XlateReq) (off : Nat) (h : s.Keeps g) :
    (State.pageFault s x q off).Keeps g := by
  unfold State.pageFault
  try dsimp only
  repeat' first
    | with_reducible assumption | with_reducible apply State.endXfer_keeps | with_reducible apply State.modXfer_keeps
    | with_reducible apply State.newId_keeps | with_reducible apply State.fabSend_keeps | with_reducible apply State.emit_keeps
    | with_reducible apply State.notePeer_keeps
    | (with_reducible apply keeps_of_fields; dsimp only; with_reducible apply fields_of_keeps) | with_reducible apply keeps_ite
    | split

theorem State.xlateDone_keeps {g : Pledge} (s : State) (id : Nat) (ans : AtsAnswer) (h : s.Keeps g) :
    (State.xlateDone s id ans).Keeps g := by
  unfold State.xlateDone
  try dsimp only
  repeat' first
    | with_reducible assumption | with_reducible apply State.fabSend_keeps | with_reducible apply State.modLink_keeps
    | with_reducible apply forEach_keeps | with_reducible apply State.pageFault_keeps | with_reducible apply State.tryXfer_keeps
    | with_reducible apply State.retryParked_keeps
    | (with_reducible apply keeps_of_fields; dsimp only; with_reducible apply fields_of_keeps) | with_reducible apply keeps_ite
    | split | (intro st x hst; try dsimp only)

theorem State.pageDone_keeps {g : Pledge} (s : State) (id : Nat) (ok stop : Bool) (h : s.Keeps g) :
    (State.pageDone s id ok stop).Keeps g := by
  unfold State.pageDone
  try dsimp only
  repeat' first
    | with_reducible assumption | with_reducible apply State.modFunc_keeps | with_reducible apply State.retryParked_keeps
    | with_reducible apply forEach_keeps | with_reducible apply State.tryXfer_keeps | with_reducible apply State.endXfer_keeps
    | (with_reducible apply keeps_of_fields; dsimp only; with_reducible apply fields_of_keeps) | with_reducible apply keeps_ite
    | split | (intro st x hst; try dsimp only)

theorem State.pageAnswered_keeps {g : Pledge} (s : State) (id : Nat) (ok stop : Bool) (h : s.Keeps g) :
    (State.pageAnswered s id ok stop).Keeps g := by
  unfold State.pageAnswered
  try dsimp only
  repeat' first
    | with_reducible assumption | with_reducible apply State.pageDone_keeps | with_reducible apply State.fabSend_keeps
    | with_reducible apply keeps_ite | split

theorem State.hostVisible_keeps {g : Pledge} (s : State) (x : Nat) (h : s.Keeps g) : (State.hostVisible s x).Keeps g := by
  unfold State.hostVisible
  try dsimp only
  repeat' first
    | with_reducible assumption | with_reducible apply State.checkXfer_keeps | with_reducible apply State.modXfer_keeps

theorem State.liftFence_keeps {g : Pledge} (s : State) (f : FuncId) (l : LinkId) (v : Bool) (h : s.Keeps g) :
    (State.liftFence s f l v).Keeps g := by
  unfold State.liftFence
  try dsimp only
  repeat' first
    | with_reducible assumption | with_reducible apply State.setPath_keeps

theorem State.flushDone_keeps {g : Pledge} (s : State) (id : Nat) (h : s.Keeps g) : (State.flushDone s id).Keeps g := by
  unfold State.flushDone
  try dsimp only
  repeat' first
    | with_reducible assumption | with_reducible apply State.fabSend_keeps | with_reducible apply State.liftFence_keeps
    | with_reducible apply forEach_keeps | with_reducible apply State.hostVisible_keeps
    | (with_reducible apply keeps_of_fields; dsimp only; with_reducible apply fields_of_keeps) | split

theorem State.fencePath_keeps {g : Pledge} (s : State) (f : FuncId) (l : LinkId) (v : Bool) (h : s.Keeps g) :
    (State.fencePath s f l v).Keeps g := by
  unfold State.fencePath
  try dsimp only
  repeat' first
    | with_reducible assumption | with_reducible apply State.fault_keeps | with_reducible apply State.setPath_keeps
    | with_reducible apply forEach_keeps | with_reducible apply State.endXfer_keeps
    | (with_reducible apply keeps_of_fields; dsimp only; with_reducible apply fields_of_keeps)
    | (intro st x hst; try dsimp only)

theorem State.rereadCopy_keeps {g : Pledge} (s : State) (x : Nat) (t : Xfer) (kept : List (Nat × Nat)) (replay : Bool)
     (h : s.Keeps g) : (State.rereadCopy s x t kept replay).Keeps g := by
  unfold State.rereadCopy
  try dsimp only
  repeat' first
    | with_reducible assumption | with_reducible apply State.dropXfer_keeps
    | (with_reducible apply keeps_of_fields; dsimp only; with_reducible apply fields_of_keeps) | split

theorem State.replayFlush_keeps {g : Pledge} (s : State) (l : LinkId) (h : s.Keeps g) : (State.replayFlush s l).Keeps g := by
  unfold State.replayFlush
  try dsimp only
  repeat' first
    | with_reducible assumption | with_reducible apply forEach_keeps | with_reducible apply State.startFlush_keeps | split
    | (intro st x hst; try dsimp only)

theorem State.replayStep_keeps {g : Pledge} (fuel : Nat) (s : State) (l : LinkId) (h : s.Keeps g) :
    (State.replayStep fuel s l).Keeps g := by
  induction fuel generalizing s l with
  | zero => exact h
  | succ k ih =>
    unfold State.replayStep
    try dsimp only
    repeat' first
      | with_reducible apply ih | with_reducible assumption | with_reducible apply State.endXfer_keeps
      | with_reducible apply State.modXfer_keeps | with_reducible apply State.emitWrites_keeps
      | with_reducible apply State.fabXfer_keeps | with_reducible apply State.tryXfer_keeps
      | with_reducible apply State.replayFlush_keeps | with_reducible apply keeps_ite | split

theorem State.replayRun_keeps {g : Pledge} (s : State) (l : LinkId) (h : s.Keeps g) : (State.replayRun s l).Keeps g := by
  unfold State.replayRun
  try dsimp only
  repeat' first
    | with_reducible assumption | with_reducible apply State.replayStep_keeps | with_reducible apply keeps_ite

theorem State.replayWrites_keeps {g : Pledge} (s : State) (l : LinkId) (ids : List Nat) (h : s.Keeps g) :
    (State.replayWrites s l ids).Keeps g := by
  unfold State.replayWrites
  try dsimp only
  repeat' first
    | with_reducible assumption | with_reducible apply State.replayRun_keeps | with_reducible apply forEach_keeps
    | with_reducible apply State.rereadCopy_keeps
    | (with_reducible apply keeps_of_fields; dsimp only; with_reducible apply fields_of_keeps)
    | (intro st x hst; try dsimp only)

theorem State.flushFail_keeps {g : Pledge} (s : State) (id : Nat) (h : s.Keeps g) : (State.flushFail s id).Keeps g := by
  unfold State.flushFail
  try dsimp only
  repeat' first
    | with_reducible assumption | with_reducible apply State.fault_keeps | with_reducible apply State.setPath_keeps
    | with_reducible apply State.fencePath_keeps | with_reducible apply State.replayWrites_keeps
    | (with_reducible apply keeps_of_fields; dsimp only; with_reducible apply fields_of_keeps) | with_reducible apply keeps_ite
    | split

theorem State.probeLink_keeps {g : Pledge} (s : State) (l : LinkId) (h : s.Keeps g) : (State.probeLink s l).Keeps g := by
  unfold State.probeLink
  try dsimp only
  repeat' first
    | with_reducible assumption | with_reducible apply forEach_keeps | with_reducible apply State.startFlush_keeps
    | with_reducible apply keeps_ite | (intro st x hst; try dsimp only)

theorem State.dropMirrorReads_keeps {g : Pledge} (s : State) (slot : Nat) (page : Nat → Bool) (h : s.Keeps g) :
    (State.dropMirrorReads s slot page).Keeps g := by
  unfold State.dropMirrorReads
  try dsimp only
  repeat' first
    | with_reducible assumption | with_reducible apply forEach_keeps | with_reducible apply State.dropXfer_keeps
    | with_reducible apply State.tryXfer_keeps | with_reducible apply State.modXfer_keeps | with_reducible apply keeps_ite
    | split | (intro st x hst; try dsimp only)

theorem State.rewait_keeps {g : Pledge} (s : State) (slot off len : Nat) (h : s.Keeps g) :
    (State.rewait s slot off len).Keeps g := by
  unfold State.rewait
  try dsimp only
  repeat' first
    | with_reducible assumption | with_reducible apply forEach_keeps | with_reducible apply State.tryXfer_keeps
    | with_reducible apply State.modXfer_keeps | (intro st x hst; try dsimp only)

theorem State.staleXlates_keeps {g : Pledge} (s : State) (hit : XlateReq → Bool) (h : s.Keeps g) :
    (State.staleXlates s hit).Keeps g := by
  unfold State.staleXlates
  try dsimp only
  repeat' first
    | with_reducible assumption | with_reducible apply forEach_keeps | with_reducible apply State.tryXfer_keeps
    | with_reducible apply State.modXfer_keeps
    | (with_reducible apply keeps_of_fields; dsimp only; with_reducible apply fields_of_keeps)
    | (intro st x hst; try dsimp only)

theorem State.startInval_keeps {g : Pledge} (s : State) (l : LinkId) (drop : AtcEntry → Bool) (reach : Reach) (v : Inval)
     (h : s.Keeps g) : (State.startInval s l drop reach v).2.Keeps g := by
  unfold State.startInval
  try dsimp only
  repeat' first
    | with_reducible assumption | with_reducible apply State.modLink_keeps | with_reducible apply forEach_keeps
    | with_reducible apply State.endXfer_keeps | with_reducible apply State.rereadCopy_keeps
    | with_reducible apply State.dropXfer_keeps | with_reducible apply State.newId_keeps
    | (with_reducible apply keeps_of_fields; dsimp only; with_reducible apply fields_of_keeps) | with_reducible apply keeps_ite
    | split | (intro st x hst; try dsimp only)

theorem State.endInval_keeps {g : Pledge} (s : State) (id : Nat) (h : s.Keeps g) : (State.endInval s id).Keeps g := by
  unfold State.endInval
  try dsimp only
  repeat' first
    | with_reducible assumption | with_reducible apply forEach_keeps | with_reducible apply State.endXfer_keeps
    | with_reducible apply State.emit_keeps | with_reducible apply State.answerLong_keeps
    | with_reducible apply State.retryParked_keeps
    | (with_reducible apply keeps_of_fields; dsimp only; with_reducible apply fields_of_keeps) | with_reducible apply keeps_ite
    | split | (intro st x hst; try dsimp only)

theorem State.endInvals_keeps {g : Pledge} (s : State) (h : s.Keeps g) : (State.endInvals s).Keeps g := by
  unfold State.endInvals
  try dsimp only
  repeat' first
    | with_reducible assumption | with_reducible apply forEach_keeps | with_reducible apply State.endInval_keeps

theorem State.abandonReads_keeps {g : Pledge} (s : State) (id : Nat) (h : s.Keeps g) : (State.abandonReads s id).Keeps g := by
  unfold State.abandonReads
  try dsimp only
  repeat' first
    | with_reducible assumption | with_reducible apply forEach_keeps | with_reducible apply State.newId_keeps
    | with_reducible apply State.dropXfer_keeps | with_reducible apply State.endXfer_keeps
    | (with_reducible apply keeps_of_fields; dsimp only; with_reducible apply fields_of_keeps) | split
    | (intro st x hst; try dsimp only)

theorem State.destroyRegion_keeps {g : Pledge} (s : State) (slot : Nat) (mail : Bool) (issuer : FuncId) (h : s.Keeps g) :
    (State.destroyRegion s slot mail issuer).2.Keeps g := by
  unfold State.destroyRegion
  try dsimp only
  repeat' first
    | with_reducible assumption | with_reducible apply State.newId_keeps | with_reducible apply forEach_keeps
    | with_reducible apply State.endXfer_keeps | with_reducible apply State.dropMirrorReads_keeps
    | with_reducible apply State.startInval_keeps | split | (intro st x hst; try dsimp only)

theorem State.loseLink_keeps {g : Pledge} (s : State) (l : LinkId) (h : s.Keeps g) : (State.loseLink s l).Keeps g := by
  unfold State.loseLink
  try dsimp only
  repeat' first
    | with_reducible assumption | (with_reducible apply keeps_of_fields; dsimp only; with_reducible apply fields_of_keeps)

theorem State.replayLink_keeps {g : Pledge} (s : State) (l : LinkId) (h : s.Keeps g) : (State.replayLink s l).Keeps g := by
  unfold State.replayLink
  try dsimp only
  repeat' first
    | with_reducible assumption | with_reducible apply forEach_keeps | with_reducible apply State.modXfer_keeps
    | with_reducible apply State.countPath_keeps | with_reducible apply State.emit_keeps
    | with_reducible apply State.replayWrites_keeps | with_reducible apply State.modLink_keeps
    | with_reducible apply State.retryParked_keeps | with_reducible apply keeps_ite | (intro st x hst; try dsimp only)

theorem State.dropEntryRead_keeps {g : Pledge} (s : State) (f : FuncId) (r : Nat) (h : s.Keeps g) :
    (State.dropEntryRead s f r).Keeps g := by
  unfold State.dropEntryRead
  try dsimp only
  repeat' first
    | with_reducible assumption | with_reducible apply forEach_keeps | with_reducible apply State.dropXfer_keeps

theorem State.dropFunc_keeps {g : Pledge} (s : State) (f : FuncId) (h : s.Keeps g) : (State.dropFunc s f).Keeps g := by
  unfold State.dropFunc
  try dsimp only
  repeat' first
    | with_reducible assumption | with_reducible apply forEach_keeps | with_reducible apply State.dropXfer_keeps
    | (with_reducible apply keeps_of_fields; dsimp only; with_reducible apply fields_of_keeps)

/-! ### Completion -/

theorem State.noteCq_keeps {g : Pledge} (s : State) (f : FuncId) (c : Nat) (h : s.Keeps g) : (State.noteCq s f c).Keeps g := by
  unfold State.noteCq
  try dsimp only
  repeat' first
    | with_reducible assumption | with_reducible apply State.modCq_keeps | with_reducible apply State.count_keeps
    | with_reducible apply keeps_ite | split

theorem State.startCqe_keeps {g : Pledge} (s : State) (f : FuncId) (c l : Nat) (e : Cqe) (h : s.Keeps g) :
    (State.startCqe s f c l e).Keeps g := by
  unfold State.startCqe
  try dsimp only
  repeat' first
    | with_reducible assumption | with_reducible apply State.modCq_keeps | with_reducible apply State.startXfer_keeps
    | with_reducible apply keeps_ite | split

theorem State.writeCqe_keeps {g : Pledge} (s : State) (f : FuncId) (c : Nat) (e : Cqe) (h : s.Keeps g) :
    (State.writeCqe s f c e).Keeps g := by
  unfold State.writeCqe
  try dsimp only
  repeat' first
    | with_reducible assumption | with_reducible apply State.modCq_keeps | with_reducible apply State.startCqe_keeps
    | with_reducible apply keeps_ite | split

theorem State.nextCqe_keeps {g : Pledge} (s : State) (f : FuncId) (c : Nat) (h : s.Keeps g) : (State.nextCqe s f c).Keeps g := by
  unfold State.nextCqe
  try dsimp only
  repeat' first
    | with_reducible assumption | with_reducible apply State.startCqe_keeps | with_reducible apply State.modCq_keeps | split

theorem State.pullBackCqes_keeps {g : Pledge} (s : State) (f : FuncId) (c : Nat) (h : s.Keeps g) :
    (State.pullBackCqes s f c).Keeps g := by
  unfold State.pullBackCqes
  try dsimp only
  repeat' first
    | with_reducible assumption | with_reducible apply State.modCq_keeps | with_reducible apply State.dropXfer_keeps
    | with_reducible apply State.modPhys_keeps | split

theorem State.windrowRead_keeps {g : Pledge} (s : State) (f : FuncId) (c k : Nat) (e : Cqe) (o : BlockObs) (h : s.Keeps g) :
    (State.windrowRead s f c k e o).1.Keeps g := by
  unfold State.windrowRead
  try dsimp only
  repeat' first
    | with_reducible assumption | with_reducible apply State.decodeBlock_keeps

theorem State.pumpCq_keeps {g : Pledge} (fuel : Nat) (obs : List BlockObs) (s : State) (f : FuncId) (c : Nat) (h : s.Keeps g) :
    (State.pumpCq fuel obs s f c).Keeps g := by
  induction fuel generalizing obs s f c with
  | zero => exact h
  | succ k ih =>
    unfold State.pumpCq
    try dsimp only
    repeat' first
      | with_reducible apply ih | with_reducible assumption | with_reducible apply State.modCq_keeps
      | with_reducible apply State.writeCqe_keeps | with_reducible apply State.windrowRead_keeps
      | with_reducible apply keeps_ite | split

theorem State.drainCq_keeps {g : Pledge} (s : State) (f : FuncId) (c : Nat) (obs : List BlockObs) (h : s.Keeps g) :
    (State.drainCq s f c obs).Keeps g := by
  unfold State.drainCq
  try dsimp only
  repeat' first
    | with_reducible assumption | with_reducible apply State.noteCq_keeps | with_reducible apply State.pumpCq_keeps | split

theorem State.fireArm_keeps {g : Pledge} (s : State) (f : FuncId) (c : Nat) (h : s.Keeps g) : (State.fireArm s f c).Keeps g := by
  unfold State.fireArm
  try dsimp only
  repeat' first
    | with_reducible assumption | with_reducible apply State.signalBound_keeps | with_reducible apply State.modCq_keeps
    | with_reducible apply keeps_ite | split

theorem State.postCqe_keeps {g : Pledge} (s : State) (f : FuncId) (c : Nat) (e : Cqe) (held : Bool) (h : s.Keeps g) :
    (State.postCqe s f c e held).Keeps g := by
  unfold State.postCqe
  try dsimp only
  repeat' first
    | with_reducible assumption | with_reducible apply State.modCq_keeps | with_reducible apply State.writeCqe_keeps
    | with_reducible apply State.fireArm_keeps | with_reducible apply State.count_keeps
    | with_reducible apply State.noteCq_keeps | with_reducible apply keeps_ite | split

theorem State.reserveCq_keeps {g : Pledge} (s : State) (f : FuncId) (c n : Nat) (h : s.Keeps g) :
    ∀ out, State.reserveCq s f c n = some out → out.Keeps g := by
  unfold State.reserveCq
  try dsimp only
  repeat' first
    | with_reducible assumption | with_reducible apply State.noteCq_keeps | with_reducible apply State.modCq_keeps
    | with_reducible refine keeps_some ?_ | with_reducible exact keeps_none | split

theorem State.unreserveCq_keeps {g : Pledge} (s : State) (f : FuncId) (c n : Nat) (h : s.Keeps g) :
    (State.unreserveCq s f c n).Keeps g := by
  unfold State.unreserveCq
  try dsimp only
  repeat' first
    | with_reducible assumption | with_reducible apply State.noteCq_keeps | with_reducible apply State.modCq_keeps

theorem State.cqeWritten_keeps {g : Pledge} (s : State) (f : FuncId) (c idx : Nat) (e : Cqe) (r : XResult) (h : s.Keeps g) :
    (State.cqeWritten s f c idx e r).Keeps g := by
  unfold State.cqeWritten
  try dsimp only
  repeat' first
    | with_reducible assumption | with_reducible apply State.fireArm_keeps | with_reducible apply State.drainCq_keeps
    | with_reducible apply State.nextCqe_keeps | with_reducible apply State.modCq_keeps
    | with_reducible apply State.pullBackCqes_keeps | with_reducible apply State.signalBound_keeps
    | with_reducible apply State.fault_keeps | with_reducible apply State.noteCq_keeps | with_reducible apply keeps_ite | split

theorem State.faultCq_keeps {g : Pledge} (s : State) (f : FuncId) (c : Nat) (h : s.Keeps g) : (State.faultCq s f c).Keeps g := by
  unfold State.faultCq
  try dsimp only
  repeat' first
    | with_reducible assumption | with_reducible apply State.modCq_keeps | with_reducible apply State.pullBackCqes_keeps
    | with_reducible apply State.noteCq_keeps | with_reducible apply State.signalBound_keeps
    | with_reducible apply State.fault_keeps | with_reducible apply keeps_ite | split

theorem State.faultCqs_keeps {g : Pledge} (s : State) (f : FuncId) (h : s.Keeps g) : (State.faultCqs s f).Keeps g := by
  unfold State.faultCqs
  try dsimp only
  repeat' first
    | with_reducible assumption | with_reducible apply forEach_keeps | with_reducible apply State.faultCq_keeps
    | (intro st x hst; try dsimp only)

theorem State.setTrig_keeps {g : Pledge} (s : State) (f : FuncId) (n v : Nat) (h : s.Keeps g) :
    (State.setTrig s f n v).Keeps g := by
  unfold State.setTrig
  try dsimp only
  repeat' first
    | with_reducible assumption | with_reducible apply State.modFunc_keeps | with_reducible apply State.signal_keeps
    | with_reducible apply keeps_ite | split

theorem State.advanceTrig_keeps {g : Pledge} (s : State) (f : FuncId) (n add : Nat) (h : s.Keeps g) :
    (State.advanceTrig s f n add).Keeps g := by
  unfold State.advanceTrig
  try dsimp only
  repeat' first
    | with_reducible assumption | with_reducible apply State.setTrig_keeps | with_reducible apply State.fabSend_keeps | split

theorem State.pulseInput_keeps {g : Pledge} (s : State) (f : FuncId) (n : Nat) (h : s.Keeps g) :
    (State.pulseInput s f n).Keeps g := by
  unfold State.pulseInput
  try dsimp only
  repeat' first
    | with_reducible assumption | with_reducible apply State.count_keeps | with_reducible apply State.modProg_keeps
    | with_reducible apply keeps_ite | split

theorem State.pulse_keeps {g : Pledge} (s : State) (f : FuncId) (t : Nat) (h : s.Keeps g) : (State.pulse s f t).Keeps g := by
  unfold State.pulse
  try dsimp only
  repeat' first
    | with_reducible assumption | with_reducible apply State.advanceTrig_keeps | with_reducible apply State.pulseInput_keeps
    | with_reducible apply keeps_ite

theorem State.endTurn_keeps {g : Pledge} (s : State) (d : DieId) (f : FuncId) (r : Nat) (h : s.Keeps g) :
    (State.endTurn s d f r).Keeps g := by
  unfold State.endTurn
  try dsimp only
  repeat' first
    | with_reducible assumption | with_reducible apply State.modRing_keeps
    | (with_reducible apply keeps_of_fields; dsimp only; with_reducible apply fields_of_keeps)

theorem State.leaveSet_keeps {g : Pledge} (s : State) (d : DieId) (f : FuncId) (r : Nat) (x : Ring) (h : s.Keeps g) :
    (State.leaveSet s d f r x).Keeps g := by
  unfold State.leaveSet
  try dsimp only
  repeat' first
    | with_reducible assumption | with_reducible apply State.endTurn_keeps | with_reducible apply State.modRing_keeps
    | with_reducible apply keeps_ite

theorem State.ringError_keeps {g : Pledge} (s : State) (f : FuncId) (r idx : Nat) (h : s.Keeps g) :
    (State.ringError s f r idx).Keeps g := by
  unfold State.ringError
  try dsimp only
  repeat' first
    | with_reducible assumption | with_reducible apply State.signalBound_keeps | with_reducible apply State.fault_keeps
    | with_reducible apply State.modRing_keeps | with_reducible apply State.leaveSet_keeps
    | with_reducible apply State.dropEntryRead_keeps | with_reducible apply keeps_ite | split

theorem State.modJob_keeps {g : Pledge} (s : State) (f : FuncId) (r slot : Nat) (x : Job → Job) (h : s.Keeps g) :
    (State.modJob s f r slot x).Keeps g := by
  unfold State.modJob
  try dsimp only
  repeat' first
    | with_reducible assumption | with_reducible apply State.modRing_keeps

theorem State.writeBack_keeps {g : Pledge} (s : State) (f : FuncId) (r : Nat) (x : Ring) (slot at_ : Nat) (bytes : Bytes)
     (h : s.Keeps g) : (State.writeBack s f r x slot at_ bytes).Keeps g := by
  unfold State.writeBack
  try dsimp only
  repeat' first
    | with_reducible assumption | with_reducible apply State.startXfer_keeps

theorem State.pumpPosts_keeps {g : Pledge} (fuel : Nat) (s : State) (f : FuncId) (r : Nat) (h : s.Keeps g) :
    (State.pumpPosts fuel s f r).Keeps g := by
  induction fuel generalizing s f r with
  | zero => exact h
  | succ k ih =>
    unfold State.pumpPosts
    try dsimp only
    repeat' first
      | with_reducible apply ih | with_reducible assumption | with_reducible apply State.modRing_keeps
      | with_reducible apply State.postCqe_keeps | with_reducible apply State.writeBack_keeps | with_reducible apply keeps_ite
      | split

theorem State.completeJob_keeps {g : Pledge} (s : State) (f : FuncId) (r : Nat) (x : Ring) (j : Job) (h : s.Keeps g) :
    (State.completeJob s f r x j).Keeps g := by
  unfold State.completeJob
  try dsimp only
  repeat' first
    | with_reducible assumption | with_reducible apply State.unreserveCq_keeps | with_reducible apply State.pulse_keeps
    | with_reducible apply State.pumpPosts_keeps | with_reducible apply State.modRing_keeps
    | with_reducible apply State.count_keeps | with_reducible apply keeps_ite | split

theorem State.retireN_keeps {g : Pledge} (n : Nat) (s : State) (f : FuncId) (r : Nat) (h : s.Keeps g) :
    (State.retireN n s f r).Keeps g := by
  induction n generalizing s f r with
  | zero => exact h
  | succ k ih =>
    unfold State.retireN
    try dsimp only
    repeat' first
      | with_reducible apply ih | with_reducible assumption | with_reducible apply State.modRing_keeps
      | with_reducible apply State.completeJob_keeps | with_reducible apply keeps_ite | split

theorem State.retire_keeps {g : Pledge} (s : State) (f : FuncId) (r : Nat) (h : s.Keeps g) : (State.retire s f r).Keeps g := by
  unfold State.retire
  try dsimp only
  repeat' first
    | with_reducible assumption | with_reducible apply State.retireN_keeps | split

theorem State.writtenBack_keeps {g : Pledge} (s : State) (f : FuncId) (r : Nat) (h : s.Keeps g) :
    (State.writtenBack s f r).Keeps g := by
  unfold State.writtenBack
  try dsimp only
  repeat' first
    | with_reducible assumption | with_reducible apply State.retire_keeps | with_reducible apply State.pumpPosts_keeps
    | with_reducible apply State.modRing_keeps | with_reducible apply keeps_ite | split

theorem State.finishJob_keeps {g : Pledge} (s : State) (f : FuncId) (r slot status : Nat) (h : s.Keeps g) :
    (State.finishJob s f r slot status).Keeps g := by
  unfold State.finishJob
  try dsimp only
  repeat' first
    | with_reducible assumption | with_reducible apply State.modJob_keeps | with_reducible apply State.ringError_keeps
    | with_reducible apply State.retire_keeps | with_reducible apply keeps_ite | split

/-! ### Net -/

theorem State.routeFlow_keeps {g : Pledge} (s : State) (die : DieId) (node conn path : Nat) (epoch : Bool) (dscp : Nat)
     (h : s.Keeps g) : (State.routeFlow s die node conn path epoch dscp).1.Keeps g := by
  unfold State.routeFlow
  try dsimp only
  repeat' first
    | with_reducible assumption | (with_reducible apply keeps_of_fields; dsimp only; with_reducible apply fields_of_keeps)
    | split

theorem State.enqueueFrom_keeps {g : Pledge} (s : State) (u : FabUnit) (p : LPort) (cls : Nat) (q : QFrame) (h : s.Keeps g) :
    (State.enqueueFrom s u p cls q).Keeps g := by
  unfold State.enqueueFrom
  try dsimp only
  repeat' first
    | with_reducible assumption | with_reducible apply State.modPort_keeps | with_reducible apply State.fabSend_keeps

theorem State.enqueue_keeps {g : Pledge} (s : State) (p : LPort) (cls : Nat) (q : QFrame) (h : s.Keeps g) :
    (State.enqueue s p cls q).Keeps g := by
  unfold State.enqueue
  try dsimp only
  repeat' first
    | with_reducible assumption | with_reducible apply State.enqueueFrom_keeps

theorem State.rxCross_keeps {g : Pledge} (s : State) (p : LPort) (d : DieId) (len : Nat) (h : s.Keeps g) :
    (State.rxCross s p d len).Keeps g := by
  unfold State.rxCross
  try dsimp only
  repeat' first
    | with_reducible assumption | with_reducible apply State.fabSend_keeps

theorem State.enqueueFrame_keeps {g : Pledge} (s : State) (p : LPort) (dscp : Nat) (fr : TxFrame) (member : Option FuncId)
     (h : s.Keeps g) : (State.enqueueFrame s p dscp fr member).Keeps g := by
  unfold State.enqueueFrame
  try dsimp only
  repeat' first
    | with_reducible assumption | with_reducible apply State.enqueue_keeps

theorem State.egress_keeps {g : Pledge} (s : State) (n : Nat) (c : Conn) (path : Nat) (epoch : Bool) (h : s.Keeps g) :
    (State.egress s n c path epoch).1.Keeps g := by
  unfold State.egress
  try dsimp only
  repeat' first
    | with_reducible assumption | with_reducible apply State.routeFlow_keeps | split

theorem State.enqueueOwn_keeps {g : Pledge} (s : State) (p : LPort) (cls : Nat) (q : QFrame) (h : s.Keeps g) :
    (State.enqueueOwn s p cls q).Keeps g := by
  unfold State.enqueueOwn
  try dsimp only
  repeat' first
    | with_reducible assumption | with_reducible apply State.enqueue_keeps | with_reducible apply State.modPort_keeps
    | with_reducible apply keeps_ite

theorem State.flushOwn_keeps {g : Pledge} (s : State) (p : LPort) (h : s.Keeps g) : (State.flushOwn s p).Keeps g := by
  unfold State.flushOwn
  try dsimp only
  repeat' first
    | with_reducible assumption | with_reducible apply forEach_keeps | with_reducible apply State.modPort_keeps
    | with_reducible apply State.enqueueOwn_keeps | (intro st x hst; try dsimp only)

theorem State.modRelay_keeps {g : Pledge} (s : State) (x : Relay → Relay) (h : s.Keeps g) : (State.modRelay s x).Keeps g := by
  unfold State.modRelay
  try dsimp only
  repeat' first
    | with_reducible assumption | (with_reducible apply keeps_of_fields; dsimp only; with_reducible apply fields_of_keeps)

theorem State.sendUnreach_keeps {g : Pledge} (s : State) (node : Nat) (epoch : Bool) (dscp : BitVec 6) (h : s.Keeps g) :
    (State.sendUnreach s node epoch dscp).Keeps g := by
  unfold State.sendUnreach
  try dsimp only
  repeat' first
    | with_reducible assumption | with_reducible apply forEach_keeps | with_reducible apply State.enqueueOwn_keeps
    | (with_reducible apply keeps_of_fields; dsimp only; with_reducible apply fields_of_keeps) | with_reducible apply keeps_ite
    | (intro st x hst; try dsimp only)

theorem State.noRoute_keeps {g : Pledge} (s : State) (node : Nat) (epoch : Bool) (dscp : BitVec 6) (h : s.Keeps g) :
    (State.noRoute s node epoch dscp).Keeps g := by
  unfold State.noRoute
  try dsimp only
  repeat' first
    | with_reducible assumption | with_reducible apply State.sendUnreach_keeps | with_reducible apply State.modRelay_keeps

theorem State.modShaper_keeps {g : Pledge} (s : State) (f : FuncId) (n : Nat) (x : Shaper → Shaper) (h : s.Keeps g) :
    (State.modShaper s f n x).Keeps g := by
  unfold State.modShaper
  try dsimp only
  repeat' first
    | with_reducible assumption | with_reducible apply State.modFunc_keeps

theorem State.shapersHold_keeps {g : Pledge} (s : State) (f : FuncId) (l : List Nat) (h : s.Keeps g) :
    (State.shapersHold s f l).Keeps g := by
  unfold State.shapersHold
  try dsimp only
  repeat' first
    | with_reducible assumption | with_reducible apply forEach_keeps | with_reducible apply State.modShaper_keeps
    | (intro st x hst; try dsimp only)

theorem State.shapersCharge_keeps {g : Pledge} (s : State) (f : FuncId) (l : List Nat) (w : Nat) (h : s.Keeps g) :
    (State.shapersCharge s f l w).Keeps g := by
  unfold State.shapersCharge
  try dsimp only
  repeat' first
    | with_reducible assumption | with_reducible apply forEach_keeps | with_reducible apply State.modShaper_keeps
    | (intro st x hst; try dsimp only)

theorem State.startOn_keeps {g : Pledge} (s : State) (n : Nat) (c : Conn) (ring : Option Nat) (path : Nat) (epoch : Bool)
     (mk : LPort → TxFrame) (h : s.Keeps g) : (State.startOn s n c ring path epoch mk).1.Keeps g := by
  unfold State.startOn
  try dsimp only
  repeat' first
    | with_reducible assumption | with_reducible apply State.egress_keeps | with_reducible apply State.noRoute_keeps
    | with_reducible apply State.shapersHold_keeps | with_reducible apply State.modConn_keeps
    | with_reducible apply State.enqueueFrame_keeps | with_reducible apply State.shapersCharge_keeps
    | (refine keeps_of_fst (by with_reducible assumption) ?_)
    | (with_reducible apply keeps_of_fields; dsimp only; with_reducible apply fields_of_keeps) | with_reducible apply keeps_ite
    | split

theorem State.sendOn_keeps {g : Pledge} (s : State) (n : Nat) (c : Conn) (path : Nat) (epoch : Bool) (mk : LPort → TxFrame)
     (h : s.Keeps g) : (State.sendOn s n c path epoch mk).1.Keeps g := by
  unfold State.sendOn
  try dsimp only
  repeat' first
    | with_reducible assumption | with_reducible apply State.modTx_keeps | with_reducible apply State.startOn_keeps
    | (refine keeps_of_fst (by with_reducible assumption) ?_) | split

theorem State.sendHeld_keeps {g : Pledge} (s : State) (n : Nat) (l : List HeldPkt) (h : s.Keeps g) :
    (State.sendHeld s n l).1.Keeps g := by
  induction l generalizing s n with
  | nil => exact h
  | cons p rest ih =>
    unfold State.sendHeld
    try dsimp only
    repeat' first
      | with_reducible apply ih | with_reducible assumption | with_reducible apply State.modTx_keeps
      | with_reducible apply State.startOn_keeps | (refine keeps_of_fst (by with_reducible assumption) ?_) | split

end Sys2Proof.Machine
end

