-- ==== Sys2Proof/Laws/KeepsNet.lean ====
section
/-! SUPPORT. Laws/KeepsNet.lean: a pledge (Safety.lean) is kept by receiving, collectives and transmitting: one lemma for each function. -/

namespace Sys2Proof.Machine

/-! ### Rx -/

theorem State.pfcCheck_keeps {g : Pledge} (s : State) (p : LPort) (cls : Nat) (h : s.Keeps g) :
    (State.pfcCheck s p cls).Keeps g := by
  unfold State.pfcCheck
  try dsimp only
  repeat' first
    | with_reducible assumption | with_reducible apply State.modPort_keeps | with_reducible apply State.countPort_keeps
    | with_reducible apply State.emit_keeps | with_reducible apply keeps_ite

theorem State.rxHold_keeps {g : Pledge} (s : State) (p : LPort) (cls len : Nat) (h : s.Keeps g) :
    (State.rxHold s p cls len).Keeps g := by
  unfold State.rxHold
  try dsimp only
  repeat' first
    | with_reducible assumption | with_reducible apply State.pfcCheck_keeps | with_reducible apply State.modPort_keeps

theorem State.rxFree_keeps {g : Pledge} (s : State) (p : LPort) (cls len : Nat) (h : s.Keeps g) :
    (State.rxFree s p cls len).Keeps g := by
  unfold State.rxFree
  try dsimp only
  repeat' first
    | with_reducible assumption | with_reducible apply State.pfcCheck_keeps | with_reducible apply State.modPort_keeps

theorem State.rxKeep_keeps {g : Pledge} (s : State) (p : LPort) (owner : RxOwner) (cls len : Nat) (h : s.Keeps g) :
    (State.rxKeep s p owner cls len).Keeps g := by
  unfold State.rxKeep
  try dsimp only
  repeat' first
    | with_reducible assumption | with_reducible apply State.rxHold_keeps | with_reducible apply State.modPort_keeps

theorem State.freeHeld_keeps {g : Pledge} (s : State) (h : s.Keeps g) : (State.freeHeld s).Keeps g := by
  unfold State.freeHeld
  try dsimp only
  repeat' first
    | with_reducible assumption | with_reducible apply forEach_keeps | with_reducible apply State.modPort_keeps
    | with_reducible apply State.rxFree_keeps | with_reducible apply keeps_ite | (intro st x hst; try dsimp only)

theorem State.rxRelease_keeps {g : Pledge} (s : State) (n psn : Nat) (h : s.Keeps g) : (State.rxRelease s n psn).Keeps g := by
  unfold State.rxRelease
  try dsimp only
  repeat' first
    | with_reducible assumption | with_reducible apply State.modRx_keeps | with_reducible apply forEach_keeps
    | with_reducible apply State.rxFree_keeps | split | (intro st x hst; try dsimp only)

theorem State.initialCredit_keeps {g : Pledge} (s : State) (n : Nat) (h : s.Keeps g) : (State.initialCredit s n).Keeps g := by
  unfold State.initialCredit
  try dsimp only
  repeat' first
    | with_reducible assumption | with_reducible apply State.modRx_keeps | with_reducible apply State.noteCq_keeps
    | with_reducible apply State.modCq_keeps | split

theorem State.grantCredit_keeps {g : Pledge} (s : State) (n : Nat) (h : s.Keeps g) : (State.grantCredit s n).Keeps g := by
  unfold State.grantCredit
  try dsimp only
  repeat' first
    | with_reducible assumption | with_reducible apply State.modRx_keeps | with_reducible apply State.noteCq_keeps
    | with_reducible apply State.modCq_keeps | split

theorem State.sendAck_keeps {g : Pledge} (s : State) (n type code nakPsn : Nat) (e : Echo) (h : s.Keeps g) :
    (State.sendAck s n type code nakPsn e).Keeps g := by
  unfold State.sendAck
  try dsimp only
  repeat' first
    | with_reducible assumption | with_reducible apply State.grantCredit_keeps | with_reducible apply State.sendOn_keeps
    | with_reducible apply State.modRx_keeps | with_reducible apply keeps_ite | split

theorem State.nakRnr_keeps {g : Pledge} (s : State) (n reason psn : Nat) (e : Echo) (h : s.Keeps g) :
    (State.nakRnr s n reason psn e).Keeps g := by
  unfold State.nakRnr
  try dsimp only
  repeat' first
    | with_reducible assumption | with_reducible apply State.sendAck_keeps | with_reducible apply State.modConn_keeps
    | with_reducible apply keeps_ite | split

theorem State.replyNak_keeps {g : Pledge} (s : State) (p : LPort) (fr : NFrame) (type node ackPsn : Nat) (body : AckBody)
     (member : Option FuncId) (h : s.Keeps g) : (State.replyNak s p fr type node ackPsn body member).Keeps g := by
  unfold State.replyNak
  try dsimp only
  repeat' first
    | with_reducible assumption | with_reducible apply State.enqueueOwn_keeps

theorem State.nakClosed_keeps {g : Pledge} (s : State) (p : LPort) (fr : NFrame) (known : Option (Nat × Conn)) (h : s.Keeps g) :
    (State.nakClosed s p fr known).Keeps g := by
  unfold State.nakClosed
  try dsimp only
  repeat' first
    | with_reducible assumption | with_reducible apply State.sendOn_keeps | with_reducible apply State.replyNak_keeps
    | (with_reducible apply keeps_of_fields; dsimp only; with_reducible apply fields_of_keeps) | with_reducible apply keeps_ite
    | split

theorem State.nakReset_keeps {g : Pledge} (s : State) (n : Nat) (c : Conn) (p : LPort) (fr : NFrame) (h : s.Keeps g) :
    (State.nakReset s n c p fr).Keeps g := by
  unfold State.nakReset
  try dsimp only
  repeat' first
    | with_reducible assumption | with_reducible apply State.modConn_keeps | with_reducible apply State.replyNak_keeps
    | with_reducible apply keeps_ite

theorem State.dropOldRx_keeps {g : Pledge} (s : State) (n : Nat) (h : s.Keeps g) : (State.dropOldRx s n).Keeps g := by
  unfold State.dropOldRx
  try dsimp only
  repeat' first
    | with_reducible assumption | with_reducible apply State.modConn_keeps
    | (with_reducible apply keeps_of_fields; dsimp only; with_reducible apply fields_of_keeps) | with_reducible apply keeps_ite
    | split

theorem State.markWritten_keeps {g : Pledge} (s : State) (n psn : Nat) (h : s.Keeps g) : (State.markWritten s n psn).Keeps g := by
  unfold State.markWritten
  try dsimp only
  repeat' first
    | with_reducible assumption | with_reducible apply State.dropOldRx_keeps
    | (with_reducible apply keeps_of_fields; dsimp only; with_reducible apply fields_of_keeps) | with_reducible apply keeps_ite
    | split

theorem State.unwrite_keeps {g : Pledge} (s : State) (n psn : Nat) (h : s.Keeps g) : (State.unwrite s n psn).Keeps g := by
  unfold State.unwrite
  try dsimp only
  repeat' first
    | with_reducible assumption | with_reducible apply State.modConn_keeps

theorem State.completeRecv_keeps {g : Pledge} (s : State) (n msg status bytes aux : Nat) (failed placed : Bool)
     (op : Option Nat) (h : s.Keeps g) : (State.completeRecv s n msg status bytes aux failed placed op).Keeps g := by
  unfold State.completeRecv
  try dsimp only
  repeat' first
    | with_reducible assumption | with_reducible apply State.undefineRuns_keeps | with_reducible apply State.modJob_keeps
    | with_reducible apply State.finishJob_keeps | with_reducible apply State.modRx_keeps | with_reducible apply keeps_ite
    | split

theorem State.recvAdvance_keeps {g : Pledge} (s : State) (n : Nat) (h : s.Keeps g) : (State.recvAdvance s n).Keeps g := by
  unfold State.recvAdvance
  try dsimp only
  repeat' first
    | with_reducible assumption | with_reducible apply State.advanceTrig_keeps | split

theorem State.notify_keeps {g : Pledge} (s : State) (n : Nat) (l : RxLast) (value : Nat) (failed : Bool) (h : s.Keeps g) :
    (State.notify s n l value failed).Keeps g := by
  unfold State.notify
  try dsimp only
  repeat' first
    | with_reducible assumption | with_reducible apply State.modRx_keeps | with_reducible apply State.postCqe_keeps | split

theorem State.deliver_keeps {g : Pledge} (s : State) (n : Nat) (c : Conn) (l : RxLast) (refused failed placed : Bool)
     (h : s.Keeps g) : (State.deliver s n c l refused failed placed).Keeps g := by
  unfold State.deliver
  try dsimp only
  repeat' first
    | with_reducible assumption | with_reducible apply State.completeRecv_keeps | with_reducible apply State.recvAdvance_keeps
    | with_reducible apply State.notify_keeps | with_reducible apply keeps_ite | split

theorem State.passPsn_keeps {g : Pledge} (s : State) (n : Nat) (c : Conn) (h : s.Keeps g) : (State.passPsn s n c).1.Keeps g := by
  unfold State.passPsn
  try dsimp only
  repeat' first
    | with_reducible assumption | with_reducible apply State.modRx_keeps | with_reducible apply State.deliver_keeps | split

theorem State.advanceVpsnN_keeps {g : Pledge} (fuel : Nat) (s : State) (n : Nat) (last : Bool) (coll : List RxLast)
     (h : s.Keeps g) : (State.advanceVpsnN fuel s n last coll).1.Keeps g := by
  induction fuel generalizing s n last coll with
  | zero => exact h
  | succ k ih =>
    unfold State.advanceVpsnN
    try dsimp only
    repeat' first
      | with_reducible apply ih | with_reducible assumption | with_reducible apply State.modRx_keeps
      | with_reducible apply State.rxRelease_keeps | with_reducible apply State.markWritten_keeps
      | with_reducible apply State.passPsn_keeps | split

theorem State.sendResponse_keeps {g : Pledge} (s : State) (n type psn path off : Nat) (first last : Bool) (payload : Bytes)
     (h : s.Keeps g) : (State.sendResponse s n type psn path off first last payload).1.Keeps g := by
  unfold State.sendResponse
  try dsimp only
  repeat' first
    | with_reducible assumption | with_reducible apply State.sendOn_keeps | with_reducible apply State.modTx_keeps
    | with_reducible apply State.count_keeps | split

theorem State.beginWork_keeps {g : Pledge} (s : State) (n : Nat) (h : s.Keeps g) : (State.beginWork s n).Keeps g := by
  unfold State.beginWork
  try dsimp only
  repeat' first
    | with_reducible assumption | with_reducible apply State.modRx_keeps | with_reducible apply forEach_keeps
    | with_reducible apply State.startWrite_keeps | with_reducible apply State.startXfer_keeps | with_reducible apply keeps_ite
    | split | (intro st x hst; try dsimp only)

theorem State.progress_keeps {g : Pledge} (s : State) (n : Nat) (e : Echo) (due : Bool) (h : s.Keeps g) :
    (State.progress s n e due).1.Keeps g := by
  unfold State.progress
  try dsimp only
  repeat' first
    | with_reducible assumption | with_reducible apply State.advanceVpsnN_keeps | with_reducible apply State.beginWork_keeps
    | with_reducible apply State.modRx_keeps | with_reducible apply State.sendAck_keeps | with_reducible apply forEach_keeps
    | with_reducible apply keeps_ite | split | (intro st x hst; try dsimp only)

theorem State.becomeVisibleN_keeps {g : Pledge} (s : State) (n psn count : Nat) (h : s.Keeps g) :
    (State.becomeVisibleN s n psn count).1.Keeps g := by
  unfold State.becomeVisibleN
  try dsimp only
  repeat' first
    | with_reducible assumption | with_reducible apply State.progress_keeps | with_reducible apply State.modRx_keeps | split

theorem State.becomeVisible_keeps {g : Pledge} (s : State) (n psn : Nat) (h : s.Keeps g) :
    (State.becomeVisible s n psn).1.Keeps g := by
  unfold State.becomeVisible
  try dsimp only
  repeat' first
    | with_reducible assumption | with_reducible apply State.becomeVisibleN_keeps

theorem State.keepMark_keeps {g : Pledge} (s : State) (n psn : Nat) (refused : Bool) (h : s.Keeps g) :
    (State.keepMark s n psn refused).Keeps g := by
  unfold State.keepMark
  try dsimp only
  repeat' first
    | with_reducible assumption | with_reducible apply State.modRx_keeps

theorem State.beyond_keeps {g : Pledge} (s : State) (n : Nat) (h : s.Keeps g) : (State.beyond s n).Keeps g := by
  unfold State.beyond
  try dsimp only
  repeat' first
    | with_reducible assumption | with_reducible apply State.modConn_keeps

theorem State.lateMark_keeps {g : Pledge} (s : State) (n psn : Nat) (h : s.Keeps g) : (State.lateMark s n psn).Keeps g := by
  unfold State.lateMark
  try dsimp only
  repeat' first
    | with_reducible assumption | with_reducible apply State.keepMark_keeps | with_reducible apply keeps_ite | split

theorem State.refusePacket_keeps {g : Pledge} (s : State) (n psn reason : Nat) (h : s.Keeps g) :
    (State.refusePacket s n psn reason).1.Keeps g := by
  unfold State.refusePacket
  try dsimp only
  repeat' first
    | with_reducible assumption | with_reducible apply State.count_keeps | with_reducible apply State.beyond_keeps
    | with_reducible apply State.rxRelease_keeps | with_reducible apply State.markWritten_keeps
    | with_reducible apply State.keepMark_keeps | with_reducible apply State.becomeVisible_keeps
    | with_reducible apply State.sendAck_keeps | with_reducible apply keeps_ite | split

theorem State.packetDone_keeps {g : Pledge} (s : State) (n psn bytes : Nat) (r : XResult) (h : s.Keeps g) :
    (State.packetDone s n psn bytes r).1.Keeps g := by
  unfold State.packetDone
  try dsimp only
  repeat' first
    | with_reducible assumption | with_reducible apply State.rxRelease_keeps | with_reducible apply State.becomeVisible_keeps
    | with_reducible apply State.markWritten_keeps | with_reducible apply State.count_keeps
    | with_reducible apply State.nakRnr_keeps | with_reducible apply State.unwrite_keeps
    | with_reducible apply State.refusePacket_keeps | split

theorem State.refuseLate_keeps {g : Pledge} (s : State) (n psn reason : Nat) (h : s.Keeps g) :
    (State.refuseLate s n psn reason).Keeps g := by
  unfold State.refuseLate
  try dsimp only
  repeat' first
    | with_reducible assumption | with_reducible apply State.beyond_keeps | with_reducible apply State.sendAck_keeps
    | with_reducible apply State.lateMark_keeps | with_reducible apply State.count_keeps | with_reducible apply keeps_ite
    | split

theorem State.respondDone_keeps {g : Pledge} (s : State) (n psn : Nat) (r : XResult) (h : s.Keeps g) :
    (State.respondDone s n psn r).1.Keeps g := by
  unfold State.respondDone
  try dsimp only
  repeat' first
    | with_reducible assumption | with_reducible apply State.modRx_keeps | with_reducible apply State.sendResponse_keeps
    | with_reducible apply State.beginWork_keeps | with_reducible apply State.refuseLate_keeps
    | (with_reducible apply keeps_of_fields; dsimp only; with_reducible apply fields_of_keeps) | with_reducible apply keeps_ite
    | split

theorem State.atomicDone_keeps {g : Pledge} (s : State) (n psn : Nat) (r : XResult) (h : s.Keeps g) :
    (State.atomicDone s n psn r).1.Keeps g := by
  unfold State.atomicDone
  try dsimp only
  repeat' first
    | with_reducible assumption | with_reducible apply State.modRx_keeps | with_reducible apply State.regionWrite_keeps
    | with_reducible apply State.becomeVisible_keeps | with_reducible apply State.markWritten_keeps
    | with_reducible apply State.sendResponse_keeps | with_reducible apply State.refusePacket_keeps | split

/-! ### Coll -/

theorem State.modOp_keeps {g : Pledge} (s : State) (f : FuncId) (x : Nat) (y : CollOp → CollOp) (h : s.Keeps g) :
    (State.modOp s f x y).Keeps g := by
  unfold State.modOp
  try dsimp only
  repeat' first
    | with_reducible assumption | with_reducible apply State.modFunc_keeps

theorem State.modSlot_keeps {g : Pledge} (s : State) (f : FuncId) (x key : Nat) (y : Slot → Slot) (h : s.Keeps g) :
    (State.modSlot s f x key y).Keeps g := by
  unfold State.modSlot
  try dsimp only
  repeat' first
    | with_reducible assumption | with_reducible apply State.modOp_keeps

theorem State.modComm_keeps {g : Pledge} (s : State) (f : FuncId) (n : Nat) (x : Comm → Comm) (h : s.Keeps g) :
    (State.modComm s f n x).Keeps g := by
  unfold State.modComm
  try dsimp only
  repeat' first
    | with_reducible assumption | with_reducible apply State.modFunc_keeps

theorem State.collPacket_keeps {g : Pledge} (s : State) (edge type key off flags : Nat) (payload : Bytes) (src : Option CollSrc)
     (h : s.Keeps g) : (State.collPacket s edge type key off flags payload src).Keeps g := by
  unfold State.collPacket
  try dsimp only
  repeat' first
    | with_reducible assumption | with_reducible apply State.modTx_keeps | with_reducible apply keeps_ite | split

theorem State.collControl_keeps {g : Pledge} (s : State) (edge type gseq off : Nat) (payload : Bytes) (h : s.Keeps g) :
    (State.collControl s edge type gseq off payload).Keeps g := by
  unfold State.collControl
  try dsimp only
  repeat' first
    | with_reducible assumption | with_reducible apply State.collPacket_keeps

theorem State.collData_keeps {g : Pledge} (s : State) (edge type : Nat) (f : FuncId) (gseq key chunk off len : Nat)
     (h : s.Keeps g) : (State.collData s edge type f gseq key chunk off len).Keeps g := by
  unfold State.collData
  try dsimp only
  repeat' first
    | with_reducible assumption | with_reducible apply forEach_keeps | with_reducible apply State.collPacket_keeps | split
    | (intro st x hst; try dsimp only)

theorem State.collBytes_keeps {g : Pledge} (s : State) (t : CollPkt) (h : s.Keeps g) : (State.collBytes s t).1.Keeps g := by
  unfold State.collBytes
  try dsimp only
  repeat' first
    | with_reducible assumption | with_reducible apply State.fresh_keeps | split

theorem State.finishEntry_keeps {g : Pledge} (s : State) (f : FuncId) (x : Nat) (e : CollEntry) (status bytes aux : Nat)
     (h : s.Keeps g) : (State.finishEntry s f x e status bytes aux).Keeps g := by
  unfold State.finishEntry
  try dsimp only
  repeat' first
    | with_reducible assumption | with_reducible apply State.modOp_keeps | with_reducible apply State.finishJob_keeps
    | with_reducible apply State.modJob_keeps | with_reducible apply keeps_ite

theorem State.dropCollXfers_keeps {g : Pledge} (s : State) (f : FuncId) (x : Nat) (h : s.Keeps g) :
    (State.dropCollXfers s f x).Keeps g := by
  unfold State.dropCollXfers
  try dsimp only
  repeat' first
    | with_reducible assumption | with_reducible apply forEach_keeps | with_reducible apply State.dropXfer_keeps

theorem State.removeOp_keeps {g : Pledge} (s : State) (f : FuncId) (x : Nat) (h : s.Keeps g) :
    (State.removeOp s f x).Keeps g := by
  unfold State.removeOp
  try dsimp only
  repeat' first
    | with_reducible assumption | with_reducible apply State.dropCollXfers_keeps | with_reducible apply State.modComm_keeps
    | with_reducible apply State.modFunc_keeps | split

theorem State.abortOp_keeps {g : Pledge} (s : State) (f : FuncId) (x : Nat) (h : s.Keeps g) : (State.abortOp s f x).Keeps g := by
  unfold State.abortOp
  try dsimp only
  repeat' first
    | with_reducible assumption | with_reducible apply State.removeOp_keeps | with_reducible apply forEach_keeps
    | with_reducible apply State.finishEntry_keeps | split | (intro st x hst; try dsimp only)

theorem State.membership_keeps {g : Pledge} (s : State) (f : FuncId) (cm gseq reason first count : Nat) (h : s.Keeps g) :
    (State.membership s f cm gseq reason first count).Keeps g := by
  unfold State.membership
  try dsimp only
  repeat' first
    | with_reducible assumption | with_reducible apply State.post_keeps

theorem State.degradeComm_keeps {g : Pledge} (s : State) (f : FuncId) (cm gseq reason first count : Nat) (h : s.Keeps g) :
    (State.degradeComm s f cm gseq reason first count).Keeps g := by
  unfold State.degradeComm
  try dsimp only
  repeat' first
    | with_reducible assumption | with_reducible apply State.membership_keeps | with_reducible apply State.fault_keeps
    | with_reducible apply State.modComm_keeps

theorem State.noteLoss_keeps {g : Pledge} (s : State) (f : FuncId) (cm gseq first count lost : Nat) (h : s.Keeps g) :
    (State.noteLoss s f cm gseq first count lost).Keeps g := by
  unfold State.noteLoss
  try dsimp only
  repeat' first
    | with_reducible assumption | with_reducible apply State.fresh_keeps | with_reducible apply State.degradeComm_keeps

theorem State.sendAbort_keeps {g : Pledge} (s : State) (f : FuncId) (cm : Nat) (ring : Bool) (gseq count : Nat) (h : s.Keeps g) :
    (State.sendAbort s f cm ring gseq count).Keeps g := by
  unfold State.sendAbort
  try dsimp only
  repeat' first
    | with_reducible assumption | with_reducible apply State.modComm_keeps | with_reducible apply forEach_keeps
    | with_reducible apply State.collControl_keeps | with_reducible apply keeps_ite | split | (intro st x hst; try dsimp only)

theorem State.collLost_keeps {g : Pledge} (s : State) (f : FuncId) (cm : Nat) (ring : Bool) (x count : Nat) (h : s.Keeps g) :
    (State.collLost s f cm ring x count).Keeps g := by
  unfold State.collLost
  try dsimp only
  repeat' first
    | with_reducible assumption | with_reducible apply State.abortOp_keeps | with_reducible apply State.sendAbort_keeps
    | with_reducible apply State.collControl_keeps | with_reducible apply keeps_ite | split

theorem State.loseSelf_keeps {g : Pledge} (s : State) (f : FuncId) (cm : Nat) (ring : Bool) (x reason : Nat) (h : s.Keeps g) :
    (State.loseSelf s f cm ring x reason).Keeps g := by
  unfold State.loseSelf
  try dsimp only
  repeat' first
    | with_reducible assumption | with_reducible apply State.modComm_keeps | with_reducible apply State.degradeComm_keeps
    | with_reducible apply State.collLost_keeps | with_reducible apply keeps_ite | split

theorem State.admitOp_keeps {g : Pledge} (s : State) (f : FuncId) (o : CollOp) (h : s.Keeps g) :
    (State.admitOp s f o).Keeps g := by
  unfold State.admitOp
  try dsimp only
  repeat' first
    | with_reducible assumption | with_reducible apply State.traceRecord_keeps | with_reducible apply State.fresh_keeps
    | with_reducible apply State.modOp_keeps | with_reducible apply State.modFunc_keeps

theorem State.collRead_keeps {g : Pledge} (s : State) (f : FuncId) (x : Nat) (e : CollEntry) (key off len : Nat) (h : s.Keeps g) :
    (State.collRead s f x e key off len).Keeps g := by
  unfold State.collRead
  try dsimp only
  repeat' first
    | with_reducible assumption | with_reducible apply State.startRead_keeps
    | (with_reducible apply keeps_of_fields; dsimp only; with_reducible apply fields_of_keeps) | with_reducible apply keeps_ite

theorem State.collWrite_keeps {g : Pledge} (s : State) (f : FuncId) (x : Nat) (e : CollEntry) (key off : Nat) (data : Bytes)
     (h : s.Keeps g) : (State.collWrite s f x e key off data).Keeps g := by
  unfold State.collWrite
  try dsimp only
  repeat' first
    | with_reducible assumption | with_reducible apply State.startWrite_keeps
    | (with_reducible apply keeps_of_fields; dsimp only; with_reducible apply fields_of_keeps) | with_reducible apply keeps_ite

theorem State.scaleFinish_keeps {g : Pledge} (s : State) (f : FuncId) (o : CollOp) (c : Comm) (emax : Int) (h : s.Keeps g) :
    (State.scaleFinish s f o c emax).Keeps g := by
  unfold State.scaleFinish
  try dsimp only
  repeat' first
    | with_reducible assumption | with_reducible apply State.modOp_keeps | with_reducible apply forEach_keeps
    | with_reducible apply State.collControl_keeps | with_reducible apply keeps_ite | (intro st x hst; try dsimp only)

theorem State.scaleStep_keeps {g : Pledge} (s : State) (f : FuncId) (x : Nat) (h : s.Keeps g) :
    (State.scaleStep s f x).Keeps g := by
  unfold State.scaleStep
  try dsimp only
  repeat' first
    | with_reducible assumption | with_reducible apply forEach_keeps | with_reducible apply State.collRead_keeps
    | with_reducible apply State.modOp_keeps | with_reducible apply State.collControl_keeps
    | with_reducible apply State.scaleFinish_keeps | with_reducible apply keeps_ite | split | (intro st x hst; try dsimp only)

theorem State.grantChunks_keeps {g : Pledge} (s : State) (f : FuncId) (x : Nat) (c : Comm) (h : s.Keeps g) :
    (State.grantChunks s f x c).Keeps g := by
  unfold State.grantChunks
  try dsimp only
  repeat' first
    | with_reducible assumption | with_reducible apply State.modOp_keeps | with_reducible apply forEach_keeps
    | with_reducible apply State.collControl_keeps | split | (intro st x hst; try dsimp only)

theorem State.beginChunks_keeps {g : Pledge} (s : State) (f : FuncId) (x : Nat) (h : s.Keeps g) :
    (State.beginChunks s f x).Keeps g := by
  unfold State.beginChunks
  try dsimp only
  repeat' first
    | with_reducible assumption | with_reducible apply State.grantChunks_keeps | with_reducible apply State.modOp_keeps
    | with_reducible apply forEach_keeps | with_reducible apply State.collRead_keeps | with_reducible apply keeps_ite | split
    | (intro st x hst; try dsimp only)

theorem State.completeUnit_keeps {g : Pledge} (s : State) (f : FuncId) (x key : Nat) (h : s.Keeps g) :
    (State.completeUnit s f x key).Keeps g := by
  unfold State.completeUnit
  try dsimp only
  repeat' first
    | with_reducible assumption | with_reducible apply State.collLost_keeps | with_reducible apply State.modSlot_keeps
    | with_reducible apply State.modOp_keeps | with_reducible apply State.collData_keeps | with_reducible apply keeps_ite
    | split

theorem State.readSlot_keeps {g : Pledge} (s : State) (f : FuncId) (x key : Nat) (r : Bytes) (h : s.Keeps g) :
    (State.readSlot s f x key r).Keeps g := by
  unfold State.readSlot
  try dsimp only
  repeat' first
    | with_reducible assumption | with_reducible apply State.newId_keeps | with_reducible apply State.unpoison_keeps
    | with_reducible apply State.fabXfer_keeps
    | (with_reducible apply keeps_of_fields; dsimp only; with_reducible apply fields_of_keeps) | with_reducible apply keeps_ite

theorem State.spreadUnit_keeps {g : Pledge} (s : State) (f : FuncId) (x key : Nat) (h : s.Keeps g) :
    (State.spreadUnit s f x key).Keeps g := by
  unfold State.spreadUnit
  try dsimp only
  repeat' first
    | with_reducible assumption | with_reducible apply State.modSlot_keeps | with_reducible apply forEach_keeps
    | with_reducible apply State.collData_keeps | with_reducible apply State.modOp_keeps
    | with_reducible apply State.readSlot_keeps | with_reducible apply State.collWrite_keeps | with_reducible apply keeps_ite
    | split | (intro st x hst; try dsimp only)

theorem State.repairUnit_keeps {g : Pledge} (s : State) (f : FuncId) (x key : Nat) (o : CollOp) (c : Comm) (sl : Slot)
     (h : s.Keeps g) : (State.repairUnit s f x key o c sl).Keeps g := by
  unfold State.repairUnit
  try dsimp only
  repeat' first
    | with_reducible assumption | with_reducible apply State.loseSelf_keeps | with_reducible apply State.modSlot_keeps
    | with_reducible apply State.collControl_keeps | with_reducible apply keeps_ite

theorem State.compareUnit_keeps {g : Pledge} (s : State) (f : FuncId) (x key : Nat) (h : s.Keeps g) :
    (State.compareUnit s f x key).Keeps g := by
  unfold State.compareUnit
  try dsimp only
  repeat' first
    | with_reducible assumption | with_reducible apply State.modSlot_keeps | with_reducible apply State.modOp_keeps
    | with_reducible apply forEach_keeps | with_reducible apply State.post_keeps | with_reducible apply State.repairUnit_keeps
    | with_reducible apply keeps_ite | split | (intro st x hst; try dsimp only)

theorem State.freeChunk_keeps {g : Pledge} (s : State) (f : FuncId) (x : Nat) (c : Comm) (ch : Nat) (h : s.Keeps g) :
    (State.freeChunk s f x c ch).Keeps g := by
  unfold State.freeChunk
  try dsimp only
  repeat' first
    | with_reducible assumption | with_reducible apply State.grantChunks_keeps | with_reducible apply State.modOp_keeps

theorem State.reportChunk_keeps {g : Pledge} (s : State) (f : FuncId) (x ch : Nat) (h : s.Keeps g) :
    (State.reportChunk s f x ch).Keeps g := by
  unfold State.reportChunk
  try dsimp only
  repeat' first
    | with_reducible assumption | with_reducible apply State.modOp_keeps | with_reducible apply State.collControl_keeps
    | with_reducible apply State.freeChunk_keeps | with_reducible apply keeps_ite | split

theorem State.sealChunk_keeps {g : Pledge} (s : State) (f : FuncId) (x ch : Nat) (h : s.Keeps g) :
    (State.sealChunk s f x ch).Keeps g := by
  unfold State.sealChunk
  try dsimp only
  repeat' first
    | with_reducible assumption | with_reducible apply State.traceRecord_keeps | with_reducible apply State.modOp_keeps
    | with_reducible apply State.freeChunk_keeps | with_reducible apply State.removeOp_keeps
    | with_reducible apply forEach_keeps | with_reducible apply State.finishEntry_keeps | with_reducible apply keeps_ite | split
    | (intro st x hst; try dsimp only)

theorem State.sealNext_keeps {g : Pledge} (fuel : Nat) (s : State) (f : FuncId) (x : Nat) (h : s.Keeps g) :
    (State.sealNext fuel s f x).Keeps g := by
  induction fuel generalizing s f x with
  | zero => exact h
  | succ k ih =>
    unfold State.sealNext
    try dsimp only
    repeat' first
      | with_reducible apply ih | with_reducible assumption | with_reducible apply forEach_keeps
      | with_reducible apply State.collControl_keeps | with_reducible apply State.sealChunk_keeps
      | with_reducible apply keeps_ite | split | (intro st x hst; try dsimp only)

theorem State.earlyRelease_keeps {g : Pledge} (s : State) (f : FuncId) (x : Nat) (h : s.Keeps g) :
    (State.earlyRelease s f x).Keeps g := by
  unfold State.earlyRelease
  try dsimp only
  repeat' first
    | with_reducible assumption | with_reducible apply forEach_keeps | with_reducible apply State.finishEntry_keeps
    | with_reducible apply keeps_ite | split | (intro st x hst; try dsimp only)

theorem State.collStep_keeps {g : Pledge} (s : State) (f : FuncId) (x : Nat) (h : s.Keeps g) :
    (State.collStep s f x).Keeps g := by
  unfold State.collStep
  try dsimp only
  repeat' first
    | with_reducible assumption | with_reducible apply State.beginChunks_keeps | with_reducible apply State.scaleStep_keeps
    | with_reducible apply forEach_keeps | with_reducible apply State.earlyRelease_keeps
    | with_reducible apply State.spreadUnit_keeps | with_reducible apply State.completeUnit_keeps
    | with_reducible apply State.compareUnit_keeps | with_reducible apply State.reportChunk_keeps
    | with_reducible apply State.sealNext_keeps | (intro st x hst; try dsimp only)

theorem State.admitN_keeps {g : Pledge} (fuel : Nat) (s : State) (f : FuncId) (h : s.Keeps g) :
    (State.admitN fuel s f).Keeps g := by
  induction fuel generalizing s f with
  | zero => exact h
  | succ k ih =>
    unfold State.admitN
    try dsimp only
    repeat' first
      | with_reducible apply ih | with_reducible assumption | with_reducible apply State.admitOp_keeps
      | with_reducible apply State.collStep_keeps | split

theorem State.admitOps_keeps {g : Pledge} (s : State) (f : FuncId) (h : s.Keeps g) : (State.admitOps s f).Keeps g := by
  unfold State.admitOps
  try dsimp only
  repeat' first
    | with_reducible assumption | with_reducible apply State.admitN_keeps

theorem State.collPump_keeps {g : Pledge} (s : State) (f : FuncId) (h : s.Keeps g) : (State.collPump s f).Keeps g := by
  unfold State.collPump
  try dsimp only
  repeat' first
    | with_reducible assumption | with_reducible apply State.admitOps_keeps | with_reducible apply forEach_keeps
    | with_reducible apply State.collStep_keeps | (intro st x hst; try dsimp only)

theorem State.launch_keeps {g : Pledge} (s : State) (f : FuncId) (r : Nat) (j : Job) (args : Bytes) (h : s.Keeps g) :
    (State.launch s f r j args).Keeps g := by
  unfold State.launch
  try dsimp only
  repeat' first
    | with_reducible assumption | with_reducible apply State.finishJob_keeps | with_reducible apply State.modJob_keeps
    | with_reducible apply State.modFunc_keeps | with_reducible apply State.modOp_keeps | with_reducible apply forEach_keeps
    | with_reducible apply State.traceRecord_keeps | with_reducible apply State.admitOps_keeps
    | with_reducible apply State.collLost_keeps | with_reducible apply State.finishEntry_keeps
    | with_reducible apply State.removeOp_keeps | with_reducible apply State.loseSelf_keeps | with_reducible apply keeps_ite
    | split | (intro st x hst; try dsimp only)

theorem State.collInDone_keeps {g : Pledge} (s : State) (f : FuncId) (x m key : Nat) (r : XResult) (h : s.Keeps g) :
    (State.collInDone s f x m key r).Keeps g := by
  unfold State.collInDone
  try dsimp only
  repeat' first
    | with_reducible assumption | with_reducible apply State.modOp_keeps | with_reducible apply State.modSlot_keeps
    | with_reducible apply State.collPump_keeps | with_reducible apply State.loseSelf_keeps | with_reducible apply keeps_ite
    | split

theorem State.collOutDone_keeps {g : Pledge} (s : State) (f : FuncId) (x m key : Nat) (r : XResult) (h : s.Keeps g) :
    (State.collOutDone s f x m key r).Keeps g := by
  unfold State.collOutDone
  try dsimp only
  repeat' first
    | with_reducible assumption | with_reducible apply State.modOp_keeps | with_reducible apply State.collPump_keeps
    | with_reducible apply State.modSlot_keeps | split

theorem State.collSlotDone_keeps {g : Pledge} (s : State) (f : FuncId) (x key : Nat) (r : XResult) (h : s.Keeps g) :
    (State.collSlotDone s f x key r).Keeps g := by
  unfold State.collSlotDone
  try dsimp only
  repeat' first
    | with_reducible assumption | with_reducible apply State.collPump_keeps | with_reducible apply State.modSlot_keeps
    | with_reducible apply State.repairUnit_keeps | split

theorem State.collGather_keeps {g : Pledge} (s : State) (n type gseq off : Nat) (first : Bool) (payload : Bytes) (h : s.Keeps g) :
    (State.collGather s n type gseq off first payload).Keeps g := by
  unfold State.collGather
  try dsimp only
  repeat' first
    | with_reducible assumption | with_reducible apply State.modSlot_keeps | with_reducible apply keeps_ite | split

theorem State.collUp_keeps {g : Pledge} (s : State) (n : Nat) (k : Conn) (c : Comm) (l : RxLast) (h : s.Keeps g) :
    (State.collUp s n k c l).Keeps g := by
  unfold State.collUp
  try dsimp only
  repeat' first
    | with_reducible assumption | with_reducible apply State.modOp_keeps | with_reducible apply State.modSlot_keeps
    | with_reducible apply keeps_ite | split

theorem State.collDown_keeps {g : Pledge} (s : State) (n : Nat) (k : Conn) (c : Comm) (l : RxLast) (h : s.Keeps g) :
    (State.collDown s n k c l).Keeps g := by
  unfold State.collDown
  try dsimp only
  repeat' first
    | with_reducible assumption | with_reducible apply State.scaleFinish_keeps | with_reducible apply State.modSlot_keeps
    | with_reducible apply keeps_ite | split

theorem State.noteGone_keeps {g : Pledge} (s : State) (f : FuncId) (cm edge n : Nat) (h : s.Keeps g) :
    (State.noteGone s f cm edge n).Keeps g := by
  unfold State.noteGone
  try dsimp only
  repeat' first
    | with_reducible assumption | with_reducible apply State.modComm_keeps

theorem State.collReport_keeps {g : Pledge} (s : State) (n : Nat) (k : Conn) (cm : Nat) (c : Comm) (l : RxLast) (h : s.Keeps g) :
    (State.collReport s n k cm c l).Keeps g := by
  unfold State.collReport
  try dsimp only
  repeat' first
    | with_reducible assumption | with_reducible apply State.noteLoss_keeps | with_reducible apply State.collLost_keeps
    | with_reducible apply State.noteGone_keeps | with_reducible apply State.sealChunk_keeps
    | with_reducible apply State.collControl_keeps | with_reducible apply State.modOp_keeps
    | with_reducible apply State.modSlot_keeps | with_reducible apply keeps_ite | split

theorem State.collSeal_keeps {g : Pledge} (s : State) (k : Conn) (cm : Nat) (c : Comm) (ring : Bool) (l : RxLast)
     (h : s.Keeps g) : (State.collSeal s k cm c ring l).Keeps g := by
  unfold State.collSeal
  try dsimp only
  repeat' first
    | with_reducible assumption | with_reducible apply State.sendAbort_keeps | with_reducible apply State.abortOp_keeps
    | with_reducible apply State.noteLoss_keeps | with_reducible apply forEach_keeps
    | with_reducible apply State.collControl_keeps | with_reducible apply State.modOp_keeps
    | with_reducible apply State.sealChunk_keeps | with_reducible apply keeps_ite | (intro st x hst; try dsimp only)

theorem State.collRepair_keeps {g : Pledge} (s : State) (n : Nat) (k : Conn) (c : Comm) (l : RxLast) (h : s.Keeps g) :
    (State.collRepair s n k c l).Keeps g := by
  unfold State.collRepair
  try dsimp only
  repeat' first
    | with_reducible assumption | with_reducible apply State.collData_keeps | with_reducible apply State.modSlot_keeps | split

theorem State.collArrive_keeps {g : Pledge} (s : State) (n : Nat) (l : RxLast) (h : s.Keeps g) :
    (State.collArrive s n l).Keeps g := by
  unfold State.collArrive
  try dsimp only
  repeat' first
    | with_reducible assumption | with_reducible apply State.collUp_keeps | with_reducible apply State.collDown_keeps
    | with_reducible apply State.collReport_keeps | with_reducible apply State.collSeal_keeps
    | with_reducible apply State.collRepair_keeps | with_reducible apply State.modComm_keeps
    | with_reducible apply State.collPump_keeps | with_reducible apply keeps_ite | split

theorem State.collArrivals_keeps {g : Pledge} (s : State) (n : Nat) (ls : List RxLast) (h : s.Keeps g) :
    (State.collArrivals s n ls).Keeps g := by
  unfold State.collArrivals
  try dsimp only
  repeat' first
    | with_reducible assumption | with_reducible apply forEach_keeps | with_reducible apply State.collArrive_keeps
    | (intro st x hst; try dsimp only)

theorem State.edgeLost_keeps {g : Pledge} (s : State) (n reason : Nat) (h : s.Keeps g) : (State.edgeLost s n reason).Keeps g := by
  unfold State.edgeLost
  try dsimp only
  repeat' first
    | with_reducible assumption | with_reducible apply State.modComm_keeps | with_reducible apply State.degradeComm_keeps
    | with_reducible apply State.collPump_keeps | with_reducible apply forEach_keeps | with_reducible apply State.collLost_keeps
    | with_reducible apply State.modOp_keeps | with_reducible apply State.abortOp_keeps
    | with_reducible apply State.sendAbort_keeps | with_reducible apply keeps_ite | split | (intro st x hst; try dsimp only)

/-! ### Tx -/

theorem State.noteStatus_keeps {g : Pledge} (s : State) (f : FuncId) (r slot st : Nat) (h : s.Keeps g) :
    (State.noteStatus s f r slot st).Keeps g := by
  unfold State.noteStatus
  try dsimp only
  repeat' first
    | with_reducible assumption | with_reducible apply State.modJob_keeps

theorem State.transmit_keeps {g : Pledge} (s : State) (n : Nat) (c : Conn) (ring : Option Nat) (path : Nat) (epoch : Bool)
     (mk : LPort → TxFrame) (h : s.Keeps g) : (State.transmit s n c ring path epoch mk).1.Keeps g := by
  unfold State.transmit
  try dsimp only
  repeat' first
    | with_reducible assumption | with_reducible apply State.startOn_keeps | with_reducible apply State.modConn_keeps
    | (refine keeps_of_fst (by with_reducible assumption) ?_) | split

theorem State.readNext_keeps {g : Pledge} (s : State) (f : FuncId) (r slot : Nat) (c : Conn) (h : s.Keeps g) :
    (State.readNext s f r slot c).Keeps g := by
  unfold State.readNext
  try dsimp only
  repeat' first
    | with_reducible assumption | with_reducible apply State.startRead_keeps | with_reducible apply keeps_ite | split

theorem State.sendSrcDone_keeps {g : Pledge} (s : State) (f : FuncId) (r slot : Nat) (x : XResult) (h : s.Keeps g) :
    (State.sendSrcDone s f r slot x).Keeps g := by
  unfold State.sendSrcDone
  try dsimp only
  repeat' first
    | with_reducible assumption | with_reducible apply State.modJob_keeps | with_reducible apply State.noteStatus_keeps | split

theorem State.checkSend_keeps {g : Pledge} (s : State) (n : Nat) (f : FuncId) (r slot : Nat) (h : s.Keeps g) :
    (State.checkSend s n f r slot).Keeps g := by
  unfold State.checkSend
  try dsimp only
  repeat' first
    | with_reducible assumption | with_reducible apply State.finishJob_keeps | with_reducible apply State.modJob_keeps
    | with_reducible apply keeps_ite | split

theorem State.dropConnXfers_keeps {g : Pledge} (s : State) (n : Nat) (h : s.Keeps g) : (State.dropConnXfers s n).Keeps g := by
  unfold State.dropConnXfers
  try dsimp only
  repeat' first
    | with_reducible assumption | with_reducible apply forEach_keeps | with_reducible apply State.dropXfer_keeps
    | (with_reducible apply keeps_of_fields; dsimp only; with_reducible apply fields_of_keeps)

theorem State.endConnJobs_keeps {g : Pledge} (s : State) (n : Nat) (c : Conn) (status : Nat) (h : s.Keeps g) :
    (State.endConnJobs s n c status).Keeps g := by
  unfold State.endConnJobs
  try dsimp only
  repeat' first
    | with_reducible assumption | with_reducible apply forEach_keeps | with_reducible apply State.undefineRuns_keeps
    | with_reducible apply State.finishJob_keeps | with_reducible apply State.dropXfer_keeps | split
    | (intro st x hst; try dsimp only)

theorem State.toError_keeps {g : Pledge} (s : State) (n : Nat) (h : s.Keeps g) : (State.toError s n).Keeps g := by
  unfold State.toError
  try dsimp only
  repeat' first
    | with_reducible assumption | with_reducible apply State.modConn_keeps | with_reducible apply State.undefineRuns_keeps
    | with_reducible apply State.dropConnXfers_keeps | with_reducible apply forEach_keeps
    | with_reducible apply State.rxFree_keeps | with_reducible apply State.endConnJobs_keeps
    | with_reducible apply State.edgeLost_keeps | with_reducible apply State.signalBound_keeps
    | with_reducible apply State.fault_keeps | with_reducible apply keeps_ite | split | (intro st x hst; try dsimp only)

theorem State.connError_keeps {g : Pledge} (s : State) (n : Nat) (h : s.Keeps g) : (State.connError s n).Keeps g := by
  unfold State.connError
  try dsimp only
  repeat' first
    | with_reducible assumption | with_reducible apply State.toError_keeps | with_reducible apply keeps_ite

theorem State.clampSoon_keeps {g : Pledge} (s : State) (n : Nat) (h : s.Keeps g) : (State.clampSoon s n).Keeps g := by
  unfold State.clampSoon
  try dsimp only
  repeat' first
    | with_reducible assumption | with_reducible apply State.modConn_keeps | with_reducible apply keeps_ite | split

theorem State.clampDone_keeps {g : Pledge} (s : State) (n : Nat) (h : s.Keeps g) : (State.clampDone s n).Keeps g := by
  unfold State.clampDone
  try dsimp only
  repeat' first
    | with_reducible assumption | with_reducible apply State.modConn_keeps | with_reducible apply keeps_ite | split

theorem State.lose_keeps {g : Pledge} (s : State) (n : Nat) (psns : List Nat) (h : s.Keeps g) :
    (State.lose s n psns).Keeps g := by
  unfold State.lose
  try dsimp only
  repeat' first
    | with_reducible assumption | with_reducible apply State.modConn_keeps

theorem State.rereadAll_keeps {g : Pledge} (s : State) (n : Nat) (h : s.Keeps g) : (State.rereadAll s n).Keeps g := by
  unfold State.rereadAll
  try dsimp only
  repeat' first
    | with_reducible assumption | with_reducible apply forEach_keeps | with_reducible apply State.startRead_keeps
    | with_reducible apply keeps_ite | split | (intro st x hst; try dsimp only)

theorem State.resendDone_keeps {g : Pledge} (s : State) (n psn : Nat) (x : XResult) (h : s.Keeps g) :
    (State.resendDone s n psn x).Keeps g := by
  unfold State.resendDone
  try dsimp only
  repeat' first
    | with_reducible assumption | with_reducible apply State.modTx_keeps | with_reducible apply State.noteStatus_keeps | split

theorem State.collPkt_keeps {g : Pledge} (s : State) (t : CollPkt) (h : s.Keeps g) : (State.collPkt s t).1.Keeps g := by
  unfold State.collPkt
  try dsimp only
  repeat' first
    | with_reducible assumption | with_reducible apply State.collBytes_keeps

theorem State.sendAgain_keeps {g : Pledge} (s : State) (n : Nat) (c : Conn) (r : SendRec) (h : s.Keeps g) :
    (State.sendAgain s n c r).Keeps g := by
  unfold State.sendAgain
  try dsimp only
  repeat' first
    | with_reducible assumption | with_reducible apply State.connError_keeps | with_reducible apply State.collPkt_keeps
    | with_reducible apply State.modTx_keeps | with_reducible apply State.transmit_keeps
    | with_reducible apply State.count_keeps | with_reducible apply State.modConn_keeps | with_reducible apply keeps_ite | split

theorem State.recordNew_keeps {g : Pledge} (s : State) (n : Nat) (c : Conn) (ring slot off len path : Nat) (epoch : Bool)
     (k : OutPkt) (coll : Option CollPkt) (h : s.Keeps g) :
    (State.recordNew s n c ring slot off len path epoch k coll).Keeps g := by
  unfold State.recordNew
  try dsimp only
  repeat' first
    | with_reducible assumption | with_reducible apply State.peakGlobal_keeps | with_reducible apply State.modTx_keeps

theorem State.sendColl_keeps {g : Pledge} (s : State) (n : Nat) (c : Conn) (t : CollPkt) (h : s.Keeps g) :
    (State.sendColl s n c t).Keeps g := by
  unfold State.sendColl
  try dsimp only
  repeat' first
    | with_reducible assumption | with_reducible apply State.collPkt_keeps | with_reducible apply State.transmit_keeps
    | with_reducible apply State.count_keeps | with_reducible apply State.recordNew_keeps
    | with_reducible apply State.modTx_keeps | with_reducible apply keeps_ite | split

theorem State.sendNew_keeps {g : Pledge} (s : State) (n : Nat) (c : Conn) (r slot : Nat) (j : Job) (h : s.Keeps g) :
    (State.sendNew s n c r slot j).Keeps g := by
  unfold State.sendNew
  try dsimp only
  repeat' first
    | with_reducible assumption | with_reducible apply State.transmit_keeps | with_reducible apply State.recordNew_keeps
    | with_reducible apply State.modTx_keeps | with_reducible apply State.modJob_keeps | with_reducible apply State.count_keeps
    | with_reducible apply State.readNext_keeps | with_reducible apply keeps_ite | split

theorem State.packetSend_keeps {g : Pledge} (s0 : State) (n : Nat) (h : s0.Keeps g) : (State.packetSend s0 n).Keeps g := by
  unfold State.packetSend
  try dsimp only
  repeat' first
    | with_reducible assumption | with_reducible apply State.sendHeld_keeps | with_reducible apply State.beginWork_keeps
    | with_reducible apply State.rereadAll_keeps | with_reducible apply State.modTx_keeps
    | with_reducible apply State.sendAgain_keeps | with_reducible apply State.sendColl_keeps
    | with_reducible apply State.sendNew_keeps | with_reducible apply State.readNext_keeps | with_reducible apply keeps_ite
    | split

theorem State.pathLive_keeps {g : Pledge} (s : State) (n p : Nat) (h : s.Keeps g) : (State.pathLive s n p).Keeps g := by
  unfold State.pathLive
  try dsimp only
  repeat' first
    | with_reducible assumption | with_reducible apply State.modConn_keeps

theorem State.pathFail_keeps {g : Pledge} (s : State) (n p : Nat) (h : s.Keeps g) : (State.pathFail s n p).Keeps g := by
  unfold State.pathFail
  try dsimp only
  repeat' first
    | with_reducible assumption | with_reducible apply State.rereadAll_keeps | with_reducible apply State.lose_keeps
    | with_reducible apply State.modTx_keeps
    | (with_reducible apply keeps_of_fields; dsimp only; with_reducible apply fields_of_keeps) | with_reducible apply keeps_ite
    | split

theorem State.switchPaths_keeps {g : Pledge} (s : State) (n : Nat) (h : s.Keeps g) : (State.switchPaths s n).Keeps g := by
  unfold State.switchPaths
  try dsimp only
  repeat' first
    | with_reducible assumption | with_reducible apply State.modConn_keeps

theorem State.dropOldTx_keeps {g : Pledge} (s : State) (n : Nat) (h : s.Keeps g) : (State.dropOldTx s n).Keeps g := by
  unfold State.dropOldTx
  try dsimp only
  repeat' first
    | with_reducible assumption | with_reducible apply State.modConn_keeps
    | (with_reducible apply keeps_of_fields; dsimp only; with_reducible apply fields_of_keeps) | with_reducible apply keeps_ite
    | split

theorem State.nakRecord_keeps {g : Pledge} (s : State) (c : Conn) (r : SendRec) (h : s.Keeps g) :
    (State.nakRecord s c r).Keeps g := by
  unfold State.nakRecord
  try dsimp only
  repeat' first
    | with_reducible assumption | with_reducible apply State.modJob_keeps | with_reducible apply State.noteStatus_keeps

theorem State.onAck_keeps {g : Pledge} (s0 : State) (n : Nat) (a : AckInfo) (h : s0.Keeps g) : (State.onAck s0 n a).Keeps g := by
  unfold State.onAck
  try dsimp only
  repeat' first
    | with_reducible assumption | with_reducible apply forEach_keeps | with_reducible apply State.nakRecord_keeps
    | with_reducible apply State.modTx_keeps | with_reducible apply State.lose_keeps
    | with_reducible apply State.rereadAll_keeps | with_reducible apply State.modJob_keeps
    | with_reducible apply State.checkSend_keeps | with_reducible apply State.clampDone_keeps
    | with_reducible apply State.dropOldTx_keeps | with_reducible apply State.switchPaths_keeps
    | (with_reducible apply keeps_of_fields; dsimp only; with_reducible apply fields_of_keeps) | with_reducible apply keeps_ite
    | split | (intro st x hst; try dsimp only)

theorem State.onNakRnr_keeps {g : Pledge} (s : State) (n psn reason : Nat) (h : s.Keeps g) :
    (State.onNakRnr s n psn reason).Keeps g := by
  unfold State.onNakRnr
  try dsimp only
  repeat' first
    | with_reducible assumption | with_reducible apply State.modConn_keeps | with_reducible apply State.count_keeps | split

theorem State.rnrRetry_keeps {g : Pledge} (s : State) (n : Nat) (h : s.Keeps g) : (State.rnrRetry s n).Keeps g := by
  unfold State.rnrRetry
  try dsimp only
  repeat' first
    | with_reducible assumption | with_reducible apply State.traceRecord_keeps | with_reducible apply State.rereadAll_keeps
    | with_reducible apply State.lose_keeps | with_reducible apply State.modTx_keeps | with_reducible apply keeps_ite | split

theorem State.resendFrom_keeps {g : Pledge} (s : State) (n psn : Nat) (h : s.Keeps g) : (State.resendFrom s n psn).Keeps g := by
  unfold State.resendFrom
  try dsimp only
  repeat' first
    | with_reducible assumption | with_reducible apply State.modTx_keeps | with_reducible apply State.rereadAll_keeps
    | with_reducible apply State.lose_keeps | split

theorem State.rtoExpiry_keeps {g : Pledge} (s : State) (n : Nat) (h : s.Keeps g) : (State.rtoExpiry s n).Keeps g := by
  unfold State.rtoExpiry
  try dsimp only
  repeat' first
    | with_reducible assumption | with_reducible apply State.connError_keeps | with_reducible apply State.rereadAll_keeps
    | with_reducible apply State.lose_keeps | with_reducible apply State.pathFail_keeps
    | (with_reducible apply keeps_of_fields; dsimp only; with_reducible apply fields_of_keeps) | with_reducible apply keeps_ite
    | split

theorem State.probePaths_keeps {g : Pledge} (s : State) (n : Nat) (h : s.Keeps g) : (State.probePaths s n).Keeps g := by
  unfold State.probePaths
  try dsimp only
  repeat' first
    | with_reducible assumption | with_reducible apply forEach_keeps | with_reducible apply State.sendOn_keeps
    | with_reducible apply State.modConn_keeps | with_reducible apply keeps_ite | split | (intro st x hst; try dsimp only)

theorem State.probeReply_keeps {g : Pledge} (s : State) (n p : Nat) (h : s.Keeps g) : (State.probeReply s n p).Keeps g := by
  unfold State.probeReply
  try dsimp only
  repeat' first
    | with_reducible assumption | with_reducible apply State.pathLive_keeps
    | (with_reducible apply keeps_of_fields; dsimp only; with_reducible apply fields_of_keeps) | with_reducible apply keeps_ite
    | split

theorem State.drainMax_keeps {g : Pledge} (s : State) (n p : Nat) (h : s.Keeps g) : (State.drainMax s n p).Keeps g := by
  unfold State.drainMax
  try dsimp only
  repeat' first
    | with_reducible assumption | with_reducible apply State.rereadAll_keeps | with_reducible apply State.lose_keeps
    | (with_reducible apply keeps_of_fields; dsimp only; with_reducible apply fields_of_keeps) | with_reducible apply keeps_ite
    | split

theorem State.responsePlaced_keeps {g : Pledge} (s : State) (n psn type : Nat) (x : XResult) (h : s.Keeps g) :
    (State.responsePlaced s n psn type x).Keeps g := by
  unfold State.responsePlaced
  try dsimp only
  repeat' first
    | with_reducible assumption | with_reducible apply State.noteStatus_keeps | with_reducible apply State.modJob_keeps
    | with_reducible apply State.switchPaths_keeps | with_reducible apply State.checkSend_keeps
    | with_reducible apply State.modConn_keeps | with_reducible apply keeps_ite | split

end Sys2Proof.Machine
end

