-- ==== Sys2Proof/Laws/KeepsWork.lean ====
section
/-! SUPPORT. Laws/KeepsWork.lean: a pledge (Safety.lean) is kept by ring work, program runs, objects, egress and the end of a step: one lemma for each function. -/

namespace Sys2Proof.Machine

/-! ### Work -/

theorem State.evictOne_keeps {g : Pledge} (s : State) (h : s.Keeps g) : (State.evictOne s).Keeps g := by
  unfold State.evictOne
  try dsimp only
  repeat' first
    | with_reducible assumption | with_reducible apply State.modConn_keeps | split

theorem State.evict_keeps {g : Pledge} (s : State) (h : s.Keeps g) : (State.evict s).Keeps g := by
  unfold State.evict
  try dsimp only
  repeat' first
    | with_reducible assumption | with_reducible apply State.evictOne_keeps | with_reducible apply foldl_keeps
    | (intro st x hst; try dsimp only)

theorem State.touchConn_keeps {g : Pledge} (s : State) (n : Nat) (h : s.Keeps g) : (State.touchConn s n).Keeps g := by
  unfold State.touchConn
  try dsimp only
  repeat' first
    | with_reducible assumption | with_reducible apply State.newId_keeps | with_reducible apply State.modConn_keeps

theorem State.fetchContext_keeps {g : Pledge} (s : State) (n : Nat) (h : s.Keeps g) : (State.fetchContext s n).Keeps g := by
  unfold State.fetchContext
  try dsimp only
  repeat' first
    | with_reducible assumption | with_reducible apply State.newId_keeps | with_reducible apply State.evict_keeps
    | with_reducible apply State.modConn_keeps | with_reducible apply State.countGlobal_keeps | with_reducible apply keeps_ite
    | split

theorem State.takeJob_keeps {g : Pledge} (s : State) (f : FuncId) (r : Nat) (x : Ring) (j : Job) (k : Nat) (h : s.Keeps g) :
    ∀ out, State.takeJob s f r x j k = some out → out.Keeps g := by
  unfold State.takeJob
  try dsimp only
  repeat' first
    | with_reducible assumption | with_reducible apply State.modRing_keeps
    | (show ∀ _ : State, _; with_reducible apply State.reserveCq_keeps) | with_reducible refine keeps_map ?_ ?_
    | with_reducible refine keeps_some ?_ | split | (intro st hst; try dsimp only)

theorem State.badRequest_keeps {g : Pledge} (s : State) (f : FuncId) (r : Nat) (x : Ring) (slot : Nat) (ent : Bytes)
     (exts : List Bytes) (k status : Nat) (h : s.Keeps g) : (State.badRequest s f r x slot ent exts k status).Keeps g := by
  unfold State.badRequest
  try dsimp only
  repeat' first
    | with_reducible assumption | with_reducible apply State.ringError_keeps | with_reducible apply State.finishJob_keeps
    | (refine keeps_of_some (by with_reducible assumption) ?_) | (show ∀ _ : State, _; with_reducible apply State.takeJob_keeps)
    | split

theorem State.judgeHeld_keeps {g : Pledge} (s : State) (f : FuncId) (r : Nat) (h : s.Keeps g) :
    (State.judgeHeld s f r).Keeps g := by
  unfold State.judgeHeld
  try dsimp only
  repeat' first
    | with_reducible assumption | with_reducible apply State.badRequest_keeps | with_reducible apply keeps_ite | split

theorem State.refreshSet_keeps {g : Pledge} (s : State) (d : DieId) (h : s.Keeps g) : (State.refreshSet s d).Keeps g := by
  unfold State.refreshSet
  try dsimp only
  repeat' first
    | with_reducible assumption | with_reducible apply forEach_keeps | with_reducible apply State.modRing_keeps
    | with_reducible apply State.leaveSet_keeps | with_reducible apply keeps_ite | (intro st x hst; try dsimp only)

theorem State.refillRings_keeps {g : Pledge} (s : State) (d : DieId) (h : s.Keeps g) : (State.refillRings s d).Keeps g := by
  unfold State.refillRings
  try dsimp only
  repeat' first
    | with_reducible assumption | with_reducible apply forEach_keeps | with_reducible apply State.modRing_keeps
    | (with_reducible apply keeps_of_fields; dsimp only; with_reducible apply fields_of_keeps)
    | (intro st x hst; try dsimp only)

theorem State.arbiter_keeps {g : Pledge} (s : State) (d : DieId) (h : s.Keeps g) : (State.arbiter s d).1.Keeps g := by
  unfold State.arbiter
  try dsimp only
  repeat' first
    | with_reducible assumption | with_reducible apply State.refreshSet_keeps | with_reducible apply forEach_keeps
    | with_reducible apply State.endTurn_keeps | with_reducible apply State.refillRings_keeps | split
    | (intro st x hst; try dsimp only)

theorem State.refillIdle_keeps {g : Pledge} (s : State) (d : DieId) (h : s.Keeps g) : (State.refillIdle s d).Keeps g := by
  unfold State.refillIdle
  try dsimp only
  repeat' first
    | with_reducible assumption | with_reducible apply State.refillRings_keeps | with_reducible apply keeps_ite

theorem State.accessFault_keeps {g : Pledge} (s : State) (f : FuncId) (r slot : Nat) (h : s.Keeps g) :
    (State.accessFault s f r slot).Keeps g := by
  unfold State.accessFault
  try dsimp only
  repeat' first
    | with_reducible assumption | with_reducible apply State.finishJob_keeps | with_reducible apply State.count_keeps

theorem State.copyRead_keeps {g : Pledge} (s : State) (f : FuncId) (r : Nat) (j : Job) (h : s.Keeps g) :
    (State.copyRead s f r j).Keeps g := by
  unfold State.copyRead
  try dsimp only
  repeat' first
    | with_reducible assumption | with_reducible apply State.startXfer_keeps

theorem State.startCopy_keeps {g : Pledge} (s : State) (f : FuncId) (r : Nat) (x : Ring) (j : Job) (h : s.Keeps g) :
    (State.startCopy s f r x j).Keeps g := by
  unfold State.startCopy
  try dsimp only
  repeat' first
    | with_reducible assumption | with_reducible apply State.finishJob_keeps | with_reducible apply State.accessFault_keeps
    | with_reducible apply State.copyRead_keeps | with_reducible apply State.modJob_keeps
    | with_reducible apply State.startRead_keeps
    | (with_reducible apply keeps_of_fields; dsimp only; with_reducible apply fields_of_keeps) | with_reducible apply keeps_ite
    | split

theorem State.copyAgain_keeps {g : Pledge} (s : State) (f : FuncId) (r slot : Nat) (h : s.Keeps g) :
    (State.copyAgain s f r slot).Keeps g := by
  unfold State.copyAgain
  try dsimp only
  repeat' first
    | with_reducible assumption | with_reducible apply State.copyRead_keeps | with_reducible apply keeps_ite | split

theorem State.checkCopy_keeps {g : Pledge} (s : State) (f : FuncId) (r slot : Nat) (h : s.Keeps g) :
    (State.checkCopy s f r slot).Keeps g := by
  unfold State.checkCopy
  try dsimp only
  repeat' first
    | with_reducible assumption | with_reducible apply State.finishJob_keeps | with_reducible apply State.modJob_keeps
    | with_reducible apply keeps_ite | split

theorem State.failCopy_keeps {g : Pledge} (s : State) (f : FuncId) (r slot status : Nat) (h : s.Keeps g) :
    (State.failCopy s f r slot status).Keeps g := by
  unfold State.failCopy
  try dsimp only
  repeat' first
    | with_reducible assumption | with_reducible apply forEach_keeps | with_reducible apply State.dropXfer_keeps
    | with_reducible apply State.undefineRuns_keeps | with_reducible apply State.finishJob_keeps
    | (with_reducible apply keeps_of_fields; dsimp only; with_reducible apply fields_of_keeps) | with_reducible apply keeps_ite

theorem State.copyTagRead_keeps {g : Pledge} (s : State) (f : FuncId) (r slot : Nat) (x : XResult) (h : s.Keeps g) :
    (State.copyTagRead s f r slot x).Keeps g := by
  unfold State.copyTagRead
  try dsimp only
  repeat' first
    | with_reducible assumption | with_reducible apply State.copyRead_keeps | with_reducible apply State.modJob_keeps
    | with_reducible apply State.failCopy_keeps | split

theorem State.copySrcRead_keeps {g : Pledge} (s : State) (f : FuncId) (r slot : Nat) (x : XResult) (h : s.Keeps g) :
    (State.copySrcRead s f r slot x).Keeps g := by
  unfold State.copySrcRead
  try dsimp only
  repeat' first
    | with_reducible assumption | with_reducible apply State.modJob_keeps | with_reducible apply State.tryXfer_keeps
    | with_reducible apply State.modXfer_keeps | with_reducible apply State.startXfer_keeps
    | with_reducible apply State.failCopy_keeps | with_reducible apply State.startWrite_keeps | with_reducible apply keeps_ite
    | split

theorem State.copyPlaced_keeps {g : Pledge} (s : State) (f : FuncId) (r slot : Nat) (x : XResult) (h : s.Keeps g) :
    (State.copyPlaced s f r slot x).Keeps g := by
  unfold State.copyPlaced
  try dsimp only
  repeat' first
    | with_reducible assumption | with_reducible apply State.checkCopy_keeps | with_reducible apply State.failCopy_keeps | split

theorem State.rawFlush_keeps {g : Pledge} (s : State) (h : s.Keeps g) : (State.rawFlush s).Keeps g := by
  unfold State.rawFlush
  try dsimp only
  repeat' first
    | with_reducible assumption | with_reducible apply forEach_keeps | with_reducible apply State.flushOwn_keeps
    | with_reducible apply State.shapersHold_keeps | with_reducible apply State.enqueue_keeps
    | with_reducible apply State.shapersCharge_keeps | with_reducible apply State.modJob_keeps | with_reducible apply keeps_ite
    | (intro st x hst; try dsimp only)

theorem State.rawSrcDone_keeps {g : Pledge} (s : State) (f : FuncId) (r slot : Nat) (x : XResult) (h : s.Keeps g) :
    (State.rawSrcDone s f r slot x).Keeps g := by
  unfold State.rawSrcDone
  try dsimp only
  repeat' first
    | with_reducible assumption | with_reducible apply State.rawFlush_keeps | with_reducible apply State.modJob_keeps
    | with_reducible apply State.finishJob_keeps | split

theorem State.startRaw_keeps {g : Pledge} (s : State) (f : FuncId) (r q : Nat) (j : Job) (h : s.Keeps g) :
    (State.startRaw s f r q j).Keeps g := by
  unfold State.startRaw
  try dsimp only
  repeat' first
    | with_reducible assumption | with_reducible apply State.finishJob_keeps | with_reducible apply State.accessFault_keeps
    | with_reducible apply State.modJob_keeps | with_reducible apply State.startRead_keeps | with_reducible apply keeps_ite

theorem State.startNet_keeps {g : Pledge} (s : State) (f : FuncId) (r : Nat) (x : Ring) (j : Job) (h : s.Keeps g) :
    (State.startNet s f r x j).Keeps g := by
  unfold State.startNet
  try dsimp only
  repeat' first
    | with_reducible assumption | with_reducible apply State.startRaw_keeps | with_reducible apply State.finishJob_keeps
    | with_reducible apply State.accessFault_keeps | with_reducible apply State.modJob_keeps
    | with_reducible apply State.modTx_keeps | with_reducible apply State.modConn_keeps
    | with_reducible apply State.touchConn_keeps | with_reducible apply State.readNext_keeps | with_reducible apply keeps_ite
    | split

theorem State.startColl_keeps {g : Pledge} (s : State) (f : FuncId) (r : Nat) (j : Job) (h : s.Keeps g) :
    (State.startColl s f r j).Keeps g := by
  unfold State.startColl
  try dsimp only
  repeat' first
    | with_reducible assumption | with_reducible apply State.finishJob_keeps | with_reducible apply State.launch_keeps
    | with_reducible apply keeps_ite | split

theorem State.startHeld_keeps {g : Pledge} (s : State) (f : FuncId) (r : Nat) (x : Ring) (h : s.Keeps g) :
    (State.startHeld s f r x).Keeps g := by
  unfold State.startHeld
  try dsimp only
  repeat' first
    | with_reducible assumption | with_reducible apply State.traceRecord_keeps | with_reducible apply State.modRing_keeps
    | with_reducible apply State.finishJob_keeps | with_reducible apply State.startCopy_keeps
    | with_reducible apply State.startNet_keeps | with_reducible apply State.startColl_keeps
    | (refine keeps_of_some (by with_reducible assumption) ?_) | (show ∀ _ : State, _; with_reducible apply State.takeJob_keeps)
    | with_reducible apply keeps_ite | split

theorem State.startRow_keeps {g : Pledge} (s : State) (f : FuncId) (r : Nat) (is : Ring → Bytes → List Bytes → Bool)
     (h : s.Keeps g) : (State.startRow s f r is).Keeps g := by
  unfold State.startRow
  try dsimp only
  repeat' first
    | with_reducible assumption | with_reducible apply State.judgeHeld_keeps | with_reducible apply State.fetchContext_keeps
    | with_reducible apply State.arbiter_keeps | with_reducible apply State.refreshSet_keeps
    | with_reducible apply State.startHeld_keeps | (refine keeps_of_fst (by with_reducible assumption) ?_)
    | with_reducible apply keeps_ite | split

theorem State.readEntries_keeps {g : Pledge} (s : State) (h : s.Keeps g) : (State.readEntries s).Keeps g := by
  unfold State.readEntries
  try dsimp only
  repeat' first
    | with_reducible assumption | with_reducible apply forEach_keeps | with_reducible apply State.startXfer_keeps
    | with_reducible apply keeps_ite | split | (intro st x hst; try dsimp only)

theorem State.entryTaken_keeps {g : Pledge} (s : State) (f : FuncId) (r : Nat) (last : Bool) (x : XResult) (h : s.Keeps g) :
    (State.entryTaken s f r last x).Keeps g := by
  unfold State.entryTaken
  try dsimp only
  repeat' first
    | with_reducible assumption | with_reducible apply State.modRing_keeps | with_reducible apply State.refreshSet_keeps
    | with_reducible apply State.judgeHeld_keeps | with_reducible apply State.badRequest_keeps | with_reducible apply keeps_ite
    | split

theorem State.entryRead_keeps {g : Pledge} (s : State) (f : FuncId) (r : Nat) (bytes : Bytes) (last : Bool) (obs : BlockObs)
     (h : s.Keeps g) : (State.entryRead s f r bytes last obs).Keeps g := by
  unfold State.entryRead
  try dsimp only
  repeat' first
    | with_reducible assumption | with_reducible apply State.modXfer_keeps | with_reducible apply State.hostReadDone_keeps
    | with_reducible apply State.memReadDone_keeps | with_reducible apply keeps_ite | split

theorem State.entryFault_keeps {g : Pledge} (s : State) (f : FuncId) (r : Nat) (cause : EntryFault) (h : s.Keeps g) :
    (State.entryFault s f r cause).Keeps g := by
  unfold State.entryFault
  try dsimp only
  repeat' first
    | with_reducible assumption | with_reducible apply State.memReadDone_keeps | with_reducible apply State.endXfer_keeps
    | with_reducible apply keeps_ite | split

/-! ### Runs -/

theorem State.storeWrite_keeps {g : Pledge} (s : State) (l : Loc) (bs : Bytes) (h : s.Keeps g) :
    (State.storeWrite s l bs).Keeps g := by
  unfold State.storeWrite
  try dsimp only
  repeat' first
    | with_reducible assumption | (with_reducible apply keeps_of_fields; dsimp only; with_reducible apply fields_of_keeps)
    | with_reducible apply keeps_ite

theorem State.streamWrite_keeps {g : Pledge} (s : State) (l : Loc) (bs : Bytes) (h : s.Keeps g) :
    (State.streamWrite s l bs).Keeps g := by
  unfold State.streamWrite
  try dsimp only
  repeat' first
    | with_reducible assumption | with_reducible apply State.storeWrite_keeps
    | (with_reducible apply keeps_of_fields; dsimp only; with_reducible apply fields_of_keeps) | with_reducible apply keeps_ite

theorem State.tineWrite_keeps {g : Pledge} (s : State) (l : Loc) (bs : Bytes) (h : s.Keeps g) :
    (State.tineWrite s l bs).Keeps g := by
  unfold State.tineWrite
  try dsimp only
  repeat' first
    | with_reducible assumption | with_reducible apply State.storeWrite_keeps
    | (with_reducible apply keeps_of_fields; dsimp only; with_reducible apply fields_of_keeps) | with_reducible apply keeps_ite

theorem State.barrier_keeps {g : Pledge} (s : State) (core : Nat) (h : s.Keeps g) : (State.barrier s core).Keeps g := by
  unfold State.barrier
  try dsimp only
  repeat' first
    | with_reducible assumption | (with_reducible apply keeps_of_fields; dsimp only; with_reducible apply fields_of_keeps)

theorem State.sameCycle_keeps {g : Pledge} (s : State) (l : List (Loc × Bytes)) (h : s.Keeps g) :
    (State.sameCycle s l).Keeps g := by
  unfold State.sameCycle
  try dsimp only
  repeat' first
    | with_reducible assumption | with_reducible apply forEach_keeps | with_reducible apply State.tineWrite_keeps
    | (intro st x hst; try dsimp only)

theorem State.tineFlags_keeps {g : Pledge} (s : State) (n fl : Nat) (h : s.Keeps g) : (State.tineFlags s n fl).Keeps g := by
  unfold State.tineFlags
  try dsimp only
  repeat' first
    | with_reducible assumption | (with_reducible apply keeps_of_fields; dsimp only; with_reducible apply fields_of_keeps)
    | with_reducible apply keeps_ite

theorem State.clearFlags_keeps {g : Pledge} (s : State) (p : Prog) (h : s.Keeps g) : (State.clearFlags s p).Keeps g := by
  unfold State.clearFlags
  try dsimp only
  repeat' first
    | with_reducible assumption | (with_reducible apply keeps_of_fields; dsimp only; with_reducible apply fields_of_keeps)

theorem State.tineOp_keeps {g : Pledge} (s : State) (p : Prog) (r : Run) (o : TineOp) (h : s.Keeps g) :
    (State.tineOp s p r o).Keeps g := by
  unfold State.tineOp
  try dsimp only
  repeat' first
    | with_reducible assumption | with_reducible apply State.tineFlags_keeps | with_reducible apply State.tineWrite_keeps
    | with_reducible apply State.sameCycle_keeps | with_reducible apply State.barrier_keeps | split

theorem State.streamIn_keeps {g : Pledge} (s : State) (p : Prog) (src : StreamEnd) (d : Loc) (len : Nat) (obs : List BlockObs)
     (h : s.Keeps g) : (State.streamIn s p src d len obs).1.Keeps g := by
  unfold State.streamIn
  try dsimp only
  repeat' first
    | with_reducible assumption | with_reducible apply forEach_keeps | with_reducible apply State.fabSend_keeps
    | with_reducible apply State.readRuns_keeps | with_reducible apply State.streamWrite_keeps | split
    | (intro st x hst; try dsimp only)

theorem State.streamOut_keeps {g : Pledge} (s : State) (n : Nat) (p : Prog) (a : Loc) (dst : StreamEnd) (len : Nat)
     (h : s.Keeps g) : (State.streamOut s n p a dst len).Keeps g := by
  unfold State.streamOut
  try dsimp only
  repeat' first
    | with_reducible assumption | with_reducible apply forEach_keeps | with_reducible apply State.fabSend_keeps
    | with_reducible apply State.ownWrite_keeps | with_reducible apply State.writeRuns_keeps | split
    | (intro st x hst; try dsimp only)

theorem State.tineOps_keeps {g : Pledge} (s : State) (n : Nat) (p : Prog) (r : Run) (l : List TineOp) (h : s.Keeps g) :
    (State.tineOps s n p r l).1.Keeps g := by
  induction l generalizing s with
  | nil => exact h
  | cons o rest ih =>
    unfold State.tineOps
    split
    · exact h
    · exact h
    · next src d len obs _ heq =>
      cases heq
      have k := State.streamIn_keeps s p src d len obs h
      dsimp only
      split
      · exact k
      · exact ih _ k
    · next heq =>
      cases heq
      exact ih _ (State.streamOut_keeps s n p _ _ _ h)
    · next heq =>
      cases heq
      exact ih _ (State.tineOp_keeps _ _ _ _ h)

theorem State.noteStore_keeps {g : Pledge} (s : State) (o : TineOp) (h : s.Keeps g) : (State.noteStore s o).Keeps g := by
  unfold State.noteStore
  try dsimp only
  repeat' first
    | with_reducible assumption | (with_reducible apply keeps_of_fields; dsimp only; with_reducible apply fields_of_keeps)
    | with_reducible apply keeps_ite | split

theorem State.warm_keeps {g : Pledge} (s : State) (l : List Nat) (h : s.Keeps g) : (State.warm s l).Keeps g := by
  unfold State.warm
  try dsimp only
  repeat' first
    | with_reducible assumption | (with_reducible apply keeps_of_fields; dsimp only; with_reducible apply fields_of_keeps)

theorem State.markLate_keeps {g : Pledge} (s : State) (h : s.Keeps g) : (State.markLate s).Keeps g := by
  unfold State.markLate
  try dsimp only
  repeat' first
    | with_reducible assumption | (with_reducible apply keeps_of_fields; dsimp only; with_reducible apply fields_of_keeps)

theorem State.dropRunXfers_keeps {g : Pledge} (s : State) (n : Nat) (h : s.Keeps g) : (State.dropRunXfers s n).Keeps g := by
  unfold State.dropRunXfers
  try dsimp only
  repeat' first
    | with_reducible assumption | with_reducible apply forEach_keeps | with_reducible apply State.dropXfer_keeps
    | (with_reducible apply keeps_of_fields; dsimp only; with_reducible apply fields_of_keeps)

theorem State.modRun_keeps {g : Pledge} (s : State) (n : Nat) (x : Run → Run) (h : s.Keeps g) : (State.modRun s n x).Keeps g := by
  unfold State.modRun
  try dsimp only
  repeat' first
    | with_reducible assumption | with_reducible apply State.modProg_keeps

theorem State.undefineOutputs_keeps {g : Pledge} (s : State) (p : Prog) (h : s.Keeps g) :
    (State.undefineOutputs s p).Keeps g := by
  unfold State.undefineOutputs
  try dsimp only
  repeat' first
    | with_reducible assumption | with_reducible apply State.undefineRuns_keeps

theorem State.resolveRun_keeps {g : Pledge} (s : State) (n : Nat) (h : s.Keeps g) : (State.resolveRun s n).Keeps g := by
  unfold State.resolveRun
  try dsimp only
  repeat' first
    | with_reducible assumption | with_reducible apply State.modRun_keeps
    | (with_reducible apply keeps_of_fields; dsimp only; with_reducible apply fields_of_keeps)

theorem State.closeRun_keeps {g : Pledge} (s0 : State) (n : Nat) (p : Prog) (r : Run) (h : s0.Keeps g) :
    (State.closeRun s0 n p r).Keeps g := by
  unfold State.closeRun
  try dsimp only
  repeat' first
    | with_reducible assumption | with_reducible apply State.undefineOutputs_keeps | with_reducible apply State.modProg_keeps
    | with_reducible apply State.count_keeps
    | (with_reducible apply keeps_of_fields; dsimp only; with_reducible apply fields_of_keeps) | with_reducible apply keeps_ite

theorem State.postRun_keeps {g : Pledge} (s0 : State) (n : Nat) (h : s0.Keeps g) : (State.postRun s0 n).Keeps g := by
  unfold State.postRun
  try dsimp only
  repeat' first
    | with_reducible assumption | with_reducible apply State.resolveRun_keeps | with_reducible apply State.closeRun_keeps
    | with_reducible apply State.modRun_keeps | with_reducible apply State.postCqe_keeps
    | (refine keeps_of_some (by with_reducible assumption) ?_)
    | (show ∀ _ : State, _; with_reducible apply State.reserveCq_keeps) | with_reducible apply keeps_ite | split

theorem State.oweRun_keeps {g : Pledge} (s0 : State) (n : Nat) (h : s0.Keeps g) : (State.oweRun s0 n).Keeps g := by
  unfold State.oweRun
  try dsimp only
  repeat' first
    | with_reducible assumption | with_reducible apply State.resolveRun_keeps | with_reducible apply State.closeRun_keeps
    | (with_reducible apply keeps_of_fields; dsimp only; with_reducible apply fields_of_keeps) | split

theorem State.postNow_keeps {g : Pledge} (s : State) (n : Nat) (h : s.Keeps g) : (State.postNow s n).Keeps g := by
  unfold State.postNow
  try dsimp only
  repeat' first
    | with_reducible assumption | with_reducible apply State.postRun_keeps | with_reducible apply State.oweRun_keeps
    | with_reducible apply keeps_ite

theorem State.sendAnswer_keeps {g : Pledge} (s : State) (p : Prog) (r : Run) (b : Binding) (h : s.Keeps g) :
    (State.sendAnswer s p r b).Keeps g := by
  unfold State.sendAnswer
  try dsimp only
  repeat' first
    | with_reducible assumption | with_reducible apply State.enqueueOwn_keeps

theorem State.releaseRun_keeps {g : Pledge} (s0 : State) (n : Nat) (h : s0.Keeps g) : (State.releaseRun s0 n).Keeps g := by
  unfold State.releaseRun
  try dsimp only
  repeat' first
    | with_reducible assumption | with_reducible apply State.resolveRun_keeps | with_reducible apply forEach_keeps
    | with_reducible apply State.sendAnswer_keeps | with_reducible apply State.advanceTrig_keeps
    | with_reducible apply State.postRun_keeps | split | (intro st x hst; try dsimp only)

theorem State.outputsVisible_keeps {g : Pledge} (s : State) (n : Nat) (h : s.Keeps g) : (State.outputsVisible s n).Keeps g := by
  unfold State.outputsVisible
  try dsimp only
  repeat' first
    | with_reducible assumption | with_reducible apply State.modRun_keeps | with_reducible apply State.postRun_keeps
    | with_reducible apply State.releaseRun_keeps | with_reducible apply keeps_ite | split

theorem State.writeOutputs_keeps {g : Pledge} (s0 : State) (n : Nat) (h : s0.Keeps g) : (State.writeOutputs s0 n).Keeps g := by
  unfold State.writeOutputs
  try dsimp only
  repeat' first
    | with_reducible assumption | with_reducible apply State.resolveRun_keeps | with_reducible apply State.modRun_keeps
    | with_reducible apply State.outputsVisible_keeps | with_reducible apply forEach_keeps
    | with_reducible apply State.startWrite_keeps | with_reducible apply State.count_keeps
    | (with_reducible apply keeps_of_fields; dsimp only; with_reducible apply fields_of_keeps) | with_reducible apply keeps_ite
    | split | (intro st x hst; try dsimp only)

theorem State.runOutDone_keeps {g : Pledge} (s : State) (n : Nat) (x : XResult) (h : s.Keeps g) :
    (State.runOutDone s n x).Keeps g := by
  unfold State.runOutDone
  try dsimp only
  repeat' first
    | with_reducible assumption | with_reducible apply State.modRun_keeps | with_reducible apply State.outputsVisible_keeps
    | split

theorem State.scatter_keeps {g : Pledge} (s : State) (p : Prog) (h : s.Keeps g) : (State.scatter s p).Keeps g := by
  unfold State.scatter
  try dsimp only
  repeat' first
    | with_reducible assumption | (with_reducible apply keeps_of_fields; dsimp only; with_reducible apply fields_of_keeps)

theorem State.abortRun_keeps {g : Pledge} (s : State) (n status : Nat) (fails now : Bool) (h : s.Keeps g) :
    (State.abortRun s n status fails now).Keeps g := by
  unfold State.abortRun
  try dsimp only
  repeat' first
    | with_reducible assumption | with_reducible apply State.signalBound_keeps | with_reducible apply State.fault_keeps
    | with_reducible apply State.modProg_keeps | with_reducible apply State.modRun_keeps
    | with_reducible apply State.postNow_keeps | with_reducible apply State.dropRunXfers_keeps
    | with_reducible apply State.scatter_keeps | with_reducible apply State.postRun_keeps
    | (with_reducible apply keeps_of_fields; dsimp only; with_reducible apply fields_of_keeps) | with_reducible apply keeps_ite
    | split

theorem State.feedRun_keeps {g : Pledge} (s : State) (r : Run) (h : s.Keeps g) : (State.feedRun s r).Keeps g := by
  unfold State.feedRun
  try dsimp only
  repeat' first
    | with_reducible assumption | with_reducible apply forEach_keeps | with_reducible apply State.streamWrite_keeps
    | (with_reducible apply keeps_of_fields; dsimp only; with_reducible apply fields_of_keeps)
    | (intro st x hst; try dsimp only)

theorem State.inputsReady_keeps {g : Pledge} (s : State) (n : Nat) (h : s.Keeps g) : (State.inputsReady s n).Keeps g := by
  unfold State.inputsReady
  try dsimp only
  repeat' first
    | with_reducible assumption | with_reducible apply State.modRun_keeps | with_reducible apply State.feedRun_keeps
    | with_reducible apply keeps_ite | split

theorem State.streamInputs_keeps {g : Pledge} (s : State) (n : Nat) (h : s.Keeps g) : (State.streamInputs s n).Keeps g := by
  unfold State.streamInputs
  try dsimp only
  repeat' first
    | with_reducible assumption | with_reducible apply State.modRun_keeps | with_reducible apply State.inputsReady_keeps
    | with_reducible apply forEach_keeps | with_reducible apply State.startRead_keeps | with_reducible apply State.count_keeps
    | (with_reducible apply keeps_of_fields; dsimp only; with_reducible apply fields_of_keeps) | with_reducible apply keeps_ite
    | split | (intro st x hst; try dsimp only)

theorem State.runInDone_keeps {g : Pledge} (s : State) (n slot : Nat) (x : XResult) (h : s.Keeps g) :
    (State.runInDone s n slot x).Keeps g := by
  unfold State.runInDone
  try dsimp only
  repeat' first
    | with_reducible assumption | with_reducible apply State.inputsReady_keeps | with_reducible apply State.modRun_keeps
    | with_reducible apply State.abortRun_keeps | split

theorem State.startRun_keeps {g : Pledge} (s : State) (n : Nat) (feed : List Piece) (h : s.Keeps g) :
    (State.startRun s n feed).Keeps g := by
  unfold State.startRun
  try dsimp only
  repeat' first
    | with_reducible assumption | with_reducible apply State.clearFlags_keeps | with_reducible apply State.modProg_keeps
    | with_reducible apply State.traceRecord_keeps | with_reducible apply State.streamInputs_keeps
    | (with_reducible apply keeps_of_fields; dsimp only; with_reducible apply fields_of_keeps) | with_reducible apply keeps_ite
    | split

theorem State.rampGranted_keeps {g : Pledge} (s : State) (n : Nat) (h : s.Keeps g) : (State.rampGranted s n).Keeps g := by
  unfold State.rampGranted
  try dsimp only
  repeat' first
    | with_reducible assumption | with_reducible apply State.streamInputs_keeps | with_reducible apply State.warm_keeps
    | (with_reducible apply keeps_of_fields; dsimp only; with_reducible apply fields_of_keeps) | with_reducible apply keeps_ite
    | split

theorem State.warmExpiry_keeps {g : Pledge} (s : State) (fur : Nat) (h : s.Keeps g) : (State.warmExpiry s fur).Keeps g := by
  unfold State.warmExpiry
  try dsimp only
  repeat' first
    | with_reducible assumption | (with_reducible apply keeps_of_fields; dsimp only; with_reducible apply fields_of_keeps)
    | with_reducible apply keeps_ite

theorem State.endBarriers_keeps {g : Pledge} (s : State) (p : Prog) (h : s.Keeps g) : (State.endBarriers s p).Keeps g := by
  unfold State.endBarriers
  try dsimp only
  repeat' first
    | with_reducible assumption | with_reducible apply forEach_keeps | with_reducible apply State.barrier_keeps

theorem State.scheduleEnd_keeps {g : Pledge} (s : State) (n : Nat) (h : s.Keeps g) : (State.scheduleEnd s n).Keeps g := by
  unfold State.scheduleEnd
  try dsimp only
  repeat' first
    | with_reducible assumption | with_reducible apply State.writeOutputs_keeps | with_reducible apply State.modRun_keeps
    | with_reducible apply keeps_ite | split

theorem State.frameVerdict_keeps {g : Pledge} (s : State) (n : Nat) (good : Bool) (h : s.Keeps g) :
    (State.frameVerdict s n good).Keeps g := by
  unfold State.frameVerdict
  try dsimp only
  repeat' first
    | with_reducible assumption | with_reducible apply State.modRun_keeps | with_reducible apply State.releaseRun_keeps
    | with_reducible apply State.postRun_keeps | with_reducible apply State.modProg_keeps
    | with_reducible apply State.undefineOutputs_keeps | with_reducible apply State.dropRunXfers_keeps
    | with_reducible apply State.scatter_keeps | with_reducible apply State.closeRun_keeps
    | (with_reducible apply keeps_of_fields; dsimp only; with_reducible apply fields_of_keeps) | with_reducible apply keeps_ite
    | split

theorem State.gleanReached_keeps {g : Pledge} (s : State) (n step : Nat) (data : Bytes) (h : s.Keeps g) :
    (State.gleanReached s n step data).Keeps g := by
  unfold State.gleanReached
  try dsimp only
  repeat' first
    | with_reducible assumption | with_reducible apply State.modRun_keeps | with_reducible apply State.startWrite_keeps
    | with_reducible apply State.count_keeps
    | (with_reducible apply keeps_of_fields; dsimp only; with_reducible apply fields_of_keeps) | with_reducible apply keeps_ite
    | split

theorem State.gleanDone_keeps {g : Pledge} (s : State) (n : Nat) (x : XResult) (h : s.Keeps g) :
    (State.gleanDone s n x).Keeps g := by
  unfold State.gleanDone
  try dsimp only
  repeat' first
    | with_reducible assumption | with_reducible apply State.modProg_keeps | with_reducible apply State.signalBound_keeps
    | split

theorem State.loadStore_keeps {g : Pledge} (s : State) (n bytes : Nat) (h : s.Keeps g) : (State.loadStore s n bytes).Keeps g := by
  unfold State.loadStore
  try dsimp only
  repeat' first
    | with_reducible assumption | (with_reducible apply keeps_of_fields; dsimp only; with_reducible apply fields_of_keeps)

theorem State.loseTine_keeps {g : Pledge} (s : State) (fur core tine : Nat) (h : s.Keeps g) :
    (State.loseTine s fur core tine).Keeps g := by
  unfold State.loseTine
  try dsimp only
  repeat' first
    | with_reducible assumption | with_reducible apply State.postFallow_keeps | with_reducible apply State.abortRun_keeps
    | (with_reducible apply keeps_of_fields; dsimp only; with_reducible apply fields_of_keeps) | with_reducible apply keeps_ite
    | split

theorem State.drawSpare_keeps {g : Pledge} (s : State) (fur core tine : Nat) (h : s.Keeps g) :
    (State.drawSpare s fur core tine).Keeps g := by
  unfold State.drawSpare
  try dsimp only
  repeat' first
    | with_reducible assumption | with_reducible apply State.postFallow_keeps
    | (with_reducible apply keeps_of_fields; dsimp only; with_reducible apply fields_of_keeps)

theorem State.tineFault_keeps {g : Pledge} (s : State) (fur core tine : Nat) (h : s.Keeps g) :
    (State.tineFault s fur core tine).Keeps g := by
  unfold State.tineFault
  try dsimp only
  repeat' first
    | with_reducible assumption | with_reducible apply State.loseTine_keeps | with_reducible apply State.drawSpare_keeps
    | with_reducible apply State.abortRun_keeps | with_reducible apply State.loadStore_keeps | with_reducible apply keeps_ite
    | split

theorem State.storeFailed_keeps {g : Pledge} (s : State) (l : Option Loc) (h : s.Keeps g) : (State.storeFailed s l).Keeps g := by
  unfold State.storeFailed
  try dsimp only
  repeat' first
    | with_reducible assumption | with_reducible apply State.tineFault_keeps | with_reducible apply keeps_ite | split

theorem State.thresholdDraw_keeps {g : Pledge} (s : State) (fur core tine : Nat) (h : s.Keeps g) :
    (State.thresholdDraw s fur core tine).Keeps g := by
  unfold State.thresholdDraw
  try dsimp only
  repeat' first
    | with_reducible assumption | with_reducible apply State.loseTine_keeps | with_reducible apply State.drawSpare_keeps
    | with_reducible apply keeps_ite

theorem State.finishRun_keeps {g : Pledge} (s : State) (n : Nat) (ops : List TineOp) (outs : List Piece) (added : List Nat)
     (cycles : Nat) (h : s.Keeps g) : (State.finishRun s n ops outs added cycles).Keeps g := by
  unfold State.finishRun
  try dsimp only
  repeat' first
    | with_reducible assumption | with_reducible apply State.tineOps_keeps | with_reducible apply forEach_keeps
    | with_reducible apply State.noteStore_keeps | with_reducible apply State.modRun_keeps
    | with_reducible apply State.storeFailed_keeps | with_reducible apply State.abortRun_keeps
    | with_reducible apply State.writeOutputs_keeps
    | (with_reducible apply keeps_of_fields; dsimp only; with_reducible apply fields_of_keeps) | with_reducible apply keeps_ite
    | split

theorem State.resetTines_keeps {g : Pledge} (s : State) (mask : Nat) (h : s.Keeps g) : (State.resetTines s mask).Keeps g := by
  unfold State.resetTines
  try dsimp only
  repeat' first
    | with_reducible assumption | with_reducible apply forEach_keeps | with_reducible apply State.abortRun_keeps
    | (with_reducible apply keeps_of_fields; dsimp only; with_reducible apply fields_of_keeps) | with_reducible apply keeps_ite
    | (intro st x hst; try dsimp only)

theorem State.payOwed_keeps {g : Pledge} (s : State) (h : s.Keeps g) : (State.payOwed s).Keeps g := by
  unfold State.payOwed
  try dsimp only
  repeat' first
    | with_reducible assumption | with_reducible apply forEach_keeps | with_reducible apply State.postCqe_keeps
    | (refine keeps_of_some (by with_reducible assumption) ?_)
    | (show ∀ _ : State, _; with_reducible apply State.reserveCq_keeps)
    | (with_reducible apply keeps_of_fields; dsimp only; with_reducible apply fields_of_keeps) | with_reducible apply keeps_ite
    | split | (intro st x hst; try dsimp only)

theorem State.pumpRuns_keeps {g : Pledge} (s : State) (h : s.Keeps g) : (State.pumpRuns s).Keeps g := by
  unfold State.pumpRuns
  try dsimp only
  repeat' first
    | with_reducible assumption | with_reducible apply forEach_keeps | with_reducible apply State.payOwed_keeps
    | with_reducible apply State.postRun_keeps

/-! ### Objects -/

theorem State.setShare_keeps {g : Pledge} (s : State) (f : FuncId) (code n : Nat) (h : s.Keeps g) :
    (State.setShare s f code n).Keeps g := by
  unfold State.setShare
  try dsimp only
  repeat' first
    | with_reducible assumption | with_reducible apply State.modFunc_keeps

theorem State.dropWhere_keeps {g : Pledge} (s : State) (mine : Purpose → Bool) (h : s.Keeps g) :
    (State.dropWhere s mine).Keeps g := by
  unfold State.dropWhere
  try dsimp only
  repeat' first
    | with_reducible assumption | with_reducible apply forEach_keeps | with_reducible apply State.dropXfer_keeps
    | (with_reducible apply keeps_of_fields; dsimp only; with_reducible apply fields_of_keeps)

theorem State.abandonRing_keeps {g : Pledge} (s : State) (f : FuncId) (r : Nat) (h : s.Keeps g) :
    (State.abandonRing s f r).Keeps g := by
  unfold State.abandonRing
  try dsimp only
  repeat' first
    | with_reducible assumption | with_reducible apply State.dropEntryRead_keeps | with_reducible apply State.dropWhere_keeps
    | with_reducible apply State.unreserveCq_keeps | with_reducible apply State.modRing_keeps
    | with_reducible apply State.undefineRuns_keeps | with_reducible apply State.modFunc_keeps | split

theorem State.destroyRing_keeps {g : Pledge} (s : State) (f : FuncId) (r : Nat) (h : s.Keeps g) :
    (State.destroyRing s f r).Keeps g := by
  unfold State.destroyRing
  try dsimp only
  repeat' first
    | with_reducible assumption | with_reducible apply State.abandonRing_keeps | with_reducible apply State.modFunc_keeps

theorem State.destroyCq_keeps {g : Pledge} (s : State) (f : FuncId) (c : Nat) (h : s.Keeps g) :
    (State.destroyCq s f c).Keeps g := by
  unfold State.destroyCq
  try dsimp only
  repeat' first
    | with_reducible assumption | with_reducible apply State.dropWhere_keeps | with_reducible apply State.modFunc_keeps
    | (with_reducible apply keeps_of_fields; dsimp only; with_reducible apply fields_of_keeps)

theorem State.destroyKey_keeps {g : Pledge} (s : State) (k : Nat) (h : s.Keeps g) : (State.destroyKey s k).Keeps g := by
  unfold State.destroyKey
  try dsimp only
  repeat' first
    | with_reducible assumption | (with_reducible apply keeps_of_fields; dsimp only; with_reducible apply fields_of_keeps)
    | with_reducible apply keeps_ite

theorem State.quietConn_keeps {g : Pledge} (s : State) (n : Nat) (c : Conn) (h : s.Keeps g) :
    (State.quietConn s n c).Keeps g := by
  unfold State.quietConn
  try dsimp only
  repeat' first
    | with_reducible assumption | with_reducible apply State.dropConnXfers_keeps | with_reducible apply State.unreserveCq_keeps
    | with_reducible apply forEach_keeps | with_reducible apply State.rxFree_keeps | split | (intro st x hst; try dsimp only)

theorem State.destroyConn_keeps {g : Pledge} (s : State) (n : Nat) (h : s.Keeps g) : (State.destroyConn s n).Keeps g := by
  unfold State.destroyConn
  try dsimp only
  repeat' first
    | with_reducible assumption | with_reducible apply State.quietConn_keeps | with_reducible apply State.undefineRuns_keeps
    | with_reducible apply State.endConnJobs_keeps | with_reducible apply State.edgeLost_keeps
    | with_reducible apply forEach_keeps | with_reducible apply State.destroyKey_keeps
    | with_reducible apply State.modFunc_keeps
    | (with_reducible apply keeps_of_fields; dsimp only; with_reducible apply fields_of_keeps) | split

theorem State.freezeConn_keeps {g : Pledge} (s : State) (n : Nat) (h : s.Keeps g) : (State.freezeConn s n).Keeps g := by
  unfold State.freezeConn
  try dsimp only
  repeat' first
    | with_reducible assumption | with_reducible apply State.quietConn_keeps | with_reducible apply State.undefineRuns_keeps
    | with_reducible apply State.modConn_keeps | with_reducible apply keeps_ite | split

theorem State.destroyComm_keeps {g : Pledge} (s : State) (f : FuncId) (cm : Nat) (h : s.Keeps g) :
    (State.destroyComm s f cm).Keeps g := by
  unfold State.destroyComm
  try dsimp only
  repeat' first
    | with_reducible assumption | with_reducible apply forEach_keeps | with_reducible apply State.removeOp_keeps
    | with_reducible apply State.finishJob_keeps | with_reducible apply State.modFunc_keeps
    | (with_reducible apply keeps_of_fields; dsimp only; with_reducible apply fields_of_keeps)
    | (intro st x hst; try dsimp only)

theorem State.freeProg_keeps {g : Pledge} (s : State) (n : Nat) (h : s.Keeps g) : (State.freeProg s n).Keeps g := by
  unfold State.freeProg
  try dsimp only
  repeat' first
    | with_reducible assumption | with_reducible apply State.dropRunXfers_keeps | with_reducible apply State.destroyRegion_keeps
    | with_reducible apply State.modFunc_keeps
    | (with_reducible apply keeps_of_fields; dsimp only; with_reducible apply fields_of_keeps) | with_reducible apply keeps_ite
    | split

theorem State.teardownObjects_keeps {g : Pledge} (s : State) (f : FuncId) (h : s.Keeps g) :
    (State.teardownObjects s f).Keeps g := by
  unfold State.teardownObjects
  try dsimp only
  repeat' first
    | with_reducible assumption | with_reducible apply forEach_keeps | with_reducible apply State.freeProg_keeps
    | with_reducible apply State.destroyConn_keeps | with_reducible apply State.destroyKey_keeps
    | with_reducible apply State.destroyRing_keeps | with_reducible apply State.destroyCq_keeps
    | with_reducible apply State.destroyRegion_keeps | with_reducible apply State.modFunc_keeps
    | (with_reducible apply keeps_of_fields; dsimp only; with_reducible apply fields_of_keeps)
    | (intro st x hst; try dsimp only)

theorem State.scrubShares_keeps {g : Pledge} (s : State) (f : FuncId) (h : s.Keeps g) : (State.scrubShares s f).Keeps g := by
  unfold State.scrubShares
  try dsimp only
  repeat' first
    | with_reducible assumption | with_reducible apply State.scrubGranules_keeps

theorem State.activate_keeps {g : Pledge} (s : State) (f : FuncId) (h : s.Keeps g) : (State.activate s f).Keeps g := by
  unfold State.activate
  try dsimp only
  repeat' first
    | with_reducible assumption | with_reducible apply State.modFunc_keeps

theorem State.poolReturn_keeps {g : Pledge} (s : State) (tilth : Bool) (l : List Nat) (h : s.Keeps g) :
    (State.poolReturn s tilth l).Keeps g := by
  unfold State.poolReturn
  try dsimp only
  repeat' first
    | with_reducible assumption | with_reducible apply State.scrubGranules_keeps
    | (with_reducible apply keeps_of_fields; dsimp only; with_reducible apply fields_of_keeps) | with_reducible apply keeps_ite

theorem State.shareChanged_keeps {g : Pledge} (s : State) (f : FuncId) (code old new : Nat) (h : s.Keeps g) :
    (State.shareChanged s f code old new).Keeps g := by
  unfold State.shareChanged
  try dsimp only
  repeat' first
    | with_reducible assumption | with_reducible apply State.post_keeps

theorem State.clearShares_keeps {g : Pledge} (s : State) (f : FuncId) (h : s.Keeps g) : (State.clearShares s f).Keeps g := by
  unfold State.clearShares
  try dsimp only
  repeat' first
    | with_reducible assumption | with_reducible apply State.modFunc_keeps | with_reducible apply State.poolReturn_keeps
    | with_reducible apply forEach_keeps | with_reducible apply State.shareChanged_keeps | with_reducible apply keeps_ite
    | (intro st x hst; try dsimp only)

theorem State.finishDestroy_keeps {g : Pledge} (s : State) (f : FuncId) (h : s.Keeps g) : (State.finishDestroy s f).Keeps g := by
  unfold State.finishDestroy
  try dsimp only
  repeat' first
    | with_reducible assumption | with_reducible apply State.clearShares_keeps | with_reducible apply State.modFunc_keeps
    | (with_reducible apply keeps_of_fields; dsimp only; with_reducible apply fields_of_keeps) | with_reducible apply keeps_ite

theorem State.teardownDone_keeps {g : Pledge} (s : State) (f : FuncId) (h : s.Keeps g) : (State.teardownDone s f).Keeps g := by
  unfold State.teardownDone
  try dsimp only
  repeat' first
    | with_reducible assumption | with_reducible apply State.modFunc_keeps | with_reducible apply State.scrubShares_keeps
    | with_reducible apply State.activate_keeps | with_reducible apply State.finishDestroy_keeps
    | with_reducible apply keeps_ite | split

theorem State.attach_keeps {g : Pledge} (s : State) (f : FuncId) (h : s.Keeps g) : (State.attach s f).Keeps g := by
  unfold State.attach
  try dsimp only
  repeat' first
    | with_reducible assumption | with_reducible apply forEach_keeps | with_reducible apply State.activate_keeps
    | with_reducible apply State.drainCq_keeps
    | (with_reducible apply keeps_of_fields; dsimp only; with_reducible apply fields_of_keeps)
    | (intro st x hst; try dsimp only)

theorem State.startTeardown_keeps {g : Pledge} (s : State) (f : FuncId) (h : s.Keeps g) : (State.startTeardown s f).Keeps g := by
  unfold State.startTeardown
  try dsimp only
  repeat' first
    | with_reducible assumption | with_reducible apply State.teardownObjects_keeps | with_reducible apply State.modFunc_keeps

theorem State.retainObjects_keeps {g : Pledge} (s : State) (f : FuncId) (h : s.Keeps g) : (State.retainObjects s f).Keeps g := by
  unfold State.retainObjects
  try dsimp only
  repeat' first
    | with_reducible assumption | with_reducible apply forEach_keeps | with_reducible apply State.freezeConn_keeps
    | with_reducible apply State.modRing_keeps | with_reducible apply State.abandonRing_keeps
    | with_reducible apply State.modProg_keeps | with_reducible apply State.dropRunXfers_keeps
    | (intro st x hst; try dsimp only)

theorem State.dropFrames_keeps {g : Pledge} (s : State) (f : FuncId) (h : s.Keeps g) : (State.dropFrames s f).Keeps g := by
  unfold State.dropFrames
  try dsimp only
  repeat' first
    | with_reducible assumption | (with_reducible apply keeps_of_fields; dsimp only; with_reducible apply fields_of_keeps)

theorem State.pullBackAll_keeps {g : Pledge} (s : State) (f : FuncId) (h : s.Keeps g) : (State.pullBackAll s f).Keeps g := by
  unfold State.pullBackAll
  try dsimp only
  repeat' first
    | with_reducible assumption | with_reducible apply forEach_keeps | with_reducible apply State.pullBackCqes_keeps
    | (intro st x hst; try dsimp only)

theorem State.resetFunc_keeps {g : Pledge} (s : State) (f : FuncId) (h : s.Keeps g) : (State.resetFunc s f).Keeps g := by
  unfold State.resetFunc
  try dsimp only
  repeat' first
    | with_reducible assumption | with_reducible apply State.modFunc_keeps | with_reducible apply forEach_keeps
    | with_reducible apply State.destroyComm_keeps | with_reducible apply State.retainObjects_keeps
    | with_reducible apply State.dropFunc_keeps | with_reducible apply State.pullBackAll_keeps
    | with_reducible apply State.dropFrames_keeps | with_reducible apply State.modLink_keeps
    | with_reducible apply State.teardownObjects_keeps | with_reducible apply keeps_ite | (intro st x hst; try dsimp only)

theorem State.configDone_keeps {g : Pledge} (s : State) (f : FuncId) (h : s.Keeps g) : (State.configDone s f).Keeps g := by
  unfold State.configDone
  try dsimp only
  repeat' first
    | with_reducible assumption | with_reducible apply State.modFunc_keeps | with_reducible apply State.attach_keeps
    | with_reducible apply State.activate_keeps | with_reducible apply keeps_ite

theorem State.destroyFunc_keeps {g : Pledge} (s : State) (f : FuncId) (h : s.Keeps g) : (State.destroyFunc s f).Keeps g := by
  unfold State.destroyFunc
  try dsimp only
  repeat' first
    | with_reducible assumption | with_reducible apply State.resetFunc_keeps | with_reducible apply State.modFunc_keeps
    | with_reducible apply State.teardownObjects_keeps | with_reducible apply keeps_ite

/-! ### Egress -/

theorem State.refillMembers_keeps {g : Pledge} (s : State) (p : LPort) (h : s.Keeps g) : (State.refillMembers s p).Keeps g := by
  unfold State.refillMembers
  try dsimp only
  repeat' first
    | with_reducible assumption | with_reducible apply State.modPort_keeps

theorem State.refillAll_keeps {g : Pledge} (s : State) (h : s.Keeps g) : (State.refillAll s).Keeps g := by
  unfold State.refillAll
  try dsimp only
  repeat' first
    | with_reducible assumption | with_reducible apply State.rawFlush_keeps | with_reducible apply forEach_keeps
    | with_reducible apply State.refillMembers_keeps
    | (with_reducible apply keeps_of_fields; dsimp only; with_reducible apply fields_of_keeps) | with_reducible apply keeps_ite
    | (intro st x hst; try dsimp only)

theorem State.gateNext_keeps {g : Pledge} (s : State) (p : LPort) (h : s.Keeps g) : (State.gateNext s p).Keeps g := by
  unfold State.gateNext
  try dsimp only
  repeat' first
    | with_reducible assumption | with_reducible apply State.modPort_keeps | split

theorem State.gateSwitch_keeps {g : Pledge} (s : State) (p : LPort) (h : s.Keeps g) : (State.gateSwitch s p).Keeps g := by
  unfold State.gateSwitch
  try dsimp only
  repeat' first
    | with_reducible assumption | with_reducible apply State.modPort_keeps | with_reducible apply keeps_ite | split

theorem State.gatesRecompute_keeps {g : Pledge} (s : State) (h : s.Keeps g) : (State.gatesRecompute s).Keeps g := by
  unfold State.gatesRecompute
  try dsimp only
  repeat' first
    | with_reducible assumption | (with_reducible apply keeps_of_fields; dsimp only; with_reducible apply fields_of_keeps)

theorem State.writeTs_keeps {g : Pledge} (s : State) (f : FuncId) (c : Nat) (e : TsEntry) (h : s.Keeps g) :
    (State.writeTs s f c e).Keeps g := by
  unfold State.writeTs
  try dsimp only
  repeat' first
    | with_reducible assumption | with_reducible apply State.modCq_keeps | with_reducible apply State.startXfer_keeps
    | with_reducible apply keeps_ite | split

theorem State.tsPumpN_keeps {g : Pledge} (fuel : Nat) (s : State) (ph : PhysId) (h : s.Keeps g) :
    (State.tsPumpN fuel s ph).Keeps g := by
  induction fuel generalizing s ph with
  | zero => exact h
  | succ k ih =>
    unfold State.tsPumpN
    try dsimp only
    repeat' first
      | with_reducible apply ih | with_reducible assumption | with_reducible apply State.modPhys_keeps
      | with_reducible apply State.writeTs_keeps | with_reducible apply keeps_ite | split

theorem State.tsPump_keeps {g : Pledge} (s : State) (ph : PhysId) (h : s.Keeps g) : (State.tsPump s ph).Keeps g := by
  unfold State.tsPump
  try dsimp only
  repeat' first
    | with_reducible assumption | with_reducible apply State.tsPumpN_keeps

theorem State.tsWritten_keeps {g : Pledge} (s : State) (f : FuncId) (c idx : Nat) (e : TsEntry) (r : XResult) (h : s.Keeps g) :
    (State.tsWritten s f c idx e r).Keeps g := by
  unfold State.tsWritten
  try dsimp only
  repeat' first
    | with_reducible assumption | with_reducible apply State.fireArm_keeps | with_reducible apply State.modCq_keeps
    | with_reducible apply forEach_keeps | with_reducible apply State.tsPump_keeps | with_reducible apply State.modPhys_keeps
    | with_reducible apply State.signalBound_keeps | with_reducible apply State.fault_keeps | with_reducible apply keeps_ite
    | split

theorem State.pinHeads_keeps {g : Pledge} (s : State) (p : LPort) (allowed : Nat → Bool) (h : s.Keeps g) :
    (State.pinHeads s p allowed).Keeps g := by
  unfold State.pinHeads
  try dsimp only
  repeat' first
    | with_reducible assumption | with_reducible apply forEach_keeps | with_reducible apply State.modPort_keeps
    | with_reducible apply keeps_ite | split | (intro st x hst; try dsimp only)

theorem State.stampFrame_keeps {g : Pledge} (s : State) (p : LPort) (q : QFrame) (h : s.Keeps g) :
    (State.stampFrame s p q).Keeps g := by
  unfold State.stampFrame
  try dsimp only
  repeat' first
    | with_reducible assumption | with_reducible apply State.tsPump_keeps | with_reducible apply State.modPhys_keeps
    | with_reducible apply keeps_ite

theorem State.markFrame_keeps {g : Pledge} (s : State) (p : LPort) (c : Nat) (q : QFrame) (h : s.Keeps g) :
    (State.markFrame s p c q).1.Keeps g := by
  unfold State.markFrame
  try dsimp only
  repeat' first
    | with_reducible assumption | with_reducible apply State.fresh_keeps | split

theorem State.startFrame_keeps {g : Pledge} (s : State) (p : LPort) (c : Nat) (q : QFrame) (deficits : Tbl Nat)
     (drr : List DrrQ) (h : s.Keeps g) : (State.startFrame s p c q deficits drr).Keeps g := by
  unfold State.startFrame
  try dsimp only
  repeat' first
    | with_reducible assumption | with_reducible apply State.markFrame_keeps | with_reducible apply State.modPort_keeps
    | with_reducible apply State.stampFrame_keeps | with_reducible apply State.emit_keeps

theorem State.dropQFrame_keeps {g : Pledge} (s : State) (q : QFrame) (h : s.Keeps g) : (State.dropQFrame s q).Keeps g := by
  unfold State.dropQFrame
  try dsimp only
  repeat' first
    | with_reducible assumption | with_reducible apply State.finishJob_keeps | split

theorem State.dropTooLong_keeps {g : Pledge} (s : State) (p : LPort) (h : s.Keeps g) : (State.dropTooLong s p).Keeps g := by
  unfold State.dropTooLong
  try dsimp only
  repeat' first
    | with_reducible assumption | with_reducible apply forEach_keeps | with_reducible apply State.countPort_keeps
    | with_reducible apply State.modPort_keeps | with_reducible apply State.dropQFrame_keeps | with_reducible apply keeps_ite
    | (intro st x hst; try dsimp only)

theorem State.dropOversize_keeps {g : Pledge} (s0 : State) (p : LPort) (h : s0.Keeps g) : (State.dropOversize s0 p).Keeps g := by
  unfold State.dropOversize
  try dsimp only
  repeat' first
    | with_reducible assumption | with_reducible apply State.dropTooLong_keeps | with_reducible apply forEach_keeps
    | with_reducible apply State.modPort_keeps | with_reducible apply State.dropQFrame_keeps | with_reducible apply keeps_ite
    | split | (intro st x hst; try dsimp only)

theorem State.egressStart_keeps {g : Pledge} (s0 : State) (p : LPort) (h : s0.Keeps g) : (State.egressStart s0 p).Keeps g := by
  unfold State.egressStart
  try dsimp only
  repeat' first
    | with_reducible assumption | with_reducible apply State.dropOversize_keeps | with_reducible apply State.pinHeads_keeps
    | with_reducible apply State.startFrame_keeps | with_reducible apply State.countPort_keeps
    | with_reducible apply State.modPort_keeps | with_reducible apply keeps_ite | split

theorem State.txEnd_keeps {g : Pledge} (s : State) (p : LPort) (h : s.Keeps g) : (State.txEnd s p).Keeps g := by
  unfold State.txEnd
  try dsimp only
  repeat' first
    | with_reducible assumption | with_reducible apply State.countPort_keeps | with_reducible apply State.modPort_keeps
    | with_reducible apply State.emit_keeps | with_reducible apply State.finishJob_keeps
    | with_reducible apply State.modJob_keeps | with_reducible apply State.rawFlush_keeps | with_reducible apply keeps_ite
    | split

theorem State.discardQueues_keeps {g : Pledge} (s : State) (p : LPort) (h : s.Keeps g) : (State.discardQueues s p).Keeps g := by
  unfold State.discardQueues
  try dsimp only
  repeat' first
    | with_reducible assumption | with_reducible apply State.modPort_keeps | with_reducible apply forEach_keeps
    | with_reducible apply State.dropQFrame_keeps

/-! ### Settle -/

theorem rxEnded_keeps {g : Pledge} (n : Nat) (d : State × List RxLast) (h : d.1.Keeps g) : (rxEnded n d).Keeps g := by
  unfold rxEnded
  try dsimp only
  repeat' first
    | with_reducible assumption | with_reducible apply State.collArrivals_keeps

theorem State.roceFatal_keeps {g : Pledge} (s : State) (n psn : Nat) (recv : Bool) (h : s.Keeps g) :
    (State.roceFatal s n psn recv).Keeps g := by
  unfold State.roceFatal
  try dsimp only
  repeat' first
    | with_reducible assumption | with_reducible apply State.connError_keeps | with_reducible apply State.finishJob_keeps
    | with_reducible apply State.undefineRuns_keeps | with_reducible apply keeps_ite | split

theorem State.packetEnded_keeps {g : Pledge} (s : State) (n psn : Nat) (x : XResult) (h : s.Keeps g) :
    (State.packetEnded s n psn x).Keeps g := by
  unfold State.packetEnded
  try dsimp only
  repeat' first
    | with_reducible assumption | with_reducible apply rxEnded_keeps | with_reducible apply State.packetDone_keeps
    | with_reducible apply State.roceFatal_keeps | with_reducible apply keeps_ite

theorem State.rawRecvDone_keeps {g : Pledge} (s : State) (f : FuncId) (r slot : Nat) (x : XResult) (h : s.Keeps g) :
    (State.rawRecvDone s f r slot x).Keeps g := by
  unfold State.rawRecvDone
  try dsimp only
  repeat' first
    | with_reducible assumption | with_reducible apply State.finishJob_keeps | with_reducible apply State.modJob_keeps | split

theorem State.firmwareDone_keeps {g : Pledge} (s : State) (f : FuncId) (x : XResult) (h : s.Keeps g) :
    (State.firmwareDone s f x).Keeps g := by
  unfold State.firmwareDone
  try dsimp only
  repeat' first
    | with_reducible assumption | with_reducible apply State.answerLong_keeps | split

theorem State.onXfer_keeps {g : Pledge} (s : State) (p : Purpose) (x : XResult) (h : s.Keeps g) :
    (State.onXfer s p x).Keeps g := by
  unfold State.onXfer
  try dsimp only
  repeat' first
    | with_reducible assumption | with_reducible apply State.copySrcRead_keeps | with_reducible apply State.copyTagRead_keeps
    | with_reducible apply State.copyPlaced_keeps | with_reducible apply State.copyAgain_keeps
    | with_reducible apply State.sendSrcDone_keeps | with_reducible apply State.rawSrcDone_keeps
    | with_reducible apply State.resendDone_keeps | with_reducible apply State.packetEnded_keeps
    | with_reducible apply State.markWritten_keeps | with_reducible apply State.responsePlaced_keeps
    | with_reducible apply State.rxRelease_keeps | with_reducible apply rxEnded_keeps
    | with_reducible apply State.respondDone_keeps | with_reducible apply State.roceFatal_keeps
    | with_reducible apply State.atomicDone_keeps | with_reducible apply State.writtenBack_keeps
    | with_reducible apply State.cqeWritten_keeps | with_reducible apply State.tsWritten_keeps
    | with_reducible apply State.rawRecvDone_keeps | with_reducible apply State.collInDone_keeps
    | with_reducible apply State.collOutDone_keeps | with_reducible apply State.collSlotDone_keeps
    | with_reducible apply State.runInDone_keeps | with_reducible apply State.runOutDone_keeps
    | with_reducible apply State.gleanDone_keeps | with_reducible apply State.firmwareDone_keeps
    | with_reducible apply State.entryTaken_keeps | with_reducible apply State.faultCqs_keeps | split

theorem State.drain_keeps {g : Pledge} (fuel : Nat) (s : State) (h : s.Keeps g) : (State.drain fuel s).Keeps g := by
  induction fuel generalizing s with
  | zero => exact h
  | succ k ih =>
    unfold State.drain
    try dsimp only
    repeat' first
      | with_reducible apply ih | with_reducible assumption | with_reducible apply State.onXfer_keeps
      | (with_reducible apply keeps_of_fields; dsimp only; with_reducible apply fields_of_keeps) | split

theorem State.settle_keeps {g : Pledge} (s : State) (h : s.Keeps g) : (State.settle s).Keeps g := by
  unfold State.settle
  try dsimp only
  repeat' first
    | with_reducible assumption | with_reducible apply State.endInvals_keeps | with_reducible apply State.drain_keeps
    | with_reducible apply State.readEntries_keeps | with_reducible apply forEach_keeps
    | with_reducible apply State.pumpRuns_keeps | with_reducible apply State.replayRun_keeps
    | with_reducible apply State.freeHeld_keeps | with_reducible apply State.refillIdle_keeps | with_reducible apply keeps_ite

theorem State.perform_keeps {g : Pledge} (s : State) (f : FuncId) (op : Nat) (plan : Cmd → State → Plan) (h : s.Keeps g)
     (hf : ∀ c st, (plan c st).Keeps g) : ∀ out, State.perform s f op plan = .next out → out.Keeps g := by
  unfold State.perform
  try dsimp only
  repeat' first
    | with_reducible assumption | with_reducible apply State.settle_keeps | with_reducible apply State.runCommand_keeps
    | with_reducible refine keeps_next ?_

/-! ### PortOps -/

theorem State.failPaths_keeps {g : Pledge} (s : State) (uses : Nat → Conn → Nat → Bool) (h : s.Keeps g) :
    (State.failPaths s uses).Keeps g := by
  unfold State.failPaths
  try dsimp only
  repeat' first
    | with_reducible assumption | with_reducible apply forEach_keeps | with_reducible apply State.pathFail_keeps
    | (intro st x hst; try dsimp only)

theorem State.portDown_keeps {g : Pledge} (s : State) (p : LPort) (h : s.Keeps g) : (State.portDown s p).Keeps g := by
  unfold State.portDown
  try dsimp only
  repeat' first
    | with_reducible assumption | with_reducible apply State.failPaths_keeps | with_reducible apply State.discardQueues_keeps
    | with_reducible apply State.modPort_keeps | with_reducible apply keeps_ite

theorem State.startVerify_keeps {g : Pledge} (s : State) (p : LPort) (h : s.Keeps g) : (State.startVerify s p).Keeps g := by
  unfold State.startVerify
  try dsimp only
  repeat' first
    | with_reducible assumption | with_reducible apply State.modPort_keeps | with_reducible apply State.emit_keeps
    | with_reducible apply keeps_ite

theorem State.portComeUp_keeps {g : Pledge} (s : State) (p : LPort) (lanes : Nat) (h : s.Keeps g) :
    (State.portComeUp s p lanes).Keeps g := by
  unfold State.portComeUp
  try dsimp only
  repeat' first
    | with_reducible assumption | with_reducible apply State.startVerify_keeps | with_reducible apply State.modPort_keeps

theorem State.rescale_keeps {g : Pledge} (s : State) (p : LPort) (before after : Nat) (h : s.Keeps g) :
    (State.rescale s p before after).Keeps g := by
  unfold State.rescale
  try dsimp only
  repeat' first
    | with_reducible assumption | with_reducible apply State.modPort_keeps | with_reducible apply forEach_keeps
    | with_reducible apply State.modFunc_keeps | with_reducible apply State.postFallow_keeps
    | (with_reducible apply keeps_of_fields; dsimp only; with_reducible apply fields_of_keeps)
    | (intro st x hst; try dsimp only)

theorem State.portLost_keeps {g : Pledge} (s : State) (p : LPort) (h : s.Keeps g) : (State.portLost s p).Keeps g := by
  unfold State.portLost
  try dsimp only
  repeat' first
    | with_reducible assumption | with_reducible apply State.portDown_keeps | with_reducible apply State.fault_keeps
    | with_reducible apply keeps_ite

theorem State.beginSwap_keeps {g : Pledge} (s : State) (ph : PhysId) (lane : Nat) (hitless : Bool) (h : s.Keeps g) :
    (State.beginSwap s ph lane hitless).Keeps g := by
  unfold State.beginSwap
  try dsimp only
  repeat' first
    | with_reducible assumption | with_reducible apply State.modPhys_keeps | with_reducible apply State.portLost_keeps
    | with_reducible apply keeps_ite

theorem State.swapDone_keeps {g : Pledge} (s : State) (ph : PhysId) (h : s.Keeps g) : (State.swapDone s ph).Keeps g := by
  unfold State.swapDone
  try dsimp only
  repeat' first
    | with_reducible assumption | with_reducible apply State.modPhys_keeps | with_reducible apply State.postFallow_keeps
    | with_reducible apply State.portComeUp_keeps | with_reducible apply keeps_ite | split

theorem State.loseLane_keeps {g : Pledge} (s : State) (ph : PhysId) (lane : Nat) (h : s.Keeps g) :
    (State.loseLane s ph lane).Keeps g := by
  unfold State.loseLane
  try dsimp only
  repeat' first
    | with_reducible assumption | with_reducible apply State.modPhys_keeps | with_reducible apply State.postFallow_keeps
    | with_reducible apply State.rescale_keeps | with_reducible apply State.modPort_keeps
    | with_reducible apply State.portLost_keeps
    | (with_reducible apply keeps_of_fields; dsimp only; with_reducible apply fields_of_keeps) | with_reducible apply keeps_ite

end Sys2Proof.Machine
end

