-- ==== Sys2Proof/Laws/KeepsCommands.lean ====
section
/-! SUPPORT. Laws/KeepsCommands.lean: a pledge (Safety.lean) is kept by the plans of the mailbox commands: one lemma for each function. -/

namespace Sys2Proof.Machine

/-! ### PortCmds -/

theorem portQueryPlan_keeps {g : Pledge} (c : Cmd) (s : State) : (portQueryPlan c s).Keeps g := by
  intro st hst
  unfold portQueryPlan
  dsimp only [setPlan, queryPlan]
  repeat' with_reducible assumption

theorem portSetPlan_keeps {g : Pledge} (c : Cmd) (s : State) : (portSetPlan c s).Keeps g := by
  intro st hst
  unfold portSetPlan
  dsimp only [setPlan, queryPlan]
  repeat' first
    | with_reducible assumption | with_reducible apply State.modPort_keeps | with_reducible apply State.startVerify_keeps
    | with_reducible apply forEach_keeps | with_reducible apply State.pfcCheck_keeps | with_reducible apply keeps_ite
    | (intro st x hst; try dsimp only)

theorem State.rebreak_keeps {g : Pledge} (s : State) (ph : PhysId) (b : Nat) (h : s.Keeps g) :
    (State.rebreak s ph b).Keeps g := by
  unfold State.rebreak
  try dsimp only
  repeat' first
    | with_reducible assumption | with_reducible apply forEach_keeps | with_reducible apply State.discardQueues_keeps
    | with_reducible apply State.portDown_keeps | with_reducible apply State.modPhys_keeps
    | with_reducible apply State.modPort_keeps | with_reducible apply keeps_ite | (intro st x hst; try dsimp only)

theorem portBreakoutPlan_keeps {g : Pledge} (c : Cmd) (s : State) : (portBreakoutPlan c s).Keeps g := by
  intro st hst
  unfold portBreakoutPlan
  dsimp only [setPlan, queryPlan]
  repeat' first
    | with_reducible assumption | with_reducible apply State.rebreak_keeps

theorem portResetPlan_keeps {g : Pledge} (c : Cmd) (s : State) : (portResetPlan c s).Keeps g := by
  intro st hst
  unfold portResetPlan
  dsimp only [setPlan, queryPlan]
  repeat' first
    | with_reducible assumption | with_reducible apply State.discardQueues_keeps | with_reducible apply State.portDown_keeps

theorem portStatsPlan_keeps {g : Pledge} (c : Cmd) (s : State) : (portStatsPlan c s).Keeps g := by
  intro st hst
  unfold portStatsPlan
  dsimp only [setPlan, queryPlan]
  repeat' first
    | with_reducible assumption | with_reducible apply State.modPort_keeps | with_reducible apply State.modPhys_keeps
    | with_reducible apply keeps_ite

theorem portGlobalSetPlan_keeps {g : Pledge} (c : Cmd) (s : State) : (portGlobalSetPlan c s).Keeps g := by
  intro st hst
  unfold portGlobalSetPlan
  dsimp only [setPlan, queryPlan]
  repeat' first
    | with_reducible assumption | (with_reducible apply keeps_of_fields; dsimp only; with_reducible apply fields_of_keeps)

theorem portMgmtSetPlan_keeps {g : Pledge} (c : Cmd) (s : State) : (portMgmtSetPlan c s).Keeps g := by
  intro st hst
  unfold portMgmtSetPlan
  dsimp only [setPlan, queryPlan]
  repeat' first
    | with_reducible assumption | with_reducible apply State.modPort_keeps

theorem portFilterSetPlan_keeps {g : Pledge} (c : Cmd) (s : State) : (portFilterSetPlan c s).Keeps g := by
  intro st hst
  unfold portFilterSetPlan
  dsimp only [setPlan, queryPlan]
  repeat' first
    | with_reducible assumption | with_reducible apply State.modPort_keeps

theorem State.bindRaw_keeps {g : Pledge} (s : State) (f : FuncId) (rawNo : Nat) (rs : List Nat) (h : s.Keeps g) :
    (State.bindRaw s f rawNo rs).Keeps g := by
  unfold State.bindRaw
  try dsimp only
  repeat' first
    | with_reducible assumption | with_reducible apply forEach_keeps | with_reducible apply State.modRing_keeps
    | (with_reducible apply keeps_of_fields; dsimp only; with_reducible apply fields_of_keeps)
    | (intro st x hst; try dsimp only)

theorem portQueueBindPlan_keeps {g : Pledge} (c : Cmd) (s : State) : (portQueueBindPlan c s).Keeps g := by
  intro st hst
  unfold portQueueBindPlan
  dsimp only [setPlan, queryPlan]
  repeat' first
    | with_reducible assumption | with_reducible apply State.bindRaw_keeps | with_reducible apply State.modPort_keeps

theorem ptpAdjustPlan_keeps {g : Pledge} (c : Cmd) (s : State) : (ptpAdjustPlan c s).Keeps g := by
  intro st hst
  unfold ptpAdjustPlan
  dsimp only [setPlan, queryPlan]
  repeat' first
    | with_reducible assumption | with_reducible apply State.gatesRecompute_keeps
    | (with_reducible apply keeps_of_fields; dsimp only; with_reducible apply fields_of_keeps) | with_reducible apply keeps_ite

theorem ptpReadPlan_keeps {g : Pledge} (c : Cmd) (s : State) : (ptpReadPlan c s).Keeps g := by
  intro st hst
  unfold ptpReadPlan
  dsimp only [setPlan, queryPlan]
  repeat' with_reducible assumption

theorem portTsBindPlan_keeps {g : Pledge} (c : Cmd) (s : State) : (portTsBindPlan c s).Keeps g := by
  intro st hst
  unfold portTsBindPlan
  dsimp only [setPlan, queryPlan]
  repeat' first
    | with_reducible assumption | with_reducible apply State.modCq_keeps | with_reducible apply State.modPhys_keeps
    | with_reducible apply State.tsPump_keeps | split

theorem execPortQuery_keeps {g : Pledge} (f : FuncId) (s : State) (h : s.Keeps g) :
    ∀ out, execPortQuery f s = .next out → out.Keeps g := by
  unfold execPortQuery
  try dsimp only
  repeat' first
    | with_reducible assumption | with_reducible apply portQueryPlan_keeps
    | (show ∀ _ : State, _; with_reducible apply State.perform_keeps)

theorem execPortSet_keeps {g : Pledge} (f : FuncId) (s : State) (h : s.Keeps g) :
    ∀ out, execPortSet f s = .next out → out.Keeps g := by
  unfold execPortSet
  try dsimp only
  repeat' first
    | with_reducible assumption | with_reducible apply portSetPlan_keeps
    | (show ∀ _ : State, _; with_reducible apply State.perform_keeps)

theorem execPortBreakout_keeps {g : Pledge} (f : FuncId) (s : State) (h : s.Keeps g) :
    ∀ out, execPortBreakout f s = .next out → out.Keeps g := by
  unfold execPortBreakout
  try dsimp only
  repeat' first
    | with_reducible assumption | with_reducible apply portBreakoutPlan_keeps
    | (show ∀ _ : State, _; with_reducible apply State.perform_keeps)

theorem execPortReset_keeps {g : Pledge} (f : FuncId) (s : State) (h : s.Keeps g) :
    ∀ out, execPortReset f s = .next out → out.Keeps g := by
  unfold execPortReset
  try dsimp only
  repeat' first
    | with_reducible assumption | with_reducible apply portResetPlan_keeps
    | (show ∀ _ : State, _; with_reducible apply State.perform_keeps)

theorem execPortStats_keeps {g : Pledge} (f : FuncId) (s : State) (h : s.Keeps g) :
    ∀ out, execPortStats f s = .next out → out.Keeps g := by
  unfold execPortStats
  try dsimp only
  repeat' first
    | with_reducible assumption | with_reducible apply portStatsPlan_keeps
    | (show ∀ _ : State, _; with_reducible apply State.perform_keeps)

theorem execPortGlobalSet_keeps {g : Pledge} (f : FuncId) (s : State) (h : s.Keeps g) :
    ∀ out, execPortGlobalSet f s = .next out → out.Keeps g := by
  unfold execPortGlobalSet
  try dsimp only
  repeat' first
    | with_reducible assumption | with_reducible apply portGlobalSetPlan_keeps
    | (show ∀ _ : State, _; with_reducible apply State.perform_keeps)

theorem execPortMgmtSet_keeps {g : Pledge} (f : FuncId) (s : State) (h : s.Keeps g) :
    ∀ out, execPortMgmtSet f s = .next out → out.Keeps g := by
  unfold execPortMgmtSet
  try dsimp only
  repeat' first
    | with_reducible assumption | with_reducible apply portMgmtSetPlan_keeps
    | (show ∀ _ : State, _; with_reducible apply State.perform_keeps)

theorem execPortFilterSet_keeps {g : Pledge} (f : FuncId) (s : State) (h : s.Keeps g) :
    ∀ out, execPortFilterSet f s = .next out → out.Keeps g := by
  unfold execPortFilterSet
  try dsimp only
  repeat' first
    | with_reducible assumption | with_reducible apply portFilterSetPlan_keeps
    | (show ∀ _ : State, _; with_reducible apply State.perform_keeps)

theorem execPortQueueBind_keeps {g : Pledge} (f : FuncId) (s : State) (h : s.Keeps g) :
    ∀ out, execPortQueueBind f s = .next out → out.Keeps g := by
  unfold execPortQueueBind
  try dsimp only
  repeat' first
    | with_reducible assumption | with_reducible apply portQueueBindPlan_keeps
    | (show ∀ _ : State, _; with_reducible apply State.perform_keeps)

theorem execPtpAdjust_keeps {g : Pledge} (f : FuncId) (s : State) (h : s.Keeps g) :
    ∀ out, execPtpAdjust f s = .next out → out.Keeps g := by
  unfold execPtpAdjust
  try dsimp only
  repeat' first
    | with_reducible assumption | with_reducible apply ptpAdjustPlan_keeps
    | (show ∀ _ : State, _; with_reducible apply State.perform_keeps)

theorem execPtpRead_keeps {g : Pledge} (f : FuncId) (s : State) (h : s.Keeps g) :
    ∀ out, execPtpRead f s = .next out → out.Keeps g := by
  unfold execPtpRead
  try dsimp only
  repeat' first
    | with_reducible assumption | with_reducible apply ptpReadPlan_keeps
    | (show ∀ _ : State, _; with_reducible apply State.perform_keeps)

theorem execPortTsBind_keeps {g : Pledge} (f : FuncId) (s : State) (h : s.Keeps g) :
    ∀ out, execPortTsBind f s = .next out → out.Keeps g := by
  unfold execPortTsBind
  try dsimp only
  repeat' first
    | with_reducible assumption | with_reducible apply portTsBindPlan_keeps
    | (show ∀ _ : State, _; with_reducible apply State.perform_keeps)

/-! ### SchedCmds -/

theorem ccSetPlan_keeps {g : Pledge} (c : Cmd) (s : State) : (ccSetPlan c s).Keeps g := by
  intro st hst
  unfold ccSetPlan
  dsimp only [setPlan, queryPlan]
  repeat' first
    | with_reducible assumption | with_reducible apply State.clampSoon_keeps | with_reducible apply State.modConn_keeps

theorem ccQueryPlan_keeps {g : Pledge} (c : Cmd) (s : State) : (ccQueryPlan c s).Keeps g := by
  intro st hst
  unfold ccQueryPlan
  dsimp only [setPlan, queryPlan]
  repeat' with_reducible assumption

theorem shaperAllocPlan_keeps {g : Pledge} (c : Cmd) (s : State) : (shaperAllocPlan c s).Keeps g := by
  intro st hst
  unfold shaperAllocPlan
  dsimp only [setPlan, queryPlan]
  repeat' first
    | with_reducible assumption | with_reducible apply State.setFunc_keeps | split

theorem shaperSetPlan_keeps {g : Pledge} (c : Cmd) (s : State) : (shaperSetPlan c s).Keeps g := by
  intro st hst
  unfold shaperSetPlan
  dsimp only [setPlan, queryPlan]
  repeat' first
    | with_reducible assumption | with_reducible apply State.modShaper_keeps

theorem shaperBindPlan_keeps {g : Pledge} (c : Cmd) (s : State) : (shaperBindPlan c s).Keeps g := by
  intro st hst
  unfold shaperBindPlan
  dsimp only [setPlan, queryPlan]
  repeat' first
    | with_reducible assumption | with_reducible apply State.modConn_keeps | with_reducible apply State.modRing_keeps
    | with_reducible apply State.modShaper_keeps | with_reducible apply keeps_ite

theorem shaperFreePlan_keeps {g : Pledge} (c : Cmd) (s : State) : (shaperFreePlan c s).Keeps g := by
  intro st hst
  unfold shaperFreePlan
  dsimp only [setPlan, queryPlan]
  repeat' first
    | with_reducible assumption | with_reducible apply State.modFunc_keeps

theorem schedFuncSetPlan_keeps {g : Pledge} (c : Cmd) (s : State) : (schedFuncSetPlan c s).Keeps g := by
  intro st hst
  unfold schedFuncSetPlan
  dsimp only [setPlan, queryPlan]
  repeat' first
    | with_reducible assumption | with_reducible apply State.modPort_keeps

theorem schedClassSetPlan_keeps {g : Pledge} (c : Cmd) (s : State) : (schedClassSetPlan c s).Keeps g := by
  intro st hst
  unfold schedClassSetPlan
  dsimp only [setPlan, queryPlan]
  repeat' first
    | with_reducible assumption | with_reducible apply State.modPort_keeps

theorem policerSetPlan_keeps {g : Pledge} (c : Cmd) (s : State) : (policerSetPlan c s).Keeps g := by
  intro st hst
  unfold policerSetPlan
  dsimp only [setPlan, queryPlan]
  repeat' first
    | with_reducible assumption | (with_reducible apply keeps_of_fields; dsimp only; with_reducible apply fields_of_keeps)
    | split

theorem policerQueryPlan_keeps {g : Pledge} (c : Cmd) (s : State) : (policerQueryPlan c s).Keeps g := by
  intro st hst
  unfold policerQueryPlan
  dsimp only [setPlan, queryPlan]
  repeat' with_reducible assumption

theorem policerFreePlan_keeps {g : Pledge} (c : Cmd) (s : State) : (policerFreePlan c s).Keeps g := by
  intro st hst
  unfold policerFreePlan
  dsimp only [setPlan, queryPlan]
  repeat' first
    | with_reducible assumption | (with_reducible apply keeps_of_fields; dsimp only; with_reducible apply fields_of_keeps)

theorem gateSetPlan_keeps {g : Pledge} (c : Cmd) (s : State) : (gateSetPlan c s).Keeps g := by
  intro st hst
  unfold gateSetPlan
  dsimp only [setPlan, queryPlan]
  repeat' first
    | with_reducible assumption | with_reducible apply State.modPort_keeps

theorem gateQueryPlan_keeps {g : Pledge} (c : Cmd) (s : State) : (gateQueryPlan c s).Keeps g := by
  intro st hst
  unfold gateQueryPlan
  dsimp only [setPlan, queryPlan]
  repeat' with_reducible assumption

theorem execCcSet_keeps {g : Pledge} (f : FuncId) (s : State) (h : s.Keeps g) :
    ∀ out, execCcSet f s = .next out → out.Keeps g := by
  unfold execCcSet
  try dsimp only
  repeat' first
    | with_reducible assumption | with_reducible apply ccSetPlan_keeps
    | (show ∀ _ : State, _; with_reducible apply State.perform_keeps)

theorem execCcQuery_keeps {g : Pledge} (f : FuncId) (s : State) (h : s.Keeps g) :
    ∀ out, execCcQuery f s = .next out → out.Keeps g := by
  unfold execCcQuery
  try dsimp only
  repeat' first
    | with_reducible assumption | with_reducible apply ccQueryPlan_keeps
    | (show ∀ _ : State, _; with_reducible apply State.perform_keeps)

theorem execShaperAlloc_keeps {g : Pledge} (f : FuncId) (s : State) (h : s.Keeps g) :
    ∀ out, execShaperAlloc f s = .next out → out.Keeps g := by
  unfold execShaperAlloc
  try dsimp only
  repeat' first
    | with_reducible assumption | with_reducible apply shaperAllocPlan_keeps
    | (show ∀ _ : State, _; with_reducible apply State.perform_keeps)

theorem execShaperSet_keeps {g : Pledge} (f : FuncId) (s : State) (h : s.Keeps g) :
    ∀ out, execShaperSet f s = .next out → out.Keeps g := by
  unfold execShaperSet
  try dsimp only
  repeat' first
    | with_reducible assumption | with_reducible apply shaperSetPlan_keeps
    | (show ∀ _ : State, _; with_reducible apply State.perform_keeps)

theorem execShaperBind_keeps {g : Pledge} (f : FuncId) (s : State) (h : s.Keeps g) :
    ∀ out, execShaperBind f s = .next out → out.Keeps g := by
  unfold execShaperBind
  try dsimp only
  repeat' first
    | with_reducible assumption | with_reducible apply shaperBindPlan_keeps
    | (show ∀ _ : State, _; with_reducible apply State.perform_keeps)

theorem execShaperFree_keeps {g : Pledge} (f : FuncId) (s : State) (h : s.Keeps g) :
    ∀ out, execShaperFree f s = .next out → out.Keeps g := by
  unfold execShaperFree
  try dsimp only
  repeat' first
    | with_reducible assumption | with_reducible apply shaperFreePlan_keeps
    | (show ∀ _ : State, _; with_reducible apply State.perform_keeps)

theorem execSchedFuncSet_keeps {g : Pledge} (f : FuncId) (s : State) (h : s.Keeps g) :
    ∀ out, execSchedFuncSet f s = .next out → out.Keeps g := by
  unfold execSchedFuncSet
  try dsimp only
  repeat' first
    | with_reducible assumption | with_reducible apply schedFuncSetPlan_keeps
    | (show ∀ _ : State, _; with_reducible apply State.perform_keeps)

theorem execSchedClassSet_keeps {g : Pledge} (f : FuncId) (s : State) (h : s.Keeps g) :
    ∀ out, execSchedClassSet f s = .next out → out.Keeps g := by
  unfold execSchedClassSet
  try dsimp only
  repeat' first
    | with_reducible assumption | with_reducible apply schedClassSetPlan_keeps
    | (show ∀ _ : State, _; with_reducible apply State.perform_keeps)

theorem execPolicerSet_keeps {g : Pledge} (f : FuncId) (s : State) (h : s.Keeps g) :
    ∀ out, execPolicerSet f s = .next out → out.Keeps g := by
  unfold execPolicerSet
  try dsimp only
  repeat' first
    | with_reducible assumption | with_reducible apply policerSetPlan_keeps
    | (show ∀ _ : State, _; with_reducible apply State.perform_keeps)

theorem execPolicerQuery_keeps {g : Pledge} (f : FuncId) (s : State) (h : s.Keeps g) :
    ∀ out, execPolicerQuery f s = .next out → out.Keeps g := by
  unfold execPolicerQuery
  try dsimp only
  repeat' first
    | with_reducible assumption | with_reducible apply policerQueryPlan_keeps
    | (show ∀ _ : State, _; with_reducible apply State.perform_keeps)

theorem execPolicerFree_keeps {g : Pledge} (f : FuncId) (s : State) (h : s.Keeps g) :
    ∀ out, execPolicerFree f s = .next out → out.Keeps g := by
  unfold execPolicerFree
  try dsimp only
  repeat' first
    | with_reducible assumption | with_reducible apply policerFreePlan_keeps
    | (show ∀ _ : State, _; with_reducible apply State.perform_keeps)

theorem execGateSet_keeps {g : Pledge} (f : FuncId) (s : State) (h : s.Keeps g) :
    ∀ out, execGateSet f s = .next out → out.Keeps g := by
  unfold execGateSet
  try dsimp only
  repeat' first
    | with_reducible assumption | with_reducible apply gateSetPlan_keeps
    | (show ∀ _ : State, _; with_reducible apply State.perform_keeps)

theorem execGateQuery_keeps {g : Pledge} (f : FuncId) (s : State) (h : s.Keeps g) :
    ∀ out, execGateQuery f s = .next out → out.Keeps g := by
  unfold execGateQuery
  try dsimp only
  repeat' first
    | with_reducible assumption | with_reducible apply gateQueryPlan_keeps
    | (show ∀ _ : State, _; with_reducible apply State.perform_keeps)

/-! ### RingCmds -/

theorem State.addRing_keeps {g : Pledge} (s : State) (f : FuncId) (x : Ring) (h : s.Keeps g) :
    (State.addRing s f x).1.Keeps g := by
  unfold State.addRing
  try dsimp only
  repeat' first
    | with_reducible assumption | with_reducible apply State.setFunc_keeps | split

theorem ringCreatePlan_keeps {g : Pledge} (c : Cmd) (s : State) : (ringCreatePlan c s).Keeps g := by
  intro st hst
  unfold ringCreatePlan
  dsimp only [setPlan, queryPlan]
  repeat' first
    | with_reducible assumption | with_reducible apply State.addRing_keeps

theorem ringDestroyPlan_keeps {g : Pledge} (c : Cmd) (s : State) : (ringDestroyPlan c s).Keeps g := by
  intro st hst
  unfold ringDestroyPlan
  dsimp only [setPlan, queryPlan]
  repeat' first
    | with_reducible assumption | with_reducible apply State.destroyRing_keeps

theorem ringQueryPlan_keeps {g : Pledge} (c : Cmd) (s : State) : (ringQueryPlan c s).Keeps g := by
  intro st hst
  unfold ringQueryPlan
  dsimp only [setPlan, queryPlan]
  repeat' with_reducible assumption

theorem ringModifyPlan_keeps {g : Pledge} (c : Cmd) (s : State) : (ringModifyPlan c s).Keeps g := by
  intro st hst
  unfold ringModifyPlan
  dsimp only [setPlan, queryPlan]
  repeat' first
    | with_reducible assumption | with_reducible apply State.modRing_keeps

theorem ringRestartPlan_keeps {g : Pledge} (c : Cmd) (s : State) : (ringRestartPlan c s).Keeps g := by
  intro st hst
  unfold ringRestartPlan
  dsimp only [setPlan, queryPlan]
  repeat' with_reducible assumption

theorem State.ringRestarted_keeps {g : Pledge} (s : State) (f : FuncId) (r : Nat) (h : s.Keeps g) :
    (State.ringRestarted s f r).Keeps g := by
  unfold State.ringRestarted
  try dsimp only
  repeat' first
    | with_reducible assumption | with_reducible apply State.modRing_keeps

theorem cqCreatePlan_keeps {g : Pledge} (c : Cmd) (s : State) : (cqCreatePlan c s).Keeps g := by
  intro st hst
  unfold cqCreatePlan
  dsimp only [setPlan, queryPlan]
  repeat' first
    | with_reducible assumption | with_reducible apply State.setFunc_keeps | split

theorem cqDestroyPlan_keeps {g : Pledge} (c : Cmd) (s : State) : (cqDestroyPlan c s).Keeps g := by
  intro st hst
  unfold cqDestroyPlan
  dsimp only [setPlan, queryPlan]
  repeat' first
    | with_reducible assumption | with_reducible apply State.destroyCq_keeps

theorem cqQueryPlan_keeps {g : Pledge} (c : Cmd) (s : State) : (cqQueryPlan c s).Keeps g := by
  intro st hst
  unfold cqQueryPlan
  dsimp only [setPlan, queryPlan]
  repeat' with_reducible assumption

theorem trigAllocPlan_keeps {g : Pledge} (c : Cmd) (s : State) : (trigAllocPlan c s).Keeps g := by
  intro st hst
  unfold trigAllocPlan
  dsimp only [setPlan, queryPlan]
  repeat' first
    | with_reducible assumption | with_reducible apply State.setFunc_keeps | split

theorem trigFreePlan_keeps {g : Pledge} (c : Cmd) (s : State) : (trigFreePlan c s).Keeps g := by
  intro st hst
  unfold trigFreePlan
  dsimp only [setPlan, queryPlan]
  repeat' first
    | with_reducible assumption | with_reducible apply State.modFunc_keeps

theorem trigSetPlan_keeps {g : Pledge} (c : Cmd) (s : State) : (trigSetPlan c s).Keeps g := by
  intro st hst
  unfold trigSetPlan
  dsimp only [setPlan, queryPlan]
  repeat' first
    | with_reducible assumption | with_reducible apply State.setTrig_keeps

theorem trigQueryPlan_keeps {g : Pledge} (c : Cmd) (s : State) : (trigQueryPlan c s).Keeps g := by
  intro st hst
  unfold trigQueryPlan
  dsimp only [setPlan, queryPlan]
  repeat' with_reducible assumption

theorem trigAddPlan_keeps {g : Pledge} (c : Cmd) (s : State) : (trigAddPlan c s).Keeps g := by
  intro st hst
  unfold trigAddPlan
  dsimp only [setPlan, queryPlan]
  repeat' first
    | with_reducible assumption | with_reducible apply State.advanceTrig_keeps

theorem commCreatePlan_keeps {g : Pledge} (c : Cmd) (s : State) : (commCreatePlan c s).Keeps g := by
  intro st hst
  unfold commCreatePlan
  dsimp only [setPlan, queryPlan]
  repeat' first
    | with_reducible assumption | with_reducible apply State.setFunc_keeps | with_reducible apply forEach_keeps
    | with_reducible apply State.modConn_keeps | split | (intro st x hst; try dsimp only)

theorem commDestroyPlan_keeps {g : Pledge} (c : Cmd) (s : State) : (commDestroyPlan c s).Keeps g := by
  intro st hst
  unfold commDestroyPlan
  dsimp only [setPlan, queryPlan]
  repeat' first
    | with_reducible assumption | with_reducible apply State.collPump_keeps | with_reducible apply State.destroyComm_keeps

theorem commQueryPlan_keeps {g : Pledge} (c : Cmd) (s : State) : (commQueryPlan c s).Keeps g := by
  intro st hst
  unfold commQueryPlan
  dsimp only [setPlan, queryPlan]
  repeat' with_reducible assumption

theorem collRingCreatePlan_keeps {g : Pledge} (c : Cmd) (s : State) : (collRingCreatePlan c s).Keeps g := by
  intro st hst
  unfold collRingCreatePlan
  dsimp only [setPlan, queryPlan]
  repeat' first
    | with_reducible assumption | with_reducible apply State.addRing_keeps

theorem collSlotsQueryPlan_keeps {g : Pledge} (c : Cmd) (s : State) : (collSlotsQueryPlan c s).Keeps g := by
  intro st hst
  unfold collSlotsQueryPlan
  dsimp only [setPlan, queryPlan]
  repeat' with_reducible assumption

theorem execRingCreate_keeps {g : Pledge} (f : FuncId) (s : State) (h : s.Keeps g) :
    ∀ out, execRingCreate f s = .next out → out.Keeps g := by
  unfold execRingCreate
  try dsimp only
  repeat' first
    | with_reducible assumption | with_reducible apply ringCreatePlan_keeps
    | (show ∀ _ : State, _; with_reducible apply State.perform_keeps)

theorem execRingDestroy_keeps {g : Pledge} (f : FuncId) (s : State) (h : s.Keeps g) :
    ∀ out, execRingDestroy f s = .next out → out.Keeps g := by
  unfold execRingDestroy
  try dsimp only
  repeat' first
    | with_reducible assumption | with_reducible apply ringDestroyPlan_keeps
    | (show ∀ _ : State, _; with_reducible apply State.perform_keeps)

theorem execRingQuery_keeps {g : Pledge} (f : FuncId) (s : State) (h : s.Keeps g) :
    ∀ out, execRingQuery f s = .next out → out.Keeps g := by
  unfold execRingQuery
  try dsimp only
  repeat' first
    | with_reducible assumption | with_reducible apply ringQueryPlan_keeps
    | (show ∀ _ : State, _; with_reducible apply State.perform_keeps)

theorem execRingModify_keeps {g : Pledge} (f : FuncId) (s : State) (h : s.Keeps g) :
    ∀ out, execRingModify f s = .next out → out.Keeps g := by
  unfold execRingModify
  try dsimp only
  repeat' first
    | with_reducible assumption | with_reducible apply ringModifyPlan_keeps
    | (show ∀ _ : State, _; with_reducible apply State.perform_keeps)

theorem execRingRestart_keeps {g : Pledge} (f : FuncId) (s : State) (h : s.Keeps g) :
    ∀ out, execRingRestart f s = .next out → out.Keeps g := by
  unfold execRingRestart
  try dsimp only
  repeat' first
    | with_reducible assumption | with_reducible apply ringRestartPlan_keeps
    | (show ∀ _ : State, _; with_reducible apply State.perform_keeps)

theorem execCqCreate_keeps {g : Pledge} (f : FuncId) (s : State) (h : s.Keeps g) :
    ∀ out, execCqCreate f s = .next out → out.Keeps g := by
  unfold execCqCreate
  try dsimp only
  repeat' first
    | with_reducible assumption | with_reducible apply cqCreatePlan_keeps
    | (show ∀ _ : State, _; with_reducible apply State.perform_keeps)

theorem execCqDestroy_keeps {g : Pledge} (f : FuncId) (s : State) (h : s.Keeps g) :
    ∀ out, execCqDestroy f s = .next out → out.Keeps g := by
  unfold execCqDestroy
  try dsimp only
  repeat' first
    | with_reducible assumption | with_reducible apply cqDestroyPlan_keeps
    | (show ∀ _ : State, _; with_reducible apply State.perform_keeps)

theorem execCqQuery_keeps {g : Pledge} (f : FuncId) (s : State) (h : s.Keeps g) :
    ∀ out, execCqQuery f s = .next out → out.Keeps g := by
  unfold execCqQuery
  try dsimp only
  repeat' first
    | with_reducible assumption | with_reducible apply cqQueryPlan_keeps
    | (show ∀ _ : State, _; with_reducible apply State.perform_keeps)

theorem execTrigAlloc_keeps {g : Pledge} (f : FuncId) (s : State) (h : s.Keeps g) :
    ∀ out, execTrigAlloc f s = .next out → out.Keeps g := by
  unfold execTrigAlloc
  try dsimp only
  repeat' first
    | with_reducible assumption | with_reducible apply trigAllocPlan_keeps
    | (show ∀ _ : State, _; with_reducible apply State.perform_keeps)

theorem execTrigFree_keeps {g : Pledge} (f : FuncId) (s : State) (h : s.Keeps g) :
    ∀ out, execTrigFree f s = .next out → out.Keeps g := by
  unfold execTrigFree
  try dsimp only
  repeat' first
    | with_reducible assumption | with_reducible apply trigFreePlan_keeps
    | (show ∀ _ : State, _; with_reducible apply State.perform_keeps)

theorem execTrigSet_keeps {g : Pledge} (f : FuncId) (s : State) (h : s.Keeps g) :
    ∀ out, execTrigSet f s = .next out → out.Keeps g := by
  unfold execTrigSet
  try dsimp only
  repeat' first
    | with_reducible assumption | with_reducible apply trigSetPlan_keeps
    | (show ∀ _ : State, _; with_reducible apply State.perform_keeps)

theorem execTrigQuery_keeps {g : Pledge} (f : FuncId) (s : State) (h : s.Keeps g) :
    ∀ out, execTrigQuery f s = .next out → out.Keeps g := by
  unfold execTrigQuery
  try dsimp only
  repeat' first
    | with_reducible assumption | with_reducible apply trigQueryPlan_keeps
    | (show ∀ _ : State, _; with_reducible apply State.perform_keeps)

theorem execTrigAdd_keeps {g : Pledge} (f : FuncId) (s : State) (h : s.Keeps g) :
    ∀ out, execTrigAdd f s = .next out → out.Keeps g := by
  unfold execTrigAdd
  try dsimp only
  repeat' first
    | with_reducible assumption | with_reducible apply trigAddPlan_keeps
    | (show ∀ _ : State, _; with_reducible apply State.perform_keeps)

theorem execCommCreate_keeps {g : Pledge} (f : FuncId) (s : State) (h : s.Keeps g) :
    ∀ out, execCommCreate f s = .next out → out.Keeps g := by
  unfold execCommCreate
  try dsimp only
  repeat' first
    | with_reducible assumption | with_reducible apply commCreatePlan_keeps
    | (show ∀ _ : State, _; with_reducible apply State.perform_keeps)

theorem execCommDestroy_keeps {g : Pledge} (f : FuncId) (s : State) (h : s.Keeps g) :
    ∀ out, execCommDestroy f s = .next out → out.Keeps g := by
  unfold execCommDestroy
  try dsimp only
  repeat' first
    | with_reducible assumption | with_reducible apply commDestroyPlan_keeps
    | (show ∀ _ : State, _; with_reducible apply State.perform_keeps)

theorem execCommQuery_keeps {g : Pledge} (f : FuncId) (s : State) (h : s.Keeps g) :
    ∀ out, execCommQuery f s = .next out → out.Keeps g := by
  unfold execCommQuery
  try dsimp only
  repeat' first
    | with_reducible assumption | with_reducible apply commQueryPlan_keeps
    | (show ∀ _ : State, _; with_reducible apply State.perform_keeps)

theorem execCollRingCreate_keeps {g : Pledge} (f : FuncId) (s : State) (h : s.Keeps g) :
    ∀ out, execCollRingCreate f s = .next out → out.Keeps g := by
  unfold execCollRingCreate
  try dsimp only
  repeat' first
    | with_reducible assumption | with_reducible apply collRingCreatePlan_keeps
    | (show ∀ _ : State, _; with_reducible apply State.perform_keeps)

theorem execCollSlotsQuery_keeps {g : Pledge} (f : FuncId) (s : State) (h : s.Keeps g) :
    ∀ out, execCollSlotsQuery f s = .next out → out.Keeps g := by
  unfold execCollSlotsQuery
  try dsimp only
  repeat' first
    | with_reducible assumption | with_reducible apply collSlotsQueryPlan_keeps
    | (show ∀ _ : State, _; with_reducible apply State.perform_keeps)

/-! ### ConnCmds -/

theorem connCreatePlan_keeps {g : Pledge} (c : Cmd) (s : State) : (connCreatePlan c s).Keeps g := by
  intro st hst
  unfold connCreatePlan
  dsimp only [setPlan, queryPlan]
  repeat' first
    | with_reducible assumption | with_reducible apply State.evict_keeps | with_reducible apply State.touchConn_keeps
    | (with_reducible apply keeps_of_fields; dsimp only; with_reducible apply fields_of_keeps) | split

theorem connConnectPlan_keeps {g : Pledge} (c : Cmd) (s : State) : (connConnectPlan c s).Keeps g := by
  intro st hst
  unfold connConnectPlan
  dsimp only [setPlan, queryPlan]
  repeat' first
    | with_reducible assumption | with_reducible apply State.initialCredit_keeps
    | (with_reducible apply keeps_of_fields; dsimp only; with_reducible apply fields_of_keeps) | split

theorem connDestroyPlan_keeps {g : Pledge} (c : Cmd) (s : State) : (connDestroyPlan c s).Keeps g := by
  intro st hst
  unfold connDestroyPlan
  dsimp only [setPlan, queryPlan]
  repeat' first
    | with_reducible assumption | with_reducible apply State.destroyConn_keeps

theorem connQueryPlan_keeps {g : Pledge} (c : Cmd) (s : State) : (connQueryPlan c s).Keeps g := by
  intro st hst
  unfold connQueryPlan
  dsimp only [setPlan, queryPlan]
  repeat' with_reducible assumption

theorem connResetPlan_keeps {g : Pledge} (c : Cmd) (s : State) : (connResetPlan c s).Keeps g := by
  intro st hst
  unfold connResetPlan
  dsimp only [setPlan, queryPlan]
  repeat' first
    | with_reducible assumption | with_reducible apply State.modConn_keeps | with_reducible apply forEach_keeps
    | with_reducible apply State.quietConn_keeps | with_reducible apply State.destroyKey_keeps | split

theorem keyCreatePlan_keeps {g : Pledge} (c : Cmd) (s : State) : (keyCreatePlan c s).Keeps g := by
  intro st hst
  unfold keyCreatePlan
  dsimp only [setPlan, queryPlan]
  repeat' first
    | with_reducible assumption | (with_reducible apply keeps_of_fields; dsimp only; with_reducible apply fields_of_keeps)
    | split

theorem State.wipeKey_keeps {g : Pledge} (s : State) (f : FuncId) (h : s.Keeps g) : (State.wipeKey s f).Keeps g := by
  unfold State.wipeKey
  try dsimp only
  repeat' first
    | with_reducible assumption | with_reducible apply State.modMbx_keeps

theorem keyDestroyPlan_keeps {g : Pledge} (c : Cmd) (s : State) : (keyDestroyPlan c s).Keeps g := by
  intro st hst
  unfold keyDestroyPlan
  dsimp only [setPlan, queryPlan]
  repeat' first
    | with_reducible assumption | with_reducible apply State.destroyKey_keeps

theorem State.bindKey_keeps {g : Pledge} (s : State) (k n : Nat) (h : s.Keeps g) : (State.bindKey s k n).Keeps g := by
  unfold State.bindKey
  try dsimp only
  repeat' first
    | with_reducible assumption | (with_reducible apply keeps_of_fields; dsimp only; with_reducible apply fields_of_keeps)

theorem connSetKeysPlan_keeps {g : Pledge} (c : Cmd) (s : State) : (connSetKeysPlan c s).Keeps g := by
  intro st hst
  unfold connSetKeysPlan
  dsimp only [setPlan, queryPlan]
  repeat' first
    | with_reducible assumption | with_reducible apply forEach_keeps | with_reducible apply State.modConn_keeps
    | with_reducible apply State.bindKey_keeps
    | (with_reducible apply keeps_of_fields; dsimp only; with_reducible apply fields_of_keeps) | split
    | (intro st x hst; try dsimp only)

theorem connRotateKeysPlan_keeps {g : Pledge} (c : Cmd) (s : State) : (connRotateKeysPlan c s).Keeps g := by
  intro st hst
  unfold connRotateKeysPlan
  dsimp only [setPlan, queryPlan]
  repeat' first
    | with_reducible assumption | with_reducible apply State.bindKey_keeps | with_reducible apply State.beginWork_keeps
    | with_reducible apply State.dropOldTx_keeps | with_reducible apply State.modConn_keeps

theorem xportSetPlan_keeps {g : Pledge} (c : Cmd) (s : State) : (xportSetPlan c s).Keeps g := by
  intro st hst
  unfold xportSetPlan
  dsimp only [setPlan, queryPlan]
  repeat' first
    | with_reducible assumption | with_reducible apply State.clampSoon_keeps | with_reducible apply State.modConn_keeps

theorem xportQueryPlan_keeps {g : Pledge} (c : Cmd) (s : State) : (xportQueryPlan c s).Keeps g := by
  intro st hst
  unfold xportQueryPlan
  dsimp only [setPlan, queryPlan]
  repeat' with_reducible assumption

theorem execConnCreate_keeps {g : Pledge} (f : FuncId) (s : State) (h : s.Keeps g) :
    ∀ out, execConnCreate f s = .next out → out.Keeps g := by
  unfold execConnCreate
  try dsimp only
  repeat' first
    | with_reducible assumption | with_reducible apply connCreatePlan_keeps
    | (show ∀ _ : State, _; with_reducible apply State.perform_keeps)

theorem execConnConnect_keeps {g : Pledge} (f : FuncId) (s : State) (h : s.Keeps g) :
    ∀ out, execConnConnect f s = .next out → out.Keeps g := by
  unfold execConnConnect
  try dsimp only
  repeat' first
    | with_reducible assumption | with_reducible apply connConnectPlan_keeps
    | (show ∀ _ : State, _; with_reducible apply State.perform_keeps)

theorem execConnDestroy_keeps {g : Pledge} (f : FuncId) (s : State) (h : s.Keeps g) :
    ∀ out, execConnDestroy f s = .next out → out.Keeps g := by
  unfold execConnDestroy
  try dsimp only
  repeat' first
    | with_reducible assumption | with_reducible apply connDestroyPlan_keeps
    | (show ∀ _ : State, _; with_reducible apply State.perform_keeps)

theorem execConnQuery_keeps {g : Pledge} (f : FuncId) (s : State) (h : s.Keeps g) :
    ∀ out, execConnQuery f s = .next out → out.Keeps g := by
  unfold execConnQuery
  try dsimp only
  repeat' first
    | with_reducible assumption | with_reducible apply connQueryPlan_keeps
    | (show ∀ _ : State, _; with_reducible apply State.perform_keeps)

theorem execConnReset_keeps {g : Pledge} (f : FuncId) (s : State) (h : s.Keeps g) :
    ∀ out, execConnReset f s = .next out → out.Keeps g := by
  unfold execConnReset
  try dsimp only
  repeat' first
    | with_reducible assumption | with_reducible apply connResetPlan_keeps
    | (show ∀ _ : State, _; with_reducible apply State.perform_keeps)

theorem execKeyCreate_keeps {g : Pledge} (f : FuncId) (s : State) (h : s.Keeps g) :
    ∀ out, execKeyCreate f s = .next out → out.Keeps g := by
  unfold execKeyCreate
  try dsimp only
  repeat' first
    | with_reducible assumption | with_reducible apply State.settle_keeps | with_reducible apply State.wipeKey_keeps
    | with_reducible apply State.runCommand_keeps | with_reducible apply keyCreatePlan_keeps
    | with_reducible refine keeps_next ?_ | with_reducible apply keeps_ite

theorem execKeyDestroy_keeps {g : Pledge} (f : FuncId) (s : State) (h : s.Keeps g) :
    ∀ out, execKeyDestroy f s = .next out → out.Keeps g := by
  unfold execKeyDestroy
  try dsimp only
  repeat' first
    | with_reducible assumption | with_reducible apply keyDestroyPlan_keeps
    | (show ∀ _ : State, _; with_reducible apply State.perform_keeps)

theorem execConnSetKeys_keeps {g : Pledge} (f : FuncId) (s : State) (h : s.Keeps g) :
    ∀ out, execConnSetKeys f s = .next out → out.Keeps g := by
  unfold execConnSetKeys
  try dsimp only
  repeat' first
    | with_reducible assumption | with_reducible apply connSetKeysPlan_keeps
    | (show ∀ _ : State, _; with_reducible apply State.perform_keeps)

theorem execConnRotateKeys_keeps {g : Pledge} (f : FuncId) (s : State) (h : s.Keeps g) :
    ∀ out, execConnRotateKeys f s = .next out → out.Keeps g := by
  unfold execConnRotateKeys
  try dsimp only
  repeat' first
    | with_reducible assumption | with_reducible apply connRotateKeysPlan_keeps
    | (show ∀ _ : State, _; with_reducible apply State.perform_keeps)

theorem execXportSet_keeps {g : Pledge} (f : FuncId) (s : State) (h : s.Keeps g) :
    ∀ out, execXportSet f s = .next out → out.Keeps g := by
  unfold execXportSet
  try dsimp only
  repeat' first
    | with_reducible assumption | with_reducible apply xportSetPlan_keeps
    | (show ∀ _ : State, _; with_reducible apply State.perform_keeps)

theorem execXportQuery_keeps {g : Pledge} (f : FuncId) (s : State) (h : s.Keeps g) :
    ∀ out, execXportQuery f s = .next out → out.Keeps g := by
  unfold execXportQuery
  try dsimp only
  repeat' first
    | with_reducible assumption | with_reducible apply xportQueryPlan_keeps
    | (show ∀ _ : State, _; with_reducible apply State.perform_keeps)

/-! ### MemCmds -/

theorem memLayoutQueryPlan_keeps {g : Pledge} (c : Cmd) (s0 : State) : (memLayoutQueryPlan c s0).Keeps g := by
  intro st hst
  unfold memLayoutQueryPlan
  dsimp only [setPlan, queryPlan]
  repeat' with_reducible assumption

theorem memLayoutSetPlan_keeps {g : Pledge} (c : Cmd) (s : State) : (memLayoutSetPlan c s).Keeps g := by
  intro st hst
  unfold memLayoutSetPlan
  dsimp only [setPlan, queryPlan]
  repeat' with_reducible assumption

theorem State.setLayout_keeps {g : Pledge} (s : State) (l : Layout) (h : s.Keeps g) : (s.setLayout l).Keeps g := by
  have set : ∀ u : State, u.Keeps g → State.Keeps g { u with mem := { u.mem with layout := l } } := fun _ k => k
  unfold State.setLayout
  extract_lets old s1 s2
  have h1 : s1.Keeps g := by
    unfold s1
    split
    · exact h
    · exact forEach_keeps _ _ _ h (fun st k hst => State.scrub_keeps st _ _ hst)
  clear_value s1
  have h2 : s2.Keeps g := by
    unfold s2
    refine forEach_keeps _ _ _ h1 (fun st k hst => ?_)
    split
    · exact hst
    · exact State.scrub_keeps st _ _ hst
  exact set s2 h2

theorem shareScrubPlan_keeps {g : Pledge} (c : Cmd) (s : State) : (shareScrubPlan c s).Keeps g := by
  intro st hst
  unfold shareScrubPlan
  dsimp only [setPlan, queryPlan]
  repeat' with_reducible assumption

theorem scrubSetPlan_keeps {g : Pledge} (c : Cmd) (s : State) : (scrubSetPlan c s).Keeps g := by
  intro st hst
  unfold scrubSetPlan
  dsimp only [setPlan, queryPlan]
  repeat' first
    | with_reducible assumption | (with_reducible apply keeps_of_fields; dsimp only; with_reducible apply fields_of_keeps)

theorem scrubQueryPlan_keeps {g : Pledge} (c : Cmd) (s : State) : (scrubQueryPlan c s).Keeps g := by
  intro st hst
  unfold scrubQueryPlan
  dsimp only [setPlan, queryPlan]
  repeat' with_reducible assumption

theorem State.grant_keeps {g : Pledge} (s : State) (f : FuncId) (tilth : Bool) (l : List Nat) (h : s.Keeps g) :
    (State.grant s f tilth l).Keeps g := by
  unfold State.grant
  try dsimp only
  repeat' first
    | with_reducible assumption | with_reducible apply State.shareChanged_keeps | with_reducible apply State.setFunc_keeps

theorem State.ungrant_keeps {g : Pledge} (s : State) (f : FuncId) (tilth : Bool) (l : List Nat) (h : s.Keeps g) :
    (State.ungrant s f tilth l).Keeps g := by
  unfold State.ungrant
  try dsimp only
  repeat' first
    | with_reducible assumption | with_reducible apply State.shareChanged_keeps | with_reducible apply State.setFunc_keeps

theorem granuleGrantPlan_keeps {g : Pledge} (c : Cmd) (s : State) : (granuleGrantPlan c s).Keeps g := by
  intro st hst
  unfold granuleGrantPlan
  dsimp only [setPlan, queryPlan]
  repeat' first
    | with_reducible assumption | with_reducible apply State.grant_keeps

theorem granuleRevokePlan_keeps {g : Pledge} (c : Cmd) (s : State) : (granuleRevokePlan c s).Keeps g := by
  intro st hst
  unfold granuleRevokePlan
  dsimp only [setPlan, queryPlan]
  repeat' first
    | with_reducible assumption | with_reducible apply State.ungrant_keeps

theorem granuleQueryPlan_keeps {g : Pledge} (c : Cmd) (s : State) : (granuleQueryPlan c s).Keeps g := by
  intro st hst
  unfold granuleQueryPlan
  dsimp only [setPlan, queryPlan]
  repeat' with_reducible assumption

theorem execMemLayoutQuery_keeps {g : Pledge} (f : FuncId) (s : State) (h : s.Keeps g) :
    ∀ out, execMemLayoutQuery f s = .next out → out.Keeps g := by
  unfold execMemLayoutQuery
  try dsimp only
  repeat' first
    | with_reducible assumption | with_reducible apply memLayoutQueryPlan_keeps
    | (show ∀ _ : State, _; with_reducible apply State.perform_keeps)

theorem execMemLayoutSet_keeps {g : Pledge} (f : FuncId) (s : State) (h : s.Keeps g) :
    ∀ out, execMemLayoutSet f s = .next out → out.Keeps g := by
  unfold execMemLayoutSet
  try dsimp only
  repeat' first
    | with_reducible assumption | with_reducible apply memLayoutSetPlan_keeps
    | (show ∀ _ : State, _; with_reducible apply State.perform_keeps)

theorem execShareScrub_keeps {g : Pledge} (f : FuncId) (s : State) (h : s.Keeps g) :
    ∀ out, execShareScrub f s = .next out → out.Keeps g := by
  unfold execShareScrub
  try dsimp only
  repeat' first
    | with_reducible assumption | with_reducible apply shareScrubPlan_keeps
    | (show ∀ _ : State, _; with_reducible apply State.perform_keeps)

theorem execScrubSet_keeps {g : Pledge} (f : FuncId) (s : State) (h : s.Keeps g) :
    ∀ out, execScrubSet f s = .next out → out.Keeps g := by
  unfold execScrubSet
  try dsimp only
  repeat' first
    | with_reducible assumption | with_reducible apply scrubSetPlan_keeps
    | (show ∀ _ : State, _; with_reducible apply State.perform_keeps)

theorem execScrubQuery_keeps {g : Pledge} (f : FuncId) (s : State) (h : s.Keeps g) :
    ∀ out, execScrubQuery f s = .next out → out.Keeps g := by
  unfold execScrubQuery
  try dsimp only
  repeat' first
    | with_reducible assumption | with_reducible apply scrubQueryPlan_keeps
    | (show ∀ _ : State, _; with_reducible apply State.perform_keeps)

theorem execGranuleGrant_keeps {g : Pledge} (f : FuncId) (s : State) (h : s.Keeps g) :
    ∀ out, execGranuleGrant f s = .next out → out.Keeps g := by
  unfold execGranuleGrant
  try dsimp only
  repeat' first
    | with_reducible assumption | with_reducible apply granuleGrantPlan_keeps
    | (show ∀ _ : State, _; with_reducible apply State.perform_keeps)

theorem execGranuleRevoke_keeps {g : Pledge} (f : FuncId) (s : State) (h : s.Keeps g) :
    ∀ out, execGranuleRevoke f s = .next out → out.Keeps g := by
  unfold execGranuleRevoke
  try dsimp only
  repeat' first
    | with_reducible assumption | with_reducible apply granuleRevokePlan_keeps
    | (show ∀ _ : State, _; with_reducible apply State.perform_keeps)

theorem execGranuleQuery_keeps {g : Pledge} (f : FuncId) (s : State) (h : s.Keeps g) :
    ∀ out, execGranuleQuery f s = .next out → out.Keeps g := by
  unfold execGranuleQuery
  try dsimp only
  repeat' first
    | with_reducible assumption | with_reducible apply granuleQueryPlan_keeps
    | (show ∀ _ : State, _; with_reducible apply State.perform_keeps)

/-! ### ResetCmds -/

theorem State.beginRestart_keeps {g : Pledge} (s : State) (cause image : Nat) (h : s.Keeps g) :
    (State.beginRestart s cause image).Keeps g := by
  unfold State.beginRestart
  try dsimp only
  repeat' first
    | with_reducible assumption | with_reducible apply forEach_keeps | with_reducible apply State.hardwareBusy_keeps
    | with_reducible apply State.fault_keeps
    | (with_reducible apply keeps_of_fields; dsimp only; with_reducible apply fields_of_keeps) | with_reducible apply keeps_ite

theorem moduleResetPlan_keeps {g : Pledge} (c : Cmd) (s : State) : (moduleResetPlan c s).Keeps g := by
  intro st hst
  unfold moduleResetPlan
  dsimp only [setPlan, queryPlan]
  repeat' first
    | with_reducible assumption | (with_reducible apply keeps_of_fields; dsimp only; with_reducible apply fields_of_keeps)

theorem fwRestartPlan_keeps {g : Pledge} (c : Cmd) (s : State) : (fwRestartPlan c s).Keeps g := by
  intro st hst
  unfold fwRestartPlan
  dsimp only [setPlan, queryPlan]
  repeat' first
    | with_reducible assumption | with_reducible apply State.beginRestart_keeps

theorem tineResetPlan_keeps {g : Pledge} (c : Cmd) (s : State) : (tineResetPlan c s).Keeps g := by
  intro st hst
  unfold tineResetPlan
  dsimp only [setPlan, queryPlan]
  repeat' with_reducible assumption

theorem State.enterFallow_keeps {g : Pledge} (s : State) (h : s.Keeps g) : (State.enterFallow s).Keeps g := by
  unfold State.enterFallow
  try dsimp only
  repeat' first
    | with_reducible assumption | with_reducible apply forEach_keeps | with_reducible apply State.portDown_keeps
    | (with_reducible apply keeps_of_fields; dsimp only; with_reducible apply fields_of_keeps)

theorem State.leaveFallow_keeps {g : Pledge} (s : State) (h : s.Keeps g) : (State.leaveFallow s).Keeps g := by
  unfold State.leaveFallow
  try dsimp only
  repeat' first
    | with_reducible assumption | (with_reducible apply keeps_of_fields; dsimp only; with_reducible apply fields_of_keeps)

theorem moduleFallowPlan_keeps {g : Pledge} (c : Cmd) (s : State) : (moduleFallowPlan c s).Keeps g := by
  intro st hst
  unfold moduleFallowPlan
  dsimp only [setPlan, queryPlan]
  repeat' first
    | with_reducible assumption | with_reducible apply State.enterFallow_keeps | with_reducible apply keeps_ite

theorem State.destroyKeys_keeps {g : Pledge} (s : State) (h : s.Keeps g) : (State.destroyKeys s).Keeps g := by
  unfold State.destroyKeys
  try dsimp only
  repeat' first
    | with_reducible assumption | with_reducible apply forEach_keeps | with_reducible apply State.destroyKey_keeps
    | with_reducible apply State.destroyRegion_keeps
    | (with_reducible apply keeps_of_fields; dsimp only; with_reducible apply fields_of_keeps)
    | (intro st x hst; try dsimp only)

theorem State.zeroMemories_keeps {g : Pledge} (s : State) (h : s.Keeps g) : s.zeroMemories.Keeps g := ⟨h.1, rfl, h.2.2⟩

theorem State.wipe_keeps {g : Pledge} (s : State) (h : s.Keeps g) : (State.wipe s).Keeps g := by
  unfold State.wipe
  try dsimp only
  repeat' first
    | with_reducible assumption | with_reducible apply forEach_keeps | with_reducible apply State.discardQueues_keeps
    | with_reducible apply State.destroyKeys_keeps | with_reducible apply State.zeroMemories_keeps
    | (with_reducible apply keeps_of_fields; dsimp only; with_reducible apply fields_of_keeps)

theorem moduleWipePlan_keeps {g : Pledge} (c : Cmd) (s : State) : (moduleWipePlan c s).Keeps g := by
  intro st hst
  unfold moduleWipePlan
  dsimp only [setPlan, queryPlan]
  repeat' with_reducible assumption

theorem imageQueryPlan_keeps {g : Pledge} (c : Cmd) (s : State) : (imageQueryPlan c s).Keeps g := by
  intro st hst
  unfold imageQueryPlan
  dsimp only [setPlan, queryPlan]
  repeat' with_reducible assumption

/-- Writing an image slot leaves the pledge's fields alone. -/
theorem setSlot_keeps {g : Pledge} (s : State) (k : Nat) (v : ImageSlot) (h : s.Keeps g) :
    State.Keeps g { s with mram := s.mram.setSlot k v } := by
  unfold Mram.setSlot
  split <;> exact h

theorem imageProgramPlan_keeps {g : Pledge} (img : ImageInfo) (c : Cmd) (s : State) : (imageProgramPlan img c s).Keeps g :=
  fun st h => setSlot_keeps st _ _ h

theorem State.imageDone_keeps {g : Pledge} (s : State) (slot : Nat) (img : ImageInfo) (h : s.Keeps g) :
    (s.imageDone slot img).Keeps g := setSlot_keeps s _ _ h

theorem imageSelectPlan_keeps {g : Pledge} (c : Cmd) (s : State) : (imageSelectPlan c s).Keeps g := by
  refine setPlan_keeps _ _ _ _ (fun st h => ⟨h.1, h.2.1, Nat.le_trans h.2.2.1 ?_, h.2.2.2⟩)
  dsimp only
  split
  · exact Nat.le_max_left _ _
  · exact Nat.le_refl _

theorem bootLogReadPlan_keeps {g : Pledge} (c : Cmd) (s : State) : (bootLogReadPlan c s).Keeps g := by
  intro st hst
  unfold bootLogReadPlan
  dsimp only [setPlan, queryPlan]
  repeat' with_reducible assumption

theorem bootLogClearPlan_keeps {g : Pledge} (c : Cmd) (s : State) : (bootLogClearPlan c s).Keeps g := by
  intro st hst
  unfold bootLogClearPlan
  dsimp only [setPlan, queryPlan]
  repeat' first
    | with_reducible assumption | (with_reducible apply keeps_of_fields; dsimp only; with_reducible apply fields_of_keeps)

theorem lcQueryPlan_keeps {g : Pledge} (c : Cmd) (s : State) : (lcQueryPlan c s).Keeps g := by
  intro st hst
  unfold lcQueryPlan
  dsimp only [setPlan, queryPlan]
  repeat' with_reducible assumption

theorem lcChallengePlan_keeps {g : Pledge} (c : Cmd) (s : State) : (lcChallengePlan c s).Keeps g := by
  intro st hst
  unfold lcChallengePlan
  dsimp only [setPlan, queryPlan]
  repeat' first
    | with_reducible assumption | with_reducible apply State.fresh_keeps
    | (with_reducible apply keeps_of_fields; dsimp only; with_reducible apply fields_of_keeps)

theorem lcTransitionPlan_keeps {g : Pledge} (signatureGood : Bool) (c : Cmd) (s : State) :
    (lcTransitionPlan signatureGood c s).Keeps g := by
  intro st hst
  unfold lcTransitionPlan
  dsimp only [setPlan, queryPlan]
  repeat' first
    | with_reducible assumption | with_reducible apply State.destroyKeys_keeps
    | (with_reducible apply keeps_of_fields; dsimp only; with_reducible apply fields_of_keeps)

theorem factoryTestPlan_keeps {g : Pledge} (c : Cmd) (s : State) : (factoryTestPlan c s).Keeps g := by
  intro st hst
  unfold factoryTestPlan
  dsimp only [setPlan, queryPlan]
  repeat' with_reducible assumption

theorem execModuleReset_keeps {g : Pledge} (f : FuncId) (s : State) (h : s.Keeps g) :
    ∀ out, execModuleReset f s = .next out → out.Keeps g := by
  unfold execModuleReset
  try dsimp only
  repeat' first
    | with_reducible assumption | with_reducible apply moduleResetPlan_keeps
    | (show ∀ _ : State, _; with_reducible apply State.perform_keeps)

theorem execFwRestart_keeps {g : Pledge} (f : FuncId) (s : State) (h : s.Keeps g) :
    ∀ out, execFwRestart f s = .next out → out.Keeps g := by
  unfold execFwRestart
  try dsimp only
  repeat' first
    | with_reducible assumption | with_reducible apply fwRestartPlan_keeps
    | (show ∀ _ : State, _; with_reducible apply State.perform_keeps)

theorem execTineReset_keeps {g : Pledge} (f : FuncId) (s : State) (h : s.Keeps g) :
    ∀ out, execTineReset f s = .next out → out.Keeps g := by
  unfold execTineReset
  try dsimp only
  repeat' first
    | with_reducible assumption | with_reducible apply tineResetPlan_keeps
    | (show ∀ _ : State, _; with_reducible apply State.perform_keeps)

theorem execModuleFallow_keeps {g : Pledge} (f : FuncId) (s : State) (h : s.Keeps g) :
    ∀ out, execModuleFallow f s = .next out → out.Keeps g := by
  unfold execModuleFallow
  try dsimp only
  repeat' first
    | with_reducible assumption | with_reducible apply moduleFallowPlan_keeps
    | (show ∀ _ : State, _; with_reducible apply State.perform_keeps)

theorem execModuleWipe_keeps {g : Pledge} (f : FuncId) (s : State) (h : s.Keeps g) :
    ∀ out, execModuleWipe f s = .next out → out.Keeps g := by
  unfold execModuleWipe
  try dsimp only
  repeat' first
    | with_reducible assumption | with_reducible apply moduleWipePlan_keeps
    | (show ∀ _ : State, _; with_reducible apply State.perform_keeps)

theorem execImageQuery_keeps {g : Pledge} (f : FuncId) (s : State) (h : s.Keeps g) :
    ∀ out, execImageQuery f s = .next out → out.Keeps g := by
  unfold execImageQuery
  try dsimp only
  repeat' first
    | with_reducible assumption | with_reducible apply imageQueryPlan_keeps
    | (show ∀ _ : State, _; with_reducible apply State.perform_keeps)

theorem execImageProgram_keeps {g : Pledge} (f : FuncId) (img : ImageInfo) (s : State) (h : s.Keeps g) :
    ∀ out, execImageProgram f img s = .next out → out.Keeps g := by
  unfold execImageProgram
  try dsimp only
  repeat' first
    | with_reducible assumption | with_reducible apply imageProgramPlan_keeps
    | (show ∀ _ : State, _; with_reducible apply State.perform_keeps)

theorem execImageSelect_keeps {g : Pledge} (f : FuncId) (s : State) (h : s.Keeps g) :
    ∀ out, execImageSelect f s = .next out → out.Keeps g := by
  unfold execImageSelect
  try dsimp only
  repeat' first
    | with_reducible assumption | with_reducible apply imageSelectPlan_keeps
    | (show ∀ _ : State, _; with_reducible apply State.perform_keeps)

theorem execBootLogRead_keeps {g : Pledge} (f : FuncId) (s : State) (h : s.Keeps g) :
    ∀ out, execBootLogRead f s = .next out → out.Keeps g := by
  unfold execBootLogRead
  try dsimp only
  repeat' first
    | with_reducible assumption | with_reducible apply bootLogReadPlan_keeps
    | (show ∀ _ : State, _; with_reducible apply State.perform_keeps)

theorem execBootLogClear_keeps {g : Pledge} (f : FuncId) (s : State) (h : s.Keeps g) :
    ∀ out, execBootLogClear f s = .next out → out.Keeps g := by
  unfold execBootLogClear
  try dsimp only
  repeat' first
    | with_reducible assumption | with_reducible apply bootLogClearPlan_keeps
    | (show ∀ _ : State, _; with_reducible apply State.perform_keeps)

theorem execLcQuery_keeps {g : Pledge} (f : FuncId) (s : State) (h : s.Keeps g) :
    ∀ out, execLcQuery f s = .next out → out.Keeps g := by
  unfold execLcQuery
  try dsimp only
  repeat' first
    | with_reducible assumption | with_reducible apply lcQueryPlan_keeps
    | (show ∀ _ : State, _; with_reducible apply State.perform_keeps)

theorem execLcChallenge_keeps {g : Pledge} (f : FuncId) (s : State) (h : s.Keeps g) :
    ∀ out, execLcChallenge f s = .next out → out.Keeps g := by
  unfold execLcChallenge
  try dsimp only
  repeat' first
    | with_reducible assumption | with_reducible apply lcChallengePlan_keeps
    | (show ∀ _ : State, _; with_reducible apply State.perform_keeps)

theorem execLcTransition_keeps {g : Pledge} (f : FuncId) (signatureGood : Bool) (s : State) (h : s.Keeps g) :
    ∀ out, execLcTransition f signatureGood s = .next out → out.Keeps g := by
  unfold execLcTransition
  try dsimp only
  repeat' first
    | with_reducible assumption | with_reducible apply lcTransitionPlan_keeps
    | (show ∀ _ : State, _; with_reducible apply State.perform_keeps)

theorem execFactoryTest_keeps {g : Pledge} (f : FuncId) (s : State) (h : s.Keeps g) :
    ∀ out, execFactoryTest f s = .next out → out.Keeps g := by
  unfold execFactoryTest
  try dsimp only
  repeat' first
    | with_reducible assumption | with_reducible apply factoryTestPlan_keeps
    | (show ∀ _ : State, _; with_reducible apply State.perform_keeps) | with_reducible refine keeps_next ?_ | split

/-! ### InfoCmds -/

theorem nopPlan_keeps {g : Pledge} (c : Cmd) (s : State) : (nopPlan c s).Keeps g := fun _ h => h

theorem moduleInfoPlan_keeps {g : Pledge} (c : Cmd) (s : State) : (moduleInfoPlan c s).Keeps g := by
  intro st hst
  unfold moduleInfoPlan
  dsimp only [setPlan, queryPlan]
  repeat' with_reducible assumption

theorem State.runUndefined_keeps {g : Pledge} (s : State) (f : FuncId) (h : s.Keeps g) : (State.runUndefined s f).Keeps g := by
  unfold State.runUndefined
  try dsimp only
  repeat' first
    | with_reducible assumption | with_reducible apply State.take_keeps | with_reducible apply State.answer_keeps
    | with_reducible apply keeps_ite | split

theorem execNop_keeps {g : Pledge} (f : FuncId) (s : State) (h : s.Keeps g) : ∀ out, execNop f s = .next out → out.Keeps g := by
  unfold execNop
  try dsimp only
  repeat' first
    | with_reducible assumption | with_reducible apply nopPlan_keeps
    | (show ∀ _ : State, _; with_reducible apply State.perform_keeps)

theorem execModuleInfo_keeps {g : Pledge} (f : FuncId) (s : State) (h : s.Keeps g) :
    ∀ out, execModuleInfo f s = .next out → out.Keeps g := by
  unfold execModuleInfo
  try dsimp only
  repeat' first
    | with_reducible assumption | with_reducible apply moduleInfoPlan_keeps
    | (show ∀ _ : State, _; with_reducible apply State.perform_keeps)

theorem execUndefinedOpcode_keeps {g : Pledge} (f : FuncId) (s : State) (h : s.Keeps g) :
    ∀ out, execUndefinedOpcode f s = .next out → out.Keeps g := by
  unfold execUndefinedOpcode
  try dsimp only
  repeat' first
    | with_reducible assumption | with_reducible apply State.settle_keeps | with_reducible apply State.runUndefined_keeps
    | with_reducible refine keeps_next ?_

/-! ### DrillCmds -/

theorem State.weightsRegion_keeps {g : Pledge} (s : State) (f : FuncId) (n : Nat) (img : Bytes) (furrows : List Nat)
     (h : s.Keeps g) : (State.weightsRegion s f n img furrows).2.Keeps g := by
  unfold State.weightsRegion
  try dsimp only
  repeat' first
    | with_reducible assumption | (with_reducible apply keeps_of_fields; dsimp only; with_reducible apply fields_of_keeps)
    | split

theorem State.beginLoad_keeps {g : Pledge} (s : State) (c : Cmd) (img : Bytes) (descs : List StreamDesc) (h : s.Keeps g) :
    (State.beginLoad s c img descs).1.Keeps g := by
  unfold State.beginLoad
  try dsimp only
  repeat' first
    | with_reducible assumption | with_reducible apply State.weightsRegion_keeps | with_reducible apply State.modFunc_keeps
    | (with_reducible apply keeps_of_fields; dsimp only; with_reducible apply fields_of_keeps) | split

theorem State.holdClocks_keeps {g : Pledge} (s : State) (p : Prog) (h : s.Keeps g) : (State.holdClocks s p).Keeps g := by
  unfold State.holdClocks
  try dsimp only
  repeat' first
    | with_reducible assumption | (with_reducible apply keeps_of_fields; dsimp only; with_reducible apply fields_of_keeps)
    | with_reducible apply keeps_ite

theorem State.drillLoaded_keeps {g : Pledge} (s : State) (n : Nat) (h : s.Keeps g) : (State.drillLoaded s n).1.Keeps g := by
  unfold State.drillLoaded
  try dsimp only
  repeat' first
    | with_reducible assumption | with_reducible apply State.writeRuns_keeps | with_reducible apply forEach_keeps
    | with_reducible apply State.loadStore_keeps | with_reducible apply State.warm_keeps
    | with_reducible apply State.modProg_keeps | with_reducible apply State.holdClocks_keeps | with_reducible apply keeps_ite
    | split | (intro st x hst; try dsimp only)

theorem drillLoadPlan_keeps {g : Pledge} (img0 : Bytes) (stoch : Option Nat) (descs : List StreamDesc) (c : Cmd) (s : State) :
    (drillLoadPlan img0 stoch descs c s).Keeps g := by
  intro st hst
  unfold drillLoadPlan
  dsimp only [setPlan, queryPlan]
  repeat' first
    | with_reducible assumption | with_reducible apply State.beginLoad_keeps

theorem drillUnloadPlan_keeps {g : Pledge} (c : Cmd) (s : State) : (drillUnloadPlan c s).Keeps g := by
  intro st hst
  unfold drillUnloadPlan
  dsimp only [setPlan, queryPlan]
  repeat' first
    | with_reducible assumption | with_reducible apply State.modProg_keeps

theorem drillQueryPlan_keeps {g : Pledge} (c : Cmd) (s : State) : (drillQueryPlan c s).Keeps g := by
  intro st hst
  unfold drillQueryPlan
  dsimp only [setPlan, queryPlan]
  repeat' with_reducible assumption

theorem drillControlPlan_keeps {g : Pledge} (c : Cmd) (s : State) : (drillControlPlan c s).Keeps g := by
  intro st hst
  unfold drillControlPlan
  dsimp only [setPlan, queryPlan]
  repeat' first
    | with_reducible assumption | with_reducible apply State.modProg_keeps

theorem furrowQueryPlan_keeps {g : Pledge} (c : Cmd) (s : State) : (furrowQueryPlan c s).Keeps g := by
  intro st hst
  unfold furrowQueryPlan
  dsimp only [setPlan, queryPlan]
  repeat' with_reducible assumption

theorem execDrillLoad_keeps {g : Pledge} (f : FuncId) (img : Bytes) (code : ImageCode) (s : State) (h : s.Keeps g) :
    ∀ out, execDrillLoad f img code s = .next out → out.Keeps g := by
  unfold execDrillLoad
  try dsimp only
  repeat' first
    | with_reducible assumption | with_reducible apply State.settle_keeps | with_reducible apply State.runCommandC_keeps
    | with_reducible apply drillLoadPlan_keeps | with_reducible refine keeps_next ?_

theorem execDrillUnload_keeps {g : Pledge} (f : FuncId) (s : State) (h : s.Keeps g) :
    ∀ out, execDrillUnload f s = .next out → out.Keeps g := by
  unfold execDrillUnload
  try dsimp only
  repeat' first
    | with_reducible assumption | with_reducible apply drillUnloadPlan_keeps
    | (show ∀ _ : State, _; with_reducible apply State.perform_keeps)

theorem execDrillQuery_keeps {g : Pledge} (f : FuncId) (s : State) (h : s.Keeps g) :
    ∀ out, execDrillQuery f s = .next out → out.Keeps g := by
  unfold execDrillQuery
  try dsimp only
  repeat' first
    | with_reducible assumption | with_reducible apply drillQueryPlan_keeps
    | (show ∀ _ : State, _; with_reducible apply State.perform_keeps)

theorem execDrillControl_keeps {g : Pledge} (f : FuncId) (s : State) (h : s.Keeps g) :
    ∀ out, execDrillControl f s = .next out → out.Keeps g := by
  unfold execDrillControl
  try dsimp only
  repeat' first
    | with_reducible assumption | with_reducible apply drillControlPlan_keeps
    | (show ∀ _ : State, _; with_reducible apply State.perform_keeps)

theorem execFurrowQuery_keeps {g : Pledge} (f : FuncId) (s : State) (h : s.Keeps g) :
    ∀ out, execFurrowQuery f s = .next out → out.Keeps g := by
  unfold execFurrowQuery
  try dsimp only
  repeat' first
    | with_reducible assumption | with_reducible apply furrowQueryPlan_keeps
    | (show ∀ _ : State, _; with_reducible apply State.perform_keeps)

/-! ### ObsCmds -/

theorem State.freshN_keeps {g : Pledge} (x0 : Nat) (x1 : State) (h : x1.Keeps g) : (State.freshN x0 x1).2.Keeps g := by
  induction x0 generalizing x1 with
  | zero => exact h
  | succ k ih =>
    unfold State.freshN
    try dsimp only
    repeat' first
      | with_reducible apply ih | with_reducible assumption | with_reducible apply State.fresh_keeps

theorem State.peaksRead_keeps {g : Pledge} (s : State) (group : Nat) (h : s.Keeps g) : (State.peaksRead s group).Keeps g := by
  unfold State.peaksRead
  try dsimp only
  repeat' first
    | with_reducible assumption | (with_reducible apply keeps_of_fields; dsimp only; with_reducible apply fields_of_keeps)
    | with_reducible apply keeps_ite

theorem cntGlobalReadPlan_keeps {g : Pledge} (c : Cmd) (s : State) : (cntGlobalReadPlan c s).Keeps g := by
  intro st hst
  unfold cntGlobalReadPlan
  dsimp only [setPlan, queryPlan]
  repeat' first
    | with_reducible assumption | with_reducible apply State.freshN_keeps | with_reducible apply State.peaksRead_keeps

theorem traceConfigPlan_keeps {g : Pledge} (c : Cmd) (s : State) : (traceConfigPlan c s).Keeps g := by
  intro st hst
  unfold traceConfigPlan
  dsimp only [setPlan, queryPlan]
  repeat' first
    | with_reducible assumption | (with_reducible apply keeps_of_fields; dsimp only; with_reducible apply fields_of_keeps)

theorem traceControlPlan_keeps {g : Pledge} (c : Cmd) (s : State) : (traceControlPlan c s).Keeps g := by
  intro st hst
  unfold traceControlPlan
  dsimp only [setPlan, queryPlan]
  repeat' first
    | with_reducible assumption | with_reducible apply State.traceTrigger_keeps
    | (with_reducible apply keeps_of_fields; dsimp only; with_reducible apply fields_of_keeps) | with_reducible apply keeps_ite

theorem traceQueryPlan_keeps {g : Pledge} (c : Cmd) (s : State) : (traceQueryPlan c s).Keeps g := by
  intro st hst
  unfold traceQueryPlan
  dsimp only [setPlan, queryPlan]
  repeat' with_reducible assumption

theorem traceReadPlan_keeps {g : Pledge} (c : Cmd) (s : State) : (traceReadPlan c s).Keeps g := by
  intro st hst
  unfold traceReadPlan
  dsimp only [setPlan, queryPlan]
  repeat' with_reducible assumption

theorem State.traceOut_keeps {g : Pledge} (s : State) (f : FuncId) (die : DieId) (key off len : Nat) (h : s.Keeps g) :
    (State.traceOut s f die key off len).Keeps g := by
  unfold State.traceOut
  try dsimp only
  repeat' first
    | with_reducible assumption | with_reducible apply State.answerLong_keeps | with_reducible apply State.startWrite_keeps
    | with_reducible apply State.modMbx_keeps | with_reducible apply keeps_ite | split

theorem faultReadPlan_keeps {g : Pledge} (c : Cmd) (s : State) : (faultReadPlan c s).Keeps g := by
  intro st hst
  unfold faultReadPlan
  dsimp only [setPlan, queryPlan]
  repeat' first
    | with_reducible assumption | (with_reducible apply keeps_of_fields; dsimp only; with_reducible apply fields_of_keeps)
    | with_reducible apply keeps_ite

theorem hangGraphPlan_keeps {g : Pledge} (c : Cmd) (s : State) : (hangGraphPlan c s).Keeps g := by
  intro st hst
  unfold hangGraphPlan
  dsimp only [setPlan, queryPlan]
  repeat' with_reducible assumption

theorem State.graphOut_keeps {g : Pledge} (s : State) (f : FuncId) (key off len : Nat) (sample : List WaitEdge) (h : s.Keeps g) :
    (State.graphOut s f key off len sample).Keeps g := by
  unfold State.graphOut
  try dsimp only
  repeat' first
    | with_reducible assumption | with_reducible apply State.freshN_keeps | with_reducible apply State.startWrite_keeps
    | with_reducible apply State.modMbx_keeps | with_reducible apply State.answerLong_keeps | split

theorem gleanArmPlan_keeps {g : Pledge} (size : Option Nat) (c : Cmd) (s : State) : (gleanArmPlan size c s).Keeps g := by
  intro st hst
  unfold gleanArmPlan
  dsimp only [setPlan, queryPlan]
  repeat' first
    | with_reducible assumption | with_reducible apply State.modProg_keeps

theorem gleanQueryPlan_keeps {g : Pledge} (c : Cmd) (s : State) : (gleanQueryPlan c s).Keeps g := by
  intro st hst
  unfold gleanQueryPlan
  dsimp only [setPlan, queryPlan]
  repeat' with_reducible assumption

theorem gleanCancelPlan_keeps {g : Pledge} (c : Cmd) (s : State) : (gleanCancelPlan c s).Keeps g := by
  intro st hst
  unfold gleanCancelPlan
  dsimp only [setPlan, queryPlan]
  repeat' first
    | with_reducible assumption | with_reducible apply State.modProg_keeps | with_reducible apply State.dropWhere_keeps

theorem globalStopPlan_keeps {g : Pledge} (c : Cmd) (s : State) : (globalStopPlan c s).Keeps g := by
  intro st hst
  unfold globalStopPlan
  dsimp only [setPlan, queryPlan]
  repeat' first
    | with_reducible assumption | with_reducible apply State.globalStop_keeps

theorem stopReadPlan_keeps {g : Pledge} (c : Cmd) (s : State) : (stopReadPlan c s).Keeps g := by
  intro st hst
  unfold stopReadPlan
  dsimp only [setPlan, queryPlan]
  repeat' with_reducible assumption

theorem execCntGlobalRead_keeps {g : Pledge} (f : FuncId) (s : State) (h : s.Keeps g) :
    ∀ out, execCntGlobalRead f s = .next out → out.Keeps g := by
  unfold execCntGlobalRead
  try dsimp only
  repeat' first
    | with_reducible assumption | with_reducible apply cntGlobalReadPlan_keeps
    | (show ∀ _ : State, _; with_reducible apply State.perform_keeps)

theorem execTraceConfig_keeps {g : Pledge} (f : FuncId) (s : State) (h : s.Keeps g) :
    ∀ out, execTraceConfig f s = .next out → out.Keeps g := by
  unfold execTraceConfig
  try dsimp only
  repeat' first
    | with_reducible assumption | with_reducible apply traceConfigPlan_keeps
    | (show ∀ _ : State, _; with_reducible apply State.perform_keeps)

theorem execTraceControl_keeps {g : Pledge} (f : FuncId) (s : State) (h : s.Keeps g) :
    ∀ out, execTraceControl f s = .next out → out.Keeps g := by
  unfold execTraceControl
  try dsimp only
  repeat' first
    | with_reducible assumption | with_reducible apply traceControlPlan_keeps
    | (show ∀ _ : State, _; with_reducible apply State.perform_keeps)

theorem execTraceQuery_keeps {g : Pledge} (f : FuncId) (s : State) (h : s.Keeps g) :
    ∀ out, execTraceQuery f s = .next out → out.Keeps g := by
  unfold execTraceQuery
  try dsimp only
  repeat' first
    | with_reducible assumption | with_reducible apply traceQueryPlan_keeps
    | (show ∀ _ : State, _; with_reducible apply State.perform_keeps)

theorem execTraceRead_keeps {g : Pledge} (f : FuncId) (s : State) (h : s.Keeps g) :
    ∀ out, execTraceRead f s = .next out → out.Keeps g := by
  unfold execTraceRead
  try dsimp only
  repeat' first
    | with_reducible assumption | with_reducible apply traceReadPlan_keeps
    | (show ∀ _ : State, _; with_reducible apply State.perform_keeps)

theorem execFaultRead_keeps {g : Pledge} (f : FuncId) (s : State) (h : s.Keeps g) :
    ∀ out, execFaultRead f s = .next out → out.Keeps g := by
  unfold execFaultRead
  try dsimp only
  repeat' first
    | with_reducible assumption | with_reducible apply faultReadPlan_keeps
    | (show ∀ _ : State, _; with_reducible apply State.perform_keeps)

theorem execHangGraph_keeps {g : Pledge} (f : FuncId) (s : State) (h : s.Keeps g) :
    ∀ out, execHangGraph f s = .next out → out.Keeps g := by
  unfold execHangGraph
  try dsimp only
  repeat' first
    | with_reducible assumption | with_reducible apply hangGraphPlan_keeps
    | (show ∀ _ : State, _; with_reducible apply State.perform_keeps)

theorem execGleanArm_keeps {g : Pledge} (f : FuncId) (size : Option Nat) (s : State) (h : s.Keeps g) :
    ∀ out, execGleanArm f size s = .next out → out.Keeps g := by
  unfold execGleanArm
  try dsimp only
  repeat' first
    | with_reducible assumption | with_reducible apply gleanArmPlan_keeps
    | (show ∀ _ : State, _; with_reducible apply State.perform_keeps)

theorem execGleanQuery_keeps {g : Pledge} (f : FuncId) (s : State) (h : s.Keeps g) :
    ∀ out, execGleanQuery f s = .next out → out.Keeps g := by
  unfold execGleanQuery
  try dsimp only
  repeat' first
    | with_reducible assumption | with_reducible apply gleanQueryPlan_keeps
    | (show ∀ _ : State, _; with_reducible apply State.perform_keeps)

theorem execGleanCancel_keeps {g : Pledge} (f : FuncId) (s : State) (h : s.Keeps g) :
    ∀ out, execGleanCancel f s = .next out → out.Keeps g := by
  unfold execGleanCancel
  try dsimp only
  repeat' first
    | with_reducible assumption | with_reducible apply gleanCancelPlan_keeps
    | (show ∀ _ : State, _; with_reducible apply State.perform_keeps)

theorem execGlobalStop_keeps {g : Pledge} (f : FuncId) (s : State) (h : s.Keeps g) :
    ∀ out, execGlobalStop f s = .next out → out.Keeps g := by
  unfold execGlobalStop
  try dsimp only
  repeat' first
    | with_reducible assumption | with_reducible apply globalStopPlan_keeps
    | (show ∀ _ : State, _; with_reducible apply State.perform_keeps)

theorem execStopRead_keeps {g : Pledge} (f : FuncId) (s : State) (h : s.Keeps g) :
    ∀ out, execStopRead f s = .next out → out.Keeps g := by
  unfold execStopRead
  try dsimp only
  repeat' first
    | with_reducible assumption | with_reducible apply stopReadPlan_keeps
    | (show ∀ _ : State, _; with_reducible apply State.perform_keeps)

/-! ### FuncCmds -/

theorem funcQueryPlan_keeps {g : Pledge} (c : Cmd) (s : State) : (funcQueryPlan c s).Keeps g := by
  intro st hst
  unfold funcQueryPlan
  dsimp only [setPlan, queryPlan]
  repeat' with_reducible assumption

theorem funcCreatePlan_keeps {g : Pledge} (c : Cmd) (s : State) : (funcCreatePlan c s).Keeps g := by
  intro st hst
  unfold funcCreatePlan
  dsimp only [setPlan, queryPlan]
  repeat' first
    | with_reducible assumption | with_reducible apply State.modFunc_keeps | with_reducible apply State.clearShares_keeps

theorem funcDestroyPlan_keeps {g : Pledge} (c : Cmd) (s : State) : (funcDestroyPlan c s).Keeps g := by
  intro st hst
  unfold funcDestroyPlan
  dsimp only [setPlan, queryPlan]
  repeat' first
    | with_reducible assumption | with_reducible apply State.destroyFunc_keeps

theorem funcShareSetPlan_keeps {g : Pledge} (c : Cmd) (s : State) : (funcShareSetPlan c s).Keeps g := by
  intro st hst
  unfold funcShareSetPlan
  dsimp only [setPlan, queryPlan]
  repeat' first
    | with_reducible assumption | with_reducible apply State.modFunc_keeps | with_reducible apply State.setShare_keeps
    | with_reducible apply State.shareChanged_keeps | with_reducible apply keeps_ite

theorem funcAttachPlan_keeps {g : Pledge} (c : Cmd) (s : State) : (funcAttachPlan c s).Keeps g := by
  intro st hst
  unfold funcAttachPlan
  dsimp only [setPlan, queryPlan]
  repeat' first
    | with_reducible assumption | with_reducible apply State.attach_keeps

theorem managerTransferPlan_keeps {g : Pledge} (c : Cmd) (s : State) : (managerTransferPlan c s).Keeps g := by
  intro st hst
  unfold managerTransferPlan
  dsimp only [setPlan, queryPlan]
  repeat' first
    | with_reducible assumption | (with_reducible apply keeps_of_fields; dsimp only; with_reducible apply fields_of_keeps)

theorem funcPolicySetPlan_keeps {g : Pledge} (c : Cmd) (s : State) : (funcPolicySetPlan c s).Keeps g := by
  intro st hst
  unfold funcPolicySetPlan
  dsimp only [setPlan, queryPlan]
  repeat' first
    | with_reducible assumption | with_reducible apply State.modFunc_keeps

theorem execFuncQuery_keeps {g : Pledge} (f : FuncId) (s : State) (h : s.Keeps g) :
    ∀ out, execFuncQuery f s = .next out → out.Keeps g := by
  unfold execFuncQuery
  try dsimp only
  repeat' first
    | with_reducible assumption | with_reducible apply funcQueryPlan_keeps
    | (show ∀ _ : State, _; with_reducible apply State.perform_keeps)

theorem execFuncCreate_keeps {g : Pledge} (f : FuncId) (s : State) (h : s.Keeps g) :
    ∀ out, execFuncCreate f s = .next out → out.Keeps g := by
  unfold execFuncCreate
  try dsimp only
  repeat' first
    | with_reducible assumption | with_reducible apply funcCreatePlan_keeps
    | (show ∀ _ : State, _; with_reducible apply State.perform_keeps)

theorem execFuncDestroy_keeps {g : Pledge} (f : FuncId) (s : State) (h : s.Keeps g) :
    ∀ out, execFuncDestroy f s = .next out → out.Keeps g := by
  unfold execFuncDestroy
  try dsimp only
  repeat' first
    | with_reducible assumption | with_reducible apply funcDestroyPlan_keeps
    | (show ∀ _ : State, _; with_reducible apply State.perform_keeps)

theorem execFuncShareSet_keeps {g : Pledge} (f : FuncId) (s : State) (h : s.Keeps g) :
    ∀ out, execFuncShareSet f s = .next out → out.Keeps g := by
  unfold execFuncShareSet
  try dsimp only
  repeat' first
    | with_reducible assumption | with_reducible apply funcShareSetPlan_keeps
    | (show ∀ _ : State, _; with_reducible apply State.perform_keeps)

theorem execFuncAttach_keeps {g : Pledge} (f : FuncId) (s : State) (h : s.Keeps g) :
    ∀ out, execFuncAttach f s = .next out → out.Keeps g := by
  unfold execFuncAttach
  try dsimp only
  repeat' first
    | with_reducible assumption | with_reducible apply funcAttachPlan_keeps
    | (show ∀ _ : State, _; with_reducible apply State.perform_keeps)

theorem execManagerTransfer_keeps {g : Pledge} (f : FuncId) (s : State) (h : s.Keeps g) :
    ∀ out, execManagerTransfer f s = .next out → out.Keeps g := by
  unfold execManagerTransfer
  try dsimp only
  repeat' first
    | with_reducible assumption | with_reducible apply managerTransferPlan_keeps
    | (show ∀ _ : State, _; with_reducible apply State.perform_keeps)

theorem execFuncPolicySet_keeps {g : Pledge} (f : FuncId) (s : State) (h : s.Keeps g) :
    ∀ out, execFuncPolicySet f s = .next out → out.Keeps g := by
  unfold execFuncPolicySet
  try dsimp only
  repeat' first
    | with_reducible assumption | with_reducible apply funcPolicySetPlan_keeps
    | (show ∀ _ : State, _; with_reducible apply State.perform_keeps)

/-! ### SpareCmds -/

theorem spareQueryPlan_keeps {g : Pledge} (c : Cmd) (s : State) : (spareQueryPlan c s).Keeps g := by
  intro st hst
  unfold spareQueryPlan
  dsimp only [setPlan, queryPlan]
  repeat' with_reducible assumption

theorem State.repaired_keeps {g : Pledge} (s : State) (kind u a : Nat) (h : s.Keeps g) : (State.repaired s kind u a).Keeps g := by
  unfold State.repaired
  try dsimp only
  repeat' first
    | with_reducible assumption | with_reducible apply State.drawSpare_keeps | with_reducible apply State.swapDone_keeps
    | with_reducible apply State.beginSwap_keeps | with_reducible apply State.mapOut_keeps
    | with_reducible apply State.repairRow_keeps | with_reducible apply keeps_ite

theorem repairPlan_keeps {g : Pledge} (c : Cmd) (s : State) : (repairPlan c s).Keeps g := by
  intro st hst
  unfold repairPlan
  dsimp only [setPlan, queryPlan]
  repeat' first
    | with_reducible assumption | with_reducible apply State.repaired_keeps | split

theorem State.holdupMeasured_keeps {g : Pledge} (s : State) (mj : Nat) (h : s.Keeps g) : (State.holdupMeasured s mj).Keeps g := by
  unfold State.holdupMeasured
  try dsimp only
  repeat' first
    | with_reducible assumption | with_reducible apply State.postFallow_keeps
    | (with_reducible apply keeps_of_fields; dsimp only; with_reducible apply fields_of_keeps) | with_reducible apply keeps_ite

theorem holdupTestPlan_keeps {g : Pledge} (mj : Nat) (c : Cmd) (s : State) : (holdupTestPlan mj c s).Keeps g := by
  intro st hst
  unfold holdupTestPlan
  dsimp only [setPlan, queryPlan]
  repeat' first
    | with_reducible assumption | with_reducible apply State.holdupMeasured_keeps

theorem execSpareQuery_keeps {g : Pledge} (f : FuncId) (s : State) (h : s.Keeps g) :
    ∀ out, execSpareQuery f s = .next out → out.Keeps g := by
  unfold execSpareQuery
  try dsimp only
  repeat' first
    | with_reducible assumption | with_reducible apply spareQueryPlan_keeps
    | (show ∀ _ : State, _; with_reducible apply State.perform_keeps)

theorem execRepair_keeps {g : Pledge} (f : FuncId) (s : State) (h : s.Keeps g) :
    ∀ out, execRepair f s = .next out → out.Keeps g := by
  unfold execRepair
  try dsimp only
  repeat' first
    | with_reducible assumption | with_reducible apply repairPlan_keeps
    | (show ∀ _ : State, _; with_reducible apply State.perform_keeps)

theorem execHoldupTest_keeps {g : Pledge} (f : FuncId) (mj : Nat) (s : State) (h : s.Keeps g) :
    ∀ out, execHoldupTest f mj s = .next out → out.Keeps g := by
  unfold execHoldupTest
  try dsimp only
  repeat' first
    | with_reducible assumption | with_reducible apply holdupTestPlan_keeps
    | (show ∀ _ : State, _; with_reducible apply State.perform_keeps)

/-! ### RegionCmds -/

theorem createRegion_keeps {g : Pledge} (c : Cmd) (s : State) (h : s.Keeps g) : (createRegion c s).1.Keeps g := by
  unfold createRegion
  try dsimp only
  repeat' first
    | with_reducible assumption | with_reducible apply State.fresh_keeps
    | (with_reducible apply keeps_of_fields; dsimp only; with_reducible apply fields_of_keeps) | split

theorem regionCreatePlan_keeps {g : Pledge} (c : Cmd) (s : State) : (regionCreatePlan c s).Keeps g := by
  intro st hst
  unfold regionCreatePlan
  dsimp only [setPlan, queryPlan]
  repeat' first
    | with_reducible assumption | with_reducible apply createRegion_keeps

theorem waitInval_keeps {g : Pledge} (p : Nat × State) (h : p.2.Keeps g) : (waitInval p).1.Keeps g := by
  unfold waitInval
  try dsimp only
  repeat' with_reducible assumption

theorem regionDestroyPlan_keeps {g : Pledge} (c : Cmd) (s : State) : (regionDestroyPlan c s).Keeps g := by
  intro st hst
  unfold regionDestroyPlan
  dsimp only [setPlan, queryPlan]
  repeat' first
    | with_reducible assumption | with_reducible apply waitInval_keeps | with_reducible apply State.destroyRegion_keeps

theorem regionQueryPlan_keeps {g : Pledge} (c : Cmd) (s : State) : (regionQueryPlan c s).Keeps g := by
  intro st hst
  unfold regionQueryPlan
  dsimp only [setPlan, queryPlan]
  repeat' with_reducible assumption

theorem remapRegion_keeps {g : Pledge} (c : Cmd) (s : State) (h : s.Keeps g) : (remapRegion c s).1.Keeps g := by
  unfold remapRegion
  try dsimp only
  repeat' first
    | with_reducible assumption | with_reducible apply State.rewait_keeps | with_reducible apply State.dropMirrorReads_keeps
    | with_reducible apply waitInval_keeps | with_reducible apply State.startInval_keeps
    | (with_reducible apply keeps_of_fields; dsimp only; with_reducible apply fields_of_keeps)

theorem regionRemapPlan_keeps {g : Pledge} (c : Cmd) (s : State) : (regionRemapPlan c s).Keeps g := by
  intro st hst
  unfold regionRemapPlan
  dsimp only [setPlan, queryPlan]
  repeat' first
    | with_reducible assumption | with_reducible apply remapRegion_keeps

theorem mirrorInvalidatePlan_keeps {g : Pledge} (c : Cmd) (s : State) : (mirrorInvalidatePlan c s).Keeps g := by
  intro st hst
  unfold mirrorInvalidatePlan
  dsimp only [setPlan, queryPlan]
  repeat' first
    | with_reducible assumption | with_reducible apply waitInval_keeps | with_reducible apply State.startInval_keeps
    | with_reducible apply State.dropMirrorReads_keeps

theorem hotConfigPlan_keeps {g : Pledge} (c : Cmd) (s : State) : (hotConfigPlan c s).Keeps g := by
  intro st hst
  unfold hotConfigPlan
  dsimp only [setPlan, queryPlan]
  repeat' first
    | with_reducible assumption | with_reducible apply State.modFunc_keeps

theorem hotReadPlan_keeps {g : Pledge} (c : Cmd) (s : State) : (hotReadPlan c s).Keeps g := by
  intro st hst
  unfold hotReadPlan
  dsimp only [setPlan, queryPlan]
  repeat' first
    | with_reducible assumption | with_reducible apply State.modFunc_keeps

theorem execRegionCreate_keeps {g : Pledge} (f : FuncId) (s : State) (h : s.Keeps g) :
    ∀ out, execRegionCreate f s = .next out → out.Keeps g := by
  unfold execRegionCreate
  try dsimp only
  repeat' first
    | with_reducible assumption | with_reducible apply regionCreatePlan_keeps
    | (show ∀ _ : State, _; with_reducible apply State.perform_keeps)

theorem execRegionDestroy_keeps {g : Pledge} (f : FuncId) (s : State) (h : s.Keeps g) :
    ∀ out, execRegionDestroy f s = .next out → out.Keeps g := by
  unfold execRegionDestroy
  try dsimp only
  repeat' first
    | with_reducible assumption | with_reducible apply regionDestroyPlan_keeps
    | (show ∀ _ : State, _; with_reducible apply State.perform_keeps)

theorem execRegionQuery_keeps {g : Pledge} (f : FuncId) (s : State) (h : s.Keeps g) :
    ∀ out, execRegionQuery f s = .next out → out.Keeps g := by
  unfold execRegionQuery
  try dsimp only
  repeat' first
    | with_reducible assumption | with_reducible apply regionQueryPlan_keeps
    | (show ∀ _ : State, _; with_reducible apply State.perform_keeps)

theorem execRegionRemap_keeps {g : Pledge} (f : FuncId) (s : State) (h : s.Keeps g) :
    ∀ out, execRegionRemap f s = .next out → out.Keeps g := by
  unfold execRegionRemap
  try dsimp only
  repeat' first
    | with_reducible assumption | with_reducible apply regionRemapPlan_keeps
    | (show ∀ _ : State, _; with_reducible apply State.perform_keeps)

theorem execMirrorInvalidate_keeps {g : Pledge} (f : FuncId) (s : State) (h : s.Keeps g) :
    ∀ out, execMirrorInvalidate f s = .next out → out.Keeps g := by
  unfold execMirrorInvalidate
  try dsimp only
  repeat' first
    | with_reducible assumption | with_reducible apply mirrorInvalidatePlan_keeps
    | (show ∀ _ : State, _; with_reducible apply State.perform_keeps)

theorem execHotConfig_keeps {g : Pledge} (f : FuncId) (s : State) (h : s.Keeps g) :
    ∀ out, execHotConfig f s = .next out → out.Keeps g := by
  unfold execHotConfig
  try dsimp only
  repeat' first
    | with_reducible assumption | with_reducible apply hotConfigPlan_keeps
    | (show ∀ _ : State, _; with_reducible apply State.perform_keeps)

theorem execHotRead_keeps {g : Pledge} (f : FuncId) (s : State) (h : s.Keeps g) :
    ∀ out, execHotRead f s = .next out → out.Keeps g := by
  unfold execHotRead
  try dsimp only
  repeat' first
    | with_reducible assumption | with_reducible apply hotReadPlan_keeps
    | (show ∀ _ : State, _; with_reducible apply State.perform_keeps)

end Sys2Proof.Machine
end

