-- ==== Sys2Proof/Laws/KeepsEvents.lean ====
section
/-! SUPPORT. Laws/KeepsEvents.lean: a pledge (Safety.lean) is kept by the meanings of the commands of the table, and the tick: one lemma for each function. -/

namespace Sys2Proof.Machine

/-! ### MailEvents -/

theorem State.trainPort_keeps {g : Pledge} (s : State) (p : LPort) (h : s.Keeps g) : (State.trainPort s p).Keeps g := by
  unfold State.trainPort
  try dsimp only
  repeat' first
    | with_reducible assumption | with_reducible apply State.portComeUp_keeps | with_reducible apply keeps_ite

theorem State.longDone_keeps {g : Pledge} (s : State) (f : FuncId) (job : LongJob) (h : s.Keeps g) :
    (State.longDone s f job).Keeps g := by
  unfold State.longDone
  try dsimp only
  repeat' first
    | with_reducible assumption | with_reducible apply State.answerLong_keeps | with_reducible apply State.teardownDone_keeps
    | with_reducible apply State.ringRestarted_keeps | with_reducible apply State.trainPort_keeps
    | with_reducible apply State.drillLoaded_keeps | with_reducible apply State.freeProg_keeps
    | with_reducible apply State.setLayout_keeps | with_reducible apply State.scrub_keeps
    | with_reducible apply State.poolReturn_keeps | with_reducible apply State.repaired_keeps
    | with_reducible apply State.resetTines_keeps | with_reducible apply State.leaveFallow_keeps
    | with_reducible apply State.wipe_keeps | with_reducible apply State.imageDone_keeps
    | with_reducible apply State.traceOut_keeps | with_reducible apply State.graphOut_keeps
    | (with_reducible apply keeps_of_fields; dsimp only; with_reducible apply fields_of_keeps) | with_reducible apply keeps_ite
    | split

theorem State.abandonJob_keeps {g : Pledge} (s : State) (job : LongJob) (h : s.Keeps g) : (State.abandonJob s job).Keeps g := by
  unfold State.abandonJob
  try dsimp only
  repeat' first
    | with_reducible assumption | with_reducible apply State.freeProg_keeps | with_reducible apply State.modProg_keeps | split

theorem execLongCommandDone_keeps {g : Pledge} (f : FuncId) (s : State) (h : s.Keeps g) :
    ∀ out, execLongCommandDone f s = .next out → out.Keeps g := by
  unfold execLongCommandDone
  try dsimp only
  repeat' first
    | with_reducible assumption | with_reducible apply State.settle_keeps | with_reducible apply State.longDone_keeps
    | with_reducible refine keeps_next ?_ | with_reducible apply keeps_ite | split

theorem execProgressRecord_keeps {g : Pledge} (f : FuncId) (stage : BitVec 16) (doneUnits totalUnits : Word64)
     (remainingMs : Word32) (s : State) (h : s.Keeps g) :
    ∀ out, execProgressRecord f stage doneUnits totalUnits remainingMs s = .next out → out.Keeps g := by
  unfold execProgressRecord
  try dsimp only
  repeat' first
    | with_reducible assumption | with_reducible apply State.post_keeps | with_reducible refine keeps_next ?_
    | with_reducible apply keeps_ite | split

theorem execCommandTimeout_keeps {g : Pledge} (f : FuncId) (s : State) (h : s.Keeps g) :
    ∀ out, execCommandTimeout f s = .next out → out.Keeps g := by
  unfold execCommandTimeout
  try dsimp only
  repeat' first
    | with_reducible assumption | with_reducible apply State.settle_keeps | with_reducible apply State.answerLong_keeps
    | with_reducible apply State.abandonJob_keeps | with_reducible refine keeps_next ?_ | with_reducible apply keeps_ite | split

theorem State.holdArrival_keeps {g : Pledge} (s : State) (c : Instr) (h : s.Keeps g) : (State.holdArrival s c).Keeps g := by
  unfold State.holdArrival
  try dsimp only
  repeat' first
    | with_reducible assumption | (with_reducible apply keeps_of_fields; dsimp only; with_reducible apply fields_of_keeps)

theorem State.regSent_keeps {g : Pledge} (s : State) (f : FuncId) (h : s.Keeps g) : (State.regSent s f).Keeps g := by
  unfold State.regSent
  try dsimp only
  repeat' first
    | with_reducible assumption | with_reducible apply State.fabSend_keeps

theorem State.regReturns_keeps {g : Pledge} (s : State) (f : FuncId) (b : Bytes) (h : s.Keeps g) :
    (State.regReturns s f b).Keeps g := by
  unfold State.regReturns
  try dsimp only
  repeat' first
    | with_reducible assumption | with_reducible apply State.emit_keeps | with_reducible apply State.fabSend_keeps

theorem State.hostAccess_keeps {g : Pledge} (s : State) (f : FuncId) (x : State → State) (h : s.Keeps g)
     (hf : ∀ st, st.Keeps g → (x st).Keeps g) : (State.hostAccess s f x).Keeps g := by
  unfold State.hostAccess
  try dsimp only
  repeat' first
    | with_reducible assumption | with_reducible refine hf _ ?_ | with_reducible apply State.regSent_keeps
    | with_reducible apply keeps_ite

theorem State.barAccess_keeps {g : Pledge} (s : State) (f : FuncId) (c : Instr) (x : State → State) (h : s.Keeps g)
     (hf : ∀ st, st.Keeps g → (x st).Keeps g) : (State.barAccess s f c x).Keeps g := by
  unfold State.barAccess
  try dsimp only
  repeat' first
    | with_reducible assumption | with_reducible refine hf _ ?_ | with_reducible apply State.holdArrival_keeps
    | with_reducible apply keeps_ite

theorem State.regAccess_keeps {g : Pledge} (s : State) (f : FuncId) (c : Instr) (x : State → State) (h : s.Keeps g)
     (hf : ∀ st, st.Keeps g → (x st).Keeps g) : (State.regAccess s f c x).Keeps g := by
  unfold State.regAccess
  try dsimp only
  repeat' first
    | with_reducible assumption | with_reducible refine hf _ ?_ | with_reducible apply State.barAccess_keeps
    | with_reducible apply State.regSent_keeps | (intro st hst; try dsimp only)

theorem State.go_keeps {g : Pledge} (s : State) (f : FuncId) (value : Word32) (h : s.Keeps g) : (State.go s f value).Keeps g := by
  unfold State.go
  try dsimp only
  repeat' first
    | with_reducible assumption | with_reducible apply State.count_keeps | with_reducible apply State.hardwareBusy_keeps
    | with_reducible apply State.modMbx_keeps | with_reducible apply State.fresh_keeps
    | (with_reducible apply keeps_of_fields; dsimp only; with_reducible apply fields_of_keeps) | with_reducible apply keeps_ite

theorem execMbxGo_keeps {g : Pledge} (f : FuncId) (value : Word32) (s : State) (h : s.Keeps g) :
    ∀ out, execMbxGo f value s = .next out → out.Keeps g := by
  unfold execMbxGo
  try dsimp only
  repeat' first
    | with_reducible assumption | with_reducible apply State.hostAccess_keeps | with_reducible apply State.go_keeps
    | with_reducible refine keeps_next ?_ | (intro st hst; try dsimp only)

theorem State.evtCons_keeps {g : Pledge} (s : State) (f : FuncId) (value : Word32) (h : s.Keeps g) :
    (State.evtCons s f value).Keeps g := by
  unfold State.evtCons
  try dsimp only
  repeat' first
    | with_reducible assumption | with_reducible apply State.count_keeps | with_reducible apply State.refillEvents_keeps
    | with_reducible apply State.modMbx_keeps | with_reducible apply keeps_ite

theorem execMbxEvtConsWrite_keeps {g : Pledge} (f : FuncId) (value : Word32) (s : State) (h : s.Keeps g) :
    ∀ out, execMbxEvtConsWrite f value s = .next out → out.Keeps g := by
  unfold execMbxEvtConsWrite
  try dsimp only
  repeat' first
    | with_reducible assumption | with_reducible apply State.hostAccess_keeps | with_reducible apply State.evtCons_keeps
    | with_reducible refine keeps_next ?_ | (intro st hst; try dsimp only)

theorem execMbxEvtLostRead_keeps {g : Pledge} (f : FuncId) (s : State) (h : s.Keeps g) :
    ∀ out, execMbxEvtLostRead f s = .next out → out.Keeps g := by
  unfold execMbxEvtLostRead
  try dsimp only
  repeat' first
    | with_reducible assumption | with_reducible apply State.hostAccess_keeps | with_reducible apply State.regReturns_keeps
    | with_reducible apply State.modMbx_keeps | with_reducible refine keeps_next ?_ | (intro st hst; try dsimp only)

/-! ### RegEvents -/

theorem State.evcClaim_keeps {g : Pledge} (s : State) (f : FuncId) (h : s.Keeps g) : (State.evcClaim s f).Keeps g := by
  unfold State.evcClaim
  try dsimp only
  repeat' first
    | with_reducible assumption | with_reducible apply State.regReturns_keeps | with_reducible apply State.setEvc_keeps | split

theorem State.evcEoi_keeps {g : Pledge} (s : State) (f : FuncId) (value : Word32) (h : s.Keeps g) :
    (State.evcEoi s f value).Keeps g := by
  unfold State.evcEoi
  try dsimp only
  repeat' first
    | with_reducible assumption | with_reducible apply State.setEvc_keeps | with_reducible apply State.count_keeps
    | with_reducible apply keeps_ite

theorem State.evcThreshold_keeps {g : Pledge} (s : State) (f : FuncId) (value : Word32) (h : s.Keeps g) :
    (State.evcThreshold s f value).Keeps g := by
  unfold State.evcThreshold
  try dsimp only
  repeat' first
    | with_reducible assumption | with_reducible apply State.setEvc_keeps

theorem State.evcRaise_keeps {g : Pledge} (s : State) (f : FuncId) (value : Word32) (h : s.Keeps g) :
    (State.evcRaise s f value).Keeps g := by
  unfold State.evcRaise
  try dsimp only
  repeat' first
    | with_reducible assumption | with_reducible apply State.count_keeps | with_reducible apply State.withdraw_keeps
    | with_reducible apply State.signal_keeps | with_reducible apply keeps_ite

theorem State.evcCtrl_keeps {g : Pledge} (s : State) (f : FuncId) (value : Word32) (h : s.Keeps g) :
    (State.evcCtrl s f value).Keeps g := by
  unfold State.evcCtrl
  try dsimp only
  repeat' first
    | with_reducible assumption | with_reducible apply State.modFunc_keeps | with_reducible apply State.sendAllGroups_keeps
    | with_reducible apply keeps_ite

theorem State.evcRoute_keeps {g : Pledge} (s : State) (f : FuncId) (src : Nat) (value : Word32) (h : s.Keeps g) :
    (State.evcRoute s f src value).Keeps g := by
  unfold State.evcRoute
  try dsimp only
  repeat' first
    | with_reducible assumption | with_reducible apply State.count_keeps | with_reducible apply State.setEvc_keeps
    | with_reducible apply keeps_ite

theorem State.unmasked_keeps {g : Pledge} (s : State) (f : FuncId) (v : Nat) (h : s.Keeps g) :
    (State.unmasked s f v).Keeps g := by
  unfold State.unmasked
  try dsimp only
  repeat' first
    | with_reducible assumption | with_reducible apply State.modFunc_keeps | with_reducible apply State.sendVector_keeps
    | with_reducible apply keeps_ite

theorem State.modEntry_keeps {g : Pledge} (s : State) (f : FuncId) (v : Nat) (x : MsixEntry → MsixEntry) (h : s.Keeps g) :
    (State.modEntry s f v x).Keeps g := by
  unfold State.modEntry
  try dsimp only
  repeat' first
    | with_reducible assumption | with_reducible apply State.modFunc_keeps

theorem State.unmaskVector_keeps {g : Pledge} (s : State) (f : FuncId) (v : Nat) (h : s.Keeps g) :
    (State.unmaskVector s f v).Keeps g := by
  unfold State.unmaskVector
  try dsimp only
  repeat' first
    | with_reducible assumption | with_reducible apply State.unmasked_keeps | with_reducible apply State.modEntry_keeps
    | with_reducible apply keeps_ite

theorem State.unmaskFunction_keeps {g : Pledge} (s : State) (f : FuncId) (h : s.Keeps g) :
    (State.unmaskFunction s f).Keeps g := by
  unfold State.unmaskFunction
  try dsimp only
  repeat' first
    | with_reducible assumption | with_reducible apply State.modFunc_keeps | with_reducible apply forEach_keeps
    | with_reducible apply State.unmasked_keeps | (intro st x hst; try dsimp only)

theorem State.enableMsix_keeps {g : Pledge} (s : State) (f : FuncId) (h : s.Keeps g) : (State.enableMsix s f).Keeps g := by
  unfold State.enableMsix
  try dsimp only
  repeat' first
    | with_reducible assumption | with_reducible apply State.sendAllGroups_keeps | with_reducible apply State.modFunc_keeps
    | with_reducible apply keeps_ite

theorem State.winSet_keeps {g : Pledge} (s : State) (f : FuncId) (reg : WinReg) (value : Word32) (h : s.Keeps g) :
    (State.winSet s f reg value).Keeps g := by
  unfold State.winSet
  try dsimp only
  repeat' first
    | with_reducible assumption | with_reducible apply State.modFunc_keeps | split

theorem State.cntSnap_keeps {g : Pledge} (s : State) (f : FuncId) (value : Word32) (h : s.Keeps g) :
    (State.cntSnap s f value).Keeps g := by
  unfold State.cntSnap
  try dsimp only
  repeat' first
    | with_reducible assumption | with_reducible apply State.modFunc_keeps | with_reducible apply keeps_ite

theorem State.mailWrite_keeps {g : Pledge} (s : State) (f : FuncId) (off : Nat) (data : Bytes) (h : s.Keeps g) :
    (State.mailWrite s f off data).Keeps g := by
  unfold State.mailWrite
  try dsimp only
  repeat' first
    | with_reducible assumption | with_reducible apply State.modMbx_keeps | with_reducible apply State.fresh_keeps

theorem State.reservedWrite_keeps {g : Pledge} (s : State) (f : FuncId) (h : s.Keeps g) : (State.reservedWrite s f).Keeps g := by
  unfold State.reservedWrite
  try dsimp only
  repeat' first
    | with_reducible assumption | with_reducible apply State.count_keeps

theorem State.regWrite0_keeps {g : Pledge} (s : State) (f : FuncId) (off : Nat) (v : Word32) (h : s.Keeps g) :
    (State.regWrite0 s f off v).Keeps g := by
  unfold State.regWrite0
  try dsimp only
  repeat' first
    | with_reducible assumption | with_reducible apply State.modLink_keeps | with_reducible apply State.reservedWrite_keeps
    | with_reducible apply State.go_keeps | with_reducible apply State.evtCons_keeps | with_reducible apply State.modMbx_keeps
    | with_reducible apply State.winSet_keeps | with_reducible apply State.modFunc_keeps
    | with_reducible apply State.evcEoi_keeps | with_reducible apply State.evcThreshold_keeps
    | with_reducible apply State.evcRaise_keeps | with_reducible apply State.evcCtrl_keeps
    | with_reducible apply State.evcRoute_keeps | with_reducible apply State.cntSnap_keeps
    | with_reducible apply State.count_keeps | with_reducible apply keeps_ite

theorem State.regWrite4_keeps {g : Pledge} (s : State) (f : FuncId) (off : Nat) (v : Word32) (h : s.Keeps g) :
    (State.regWrite4 s f off v).Keeps g := by
  unfold State.regWrite4
  try dsimp only
  repeat' first
    | with_reducible assumption | with_reducible apply State.modEntry_keeps | with_reducible apply State.unmaskVector_keeps
    | with_reducible apply State.reservedWrite_keeps | with_reducible apply keeps_ite | split

theorem State.regWrite_keeps {g : Pledge} (s : State) (f : FuncId) (bar : Bar) (off size : Nat) (value : Word64) (h : s.Keeps g) :
    (State.regWrite s f bar off size value).Keeps g := by
  unfold State.regWrite
  try dsimp only
  repeat' first
    | with_reducible assumption | with_reducible apply State.count_keeps | with_reducible apply State.mailWrite_keeps
    | with_reducible apply State.regWrite0_keeps | with_reducible apply State.regWrite4_keeps | with_reducible apply keeps_ite
    | split

theorem State.badAccessed_keeps {g : Pledge} (s : State) (f : FuncId) (bar : Bar) (write : Bool) (off size : Nat)
     (h : s.Keeps g) : (State.badAccessed s f bar write off size).Keeps g := by
  unfold State.badAccessed
  try dsimp only
  repeat' first
    | with_reducible assumption | with_reducible apply State.count_keeps | with_reducible apply State.regReturns_keeps
    | with_reducible apply keeps_ite

theorem execRegWrite_keeps {g : Pledge} (f : FuncId) (bar : Bar) (off size : Nat) (value : Word64) (s : State) (h : s.Keeps g) :
    ∀ out, execRegWrite f bar off size value s = .next out → out.Keeps g := by
  unfold execRegWrite
  try dsimp only
  repeat' first
    | with_reducible assumption | with_reducible apply State.hostAccess_keeps | with_reducible apply State.regWrite_keeps
    | with_reducible apply State.regAccess_keeps | with_reducible refine keeps_next ?_ | with_reducible apply keeps_ite
    | (intro st hst; try dsimp only)

theorem execBadRegAccess_keeps {g : Pledge} (f : FuncId) (bar : Bar) (write : Bool) (off size : Nat) (s : State) (h : s.Keeps g) :
    ∀ out, execBadRegAccess f bar write off size s = .next out → out.Keeps g := by
  unfold execBadRegAccess
  try dsimp only
  repeat' first
    | with_reducible assumption | with_reducible apply State.hostAccess_keeps | with_reducible apply State.badAccessed_keeps
    | with_reducible apply State.regAccess_keeps | with_reducible refine keeps_next ?_ | with_reducible apply keeps_ite
    | (intro st hst; try dsimp only)

theorem execIdTimeLoRead_keeps {g : Pledge} (f : FuncId) (s : State) (h : s.Keeps g) :
    ∀ out, execIdTimeLoRead f s = .next out → out.Keeps g := by
  unfold execIdTimeLoRead
  try dsimp only
  repeat' first
    | with_reducible assumption | with_reducible apply State.hostAccess_keeps | with_reducible apply State.regReturns_keeps
    | with_reducible apply State.modFunc_keeps | with_reducible refine keeps_next ?_ | (intro st hst; try dsimp only)

theorem execWinSet_keeps {g : Pledge} (f : FuncId) (reg : WinReg) (value : Word32) (s : State) (h : s.Keeps g) :
    ∀ out, execWinSet f reg value s = .next out → out.Keeps g := by
  unfold execWinSet
  try dsimp only
  repeat' first
    | with_reducible assumption | with_reducible apply State.regAccess_keeps | with_reducible apply State.winSet_keeps
    | with_reducible refine keeps_next ?_ | (intro st hst; try dsimp only)

theorem State.winFault_keeps {g : Pledge} (s : State) (f : FuncId) (h : s.Keeps g) : (State.winFault s f).Keeps g := by
  unfold State.winFault
  try dsimp only
  repeat' first
    | with_reducible assumption | with_reducible apply State.signal_keeps | with_reducible apply State.count_keeps
    | with_reducible apply State.modFunc_keeps

theorem State.winAsks_keeps {g : Pledge} (s : State) (f : FuncId) (a len : Nat) (h : s.Keeps g) :
    (State.winAsks s f a len).Keeps g := by
  unfold State.winAsks
  try dsimp only
  repeat' first
    | with_reducible assumption | with_reducible apply State.fabSend_keeps

theorem State.winSends_keeps {g : Pledge} (s : State) (f : FuncId) (a len : Nat) (h : s.Keeps g) :
    (State.winSends s f a len).Keeps g := by
  unfold State.winSends
  try dsimp only
  repeat' first
    | with_reducible assumption | with_reducible apply State.fabSend_keeps

theorem State.bar2Read_keeps {g : Pledge} (s : State) (f : FuncId) (off len : Nat) (obs : List BlockObs) (h : s.Keeps g) :
    (State.bar2Read s f off len obs).Keeps g := by
  unfold State.bar2Read
  try dsimp only
  repeat' first
    | with_reducible assumption | with_reducible apply State.emit_keeps | with_reducible apply State.winFault_keeps
    | with_reducible apply State.memRead_keeps | with_reducible apply State.winAsks_keeps | with_reducible apply keeps_ite

theorem State.bar2Write_keeps {g : Pledge} (s : State) (f : FuncId) (off : Nat) (data : Bytes) (obs : List BlockObs)
     (h : s.Keeps g) : (State.bar2Write s f off data obs).Keeps g := by
  unfold State.bar2Write
  try dsimp only
  repeat' first
    | with_reducible assumption | with_reducible apply State.winFault_keeps | with_reducible apply State.memWrite_keeps
    | with_reducible apply State.winSends_keeps | with_reducible apply keeps_ite

theorem execBar2Read_keeps {g : Pledge} (f : FuncId) (off len : Nat) (obs : List BlockObs) (s : State) (h : s.Keeps g) :
    ∀ out, execBar2Read f off len obs s = .next out → out.Keeps g := by
  unfold execBar2Read
  try dsimp only
  repeat' first
    | with_reducible assumption | with_reducible apply State.barAccess_keeps | with_reducible apply State.bar2Read_keeps
    | with_reducible refine keeps_next ?_ | (intro st hst; try dsimp only)

theorem execBar2Write_keeps {g : Pledge} (f : FuncId) (off : Nat) (data : Bytes) (obs : List BlockObs) (s : State)
     (h : s.Keeps g) : ∀ out, execBar2Write f off data obs s = .next out → out.Keeps g := by
  unfold execBar2Write
  try dsimp only
  repeat' first
    | with_reducible assumption | with_reducible apply State.barAccess_keeps | with_reducible apply State.bar2Write_keeps
    | with_reducible refine keeps_next ?_ | (intro st hst; try dsimp only)

theorem execEvcClaimRead_keeps {g : Pledge} (f : FuncId) (s : State) (h : s.Keeps g) :
    ∀ out, execEvcClaimRead f s = .next out → out.Keeps g := by
  unfold execEvcClaimRead
  try dsimp only
  repeat' first
    | with_reducible assumption | with_reducible apply State.regAccess_keeps | with_reducible apply State.evcClaim_keeps
    | with_reducible refine keeps_next ?_ | (intro st hst; try dsimp only)

theorem execEvcEoiWrite_keeps {g : Pledge} (f : FuncId) (value : Word32) (s : State) (h : s.Keeps g) :
    ∀ out, execEvcEoiWrite f value s = .next out → out.Keeps g := by
  unfold execEvcEoiWrite
  try dsimp only
  repeat' first
    | with_reducible assumption | with_reducible apply State.regAccess_keeps | with_reducible apply State.evcEoi_keeps
    | with_reducible refine keeps_next ?_ | (intro st hst; try dsimp only)

theorem execEvcThresholdWrite_keeps {g : Pledge} (f : FuncId) (value : Word32) (s : State) (h : s.Keeps g) :
    ∀ out, execEvcThresholdWrite f value s = .next out → out.Keeps g := by
  unfold execEvcThresholdWrite
  try dsimp only
  repeat' first
    | with_reducible assumption | with_reducible apply State.regAccess_keeps | with_reducible apply State.evcThreshold_keeps
    | with_reducible refine keeps_next ?_ | (intro st hst; try dsimp only)

theorem execEvcRaiseSignal_keeps {g : Pledge} (f : FuncId) (value : Word32) (s : State) (h : s.Keeps g) :
    ∀ out, execEvcRaiseSignal f value s = .next out → out.Keeps g := by
  unfold execEvcRaiseSignal
  try dsimp only
  repeat' first
    | with_reducible assumption | with_reducible apply State.regAccess_keeps | with_reducible apply State.evcRaise_keeps
    | with_reducible refine keeps_next ?_ | with_reducible apply keeps_ite | (intro st hst; try dsimp only)

theorem execEvcRaiseWithdraw_keeps {g : Pledge} (f : FuncId) (value : Word32) (s : State) (h : s.Keeps g) :
    ∀ out, execEvcRaiseWithdraw f value s = .next out → out.Keeps g := by
  unfold execEvcRaiseWithdraw
  try dsimp only
  repeat' first
    | with_reducible assumption | with_reducible apply State.regAccess_keeps | with_reducible apply State.evcRaise_keeps
    | with_reducible refine keeps_next ?_ | with_reducible apply keeps_ite | (intro st hst; try dsimp only)

theorem execEvcCtrlWrite_keeps {g : Pledge} (f : FuncId) (value : Word32) (s : State) (h : s.Keeps g) :
    ∀ out, execEvcCtrlWrite f value s = .next out → out.Keeps g := by
  unfold execEvcCtrlWrite
  try dsimp only
  repeat' first
    | with_reducible assumption | with_reducible apply State.regAccess_keeps | with_reducible apply State.evcCtrl_keeps
    | with_reducible refine keeps_next ?_ | (intro st hst; try dsimp only)

theorem execEvcRouteWrite_keeps {g : Pledge} (f : FuncId) (source : Nat) (value : Word32) (s : State) (h : s.Keeps g) :
    ∀ out, execEvcRouteWrite f source value s = .next out → out.Keeps g := by
  unfold execEvcRouteWrite
  try dsimp only
  repeat' first
    | with_reducible assumption | with_reducible apply State.regAccess_keeps | with_reducible apply State.evcRoute_keeps
    | with_reducible refine keeps_next ?_ | (intro st hst; try dsimp only)

theorem execEvcSourceSignal_keeps {g : Pledge} (f : FuncId) (source : Nat) (s : State) (h : s.Keeps g) :
    ∀ out, execEvcSourceSignal f source s = .next out → out.Keeps g := by
  unfold execEvcSourceSignal
  try dsimp only
  repeat' first
    | with_reducible assumption | with_reducible apply State.signal_keeps | with_reducible refine keeps_next ?_

theorem execEvcSourceWithdraw_keeps {g : Pledge} (f : FuncId) (source : Nat) (s : State) (h : s.Keeps g) :
    ∀ out, execEvcSourceWithdraw f source s = .next out → out.Keeps g := by
  unfold execEvcSourceWithdraw
  try dsimp only
  repeat' first
    | with_reducible assumption | with_reducible apply State.withdraw_keeps | with_reducible refine keeps_next ?_

theorem execMsixVectorUnmask_keeps {g : Pledge} (f : FuncId) (vector : Nat) (s : State) (h : s.Keeps g) :
    ∀ out, execMsixVectorUnmask f vector s = .next out → out.Keeps g := by
  unfold execMsixVectorUnmask
  try dsimp only
  repeat' first
    | with_reducible assumption | with_reducible apply State.regAccess_keeps | with_reducible apply State.unmaskVector_keeps
    | with_reducible refine keeps_next ?_ | (intro st hst; try dsimp only)

theorem execMsixFunctionUnmask_keeps {g : Pledge} (f : FuncId) (s : State) (h : s.Keeps g) :
    ∀ out, execMsixFunctionUnmask f s = .next out → out.Keeps g := by
  unfold execMsixFunctionUnmask
  try dsimp only
  repeat' first
    | with_reducible assumption | with_reducible apply State.hostAccess_keeps | with_reducible apply State.unmaskFunction_keeps
    | with_reducible refine keeps_next ?_ | (intro st hst; try dsimp only)

theorem execMsixEnableSet_keeps {g : Pledge} (f : FuncId) (s : State) (h : s.Keeps g) :
    ∀ out, execMsixEnableSet f s = .next out → out.Keeps g := by
  unfold execMsixEnableSet
  try dsimp only
  repeat' first
    | with_reducible assumption | with_reducible apply State.hostAccess_keeps | with_reducible apply State.enableMsix_keeps
    | with_reducible refine keeps_next ?_ | (intro st hst; try dsimp only)

theorem execMsixFunctionMaskSet_keeps {g : Pledge} (f : FuncId) (s : State) (h : s.Keeps g) :
    ∀ out, execMsixFunctionMaskSet f s = .next out → out.Keeps g := by
  unfold execMsixFunctionMaskSet
  try dsimp only
  repeat' first
    | with_reducible assumption | with_reducible apply State.hostAccess_keeps | with_reducible apply State.modFunc_keeps
    | with_reducible refine keeps_next ?_ | (intro st hst; try dsimp only)

theorem execMsixEnableClear_keeps {g : Pledge} (f : FuncId) (s : State) (h : s.Keeps g) :
    ∀ out, execMsixEnableClear f s = .next out → out.Keeps g := by
  unfold execMsixEnableClear
  try dsimp only
  repeat' first
    | with_reducible assumption | with_reducible apply State.hostAccess_keeps | with_reducible apply State.modFunc_keeps
    | with_reducible refine keeps_next ?_ | (intro st hst; try dsimp only)

theorem execCntSnap_keeps {g : Pledge} (f : FuncId) (value : Word32) (s : State) (h : s.Keeps g) :
    ∀ out, execCntSnap f value s = .next out → out.Keeps g := by
  unfold execCntSnap
  try dsimp only
  repeat' first
    | with_reducible assumption | with_reducible apply State.regAccess_keeps | with_reducible apply State.cntSnap_keeps
    | with_reducible refine keeps_next ?_ | (intro st hst; try dsimp only)

theorem execCntSnapDone_keeps {g : Pledge} (f : FuncId) (s : State) (h : s.Keeps g) :
    ∀ out, execCntSnapDone f s = .next out → out.Keeps g := by
  unfold execCntSnapDone
  try dsimp only
  repeat' first
    | with_reducible assumption | with_reducible apply State.modFunc_keeps | with_reducible refine keeps_next ?_

/-! ### Doorbells -/

theorem State.dblDiscard_keeps {g : Pledge} (s : State) (f : FuncId) (h : s.Keeps g) : (State.dblDiscard s f).Keeps g := by
  unfold State.dblDiscard
  try dsimp only
  repeat' first
    | with_reducible assumption | with_reducible apply State.count_keeps

theorem State.dblSent_keeps {g : Pledge} (s : State) (f : FuncId) (u : FabUnit) (h : s.Keeps g) :
    (State.dblSent s f u).Keeps g := by
  unfold State.dblSent
  try dsimp only
  repeat' first
    | with_reducible assumption | with_reducible apply State.fabSend_keeps

theorem State.dblWork_keeps {g : Pledge} (s : State) (f : FuncId) (r : Nat) (value : Word64) (whole : Bool) (h : s.Keeps g) :
    (State.dblWork s f r value whole).Keeps g := by
  unfold State.dblWork
  try dsimp only
  repeat' first
    | with_reducible assumption | with_reducible apply State.dblDiscard_keeps | with_reducible apply State.modRing_keeps
    | with_reducible apply State.dblSent_keeps | with_reducible apply State.refreshSet_keeps | with_reducible apply keeps_ite
    | split

theorem State.cqReleased_keeps {g : Pledge} (s : State) (f : FuncId) (c since : Nat) (h : s.Keeps g) :
    (State.cqReleased s f c since).Keeps g := by
  unfold State.cqReleased
  try dsimp only
  repeat' first
    | with_reducible assumption | with_reducible apply forEach_keeps | with_reducible apply State.traceRecord_keeps | split
    | (intro st x hst; try dsimp only)

theorem State.cqResume_keeps {g : Pledge} (s : State) (f : FuncId) (c : Nat) (h : s.Keeps g) :
    (State.cqResume s f c).Keeps g := by
  unfold State.cqResume
  try dsimp only
  repeat' first
    | with_reducible assumption | with_reducible apply State.refreshSet_keeps | with_reducible apply forEach_keeps
    | with_reducible apply State.grantCredit_keeps | with_reducible apply State.sendAck_keeps | with_reducible apply keeps_ite
    | split | (intro st x hst; try dsimp only)

theorem State.cqRetry_keeps {g : Pledge} (s : State) (f : FuncId) (c : Nat) (obs : List BlockObs) (h : s.Keeps g) :
    (State.cqRetry s f c obs).Keeps g := by
  unfold State.cqRetry
  try dsimp only
  repeat' first
    | with_reducible assumption | with_reducible apply State.writeCqe_keeps | with_reducible apply State.modCq_keeps
    | with_reducible apply State.writeTs_keeps | with_reducible apply State.modPhys_keeps | with_reducible apply keeps_ite
    | split

theorem State.cqConsume_keeps {g : Pledge} (s : State) (f : FuncId) (c l : Nat) (obs : List BlockObs) (h : s.Keeps g) :
    (State.cqConsume s f c l obs).Keeps g := by
  unfold State.cqConsume
  try dsimp only
  repeat' first
    | with_reducible assumption | with_reducible apply State.noteCq_keeps | with_reducible apply State.modCq_keeps
    | with_reducible apply State.cqReleased_keeps | with_reducible apply State.cqRetry_keeps
    | with_reducible apply State.drainCq_keeps | with_reducible apply forEach_keeps | with_reducible apply State.tsPump_keeps
    | with_reducible apply State.cqResume_keeps | with_reducible apply keeps_ite | split

theorem State.armCq_keeps {g : Pledge} (s : State) (f : FuncId) (c : Nat) (h : s.Keeps g) : (State.armCq s f c).Keeps g := by
  unfold State.armCq
  try dsimp only
  repeat' first
    | with_reducible assumption | with_reducible apply State.signalBound_keeps | with_reducible apply State.modCq_keeps
    | with_reducible apply keeps_ite | split

theorem State.dblCq_keeps {g : Pledge} (s : State) (f : FuncId) (c : Nat) (value : Word64) (whole : Bool) (obs : List BlockObs)
     (h : s.Keeps g) : (State.dblCq s f c value whole obs).Keeps g := by
  unfold State.dblCq
  try dsimp only
  repeat' first
    | with_reducible assumption | with_reducible apply State.dblDiscard_keeps | with_reducible apply State.cqConsume_keeps
    | with_reducible apply State.dblSent_keeps | with_reducible apply State.armCq_keeps | with_reducible apply keeps_ite

theorem State.dblArm_keeps {g : Pledge} (s : State) (f : FuncId) (c : Nat) (value : Word64) (whole : Bool) (h : s.Keeps g) :
    (State.dblArm s f c value whole).Keeps g := by
  unfold State.dblArm
  try dsimp only
  repeat' first
    | with_reducible assumption | with_reducible apply State.dblDiscard_keeps | with_reducible apply State.armCq_keeps
    | with_reducible apply State.cqConsume_keeps | with_reducible apply State.dblSent_keeps | with_reducible apply keeps_ite

theorem execDblWork_keeps {g : Pledge} (f : FuncId) (ring : Nat) (value : Word64) (whole : Bool) (s : State) (h : s.Keeps g) :
    ∀ out, execDblWork f ring value whole s = .next out → out.Keeps g := by
  unfold execDblWork
  try dsimp only
  repeat' first
    | with_reducible assumption | with_reducible apply State.barAccess_keeps | with_reducible apply State.dblWork_keeps
    | with_reducible refine keeps_next ?_ | (intro st hst; try dsimp only)

theorem execDblCq_keeps {g : Pledge} (f : FuncId) (cq : Nat) (value : Word64) (whole : Bool) (obs : List BlockObs) (s : State)
     (h : s.Keeps g) : ∀ out, execDblCq f cq value whole obs s = .next out → out.Keeps g := by
  unfold execDblCq
  try dsimp only
  repeat' first
    | with_reducible assumption | with_reducible apply State.barAccess_keeps | with_reducible apply State.settle_keeps
    | with_reducible apply State.dblCq_keeps | with_reducible refine keeps_next ?_ | (intro st hst; try dsimp only)

theorem execDblCqArm_keeps {g : Pledge} (f : FuncId) (cq : Nat) (value : Word64) (whole : Bool) (s : State) (h : s.Keeps g) :
    ∀ out, execDblCqArm f cq value whole s = .next out → out.Keeps g := by
  unfold execDblCqArm
  try dsimp only
  repeat' first
    | with_reducible assumption | with_reducible apply State.barAccess_keeps | with_reducible apply State.settle_keeps
    | with_reducible apply State.dblArm_keeps | with_reducible refine keeps_next ?_ | with_reducible apply keeps_ite
    | (intro st hst; try dsimp only)

/-! ### WorkReqs -/

theorem execCopy_keeps {g : Pledge} (f : FuncId) (ring : Nat) (s : State) (h : s.Keeps g) :
    ∀ out, execCopy f ring s = .next out → out.Keeps g := by
  unfold execCopy
  try dsimp only
  repeat' first
    | with_reducible assumption | with_reducible apply State.settle_keeps | with_reducible apply State.startRow_keeps
    | with_reducible refine keeps_next ?_

theorem execWrite_keeps {g : Pledge} (f : FuncId) (ring : Nat) (s : State) (h : s.Keeps g) :
    ∀ out, execWrite f ring s = .next out → out.Keeps g := by
  unfold execWrite
  try dsimp only
  repeat' first
    | with_reducible assumption | with_reducible apply State.settle_keeps | with_reducible apply State.startRow_keeps
    | with_reducible refine keeps_next ?_

theorem execRead_keeps {g : Pledge} (f : FuncId) (ring : Nat) (s : State) (h : s.Keeps g) :
    ∀ out, execRead f ring s = .next out → out.Keeps g := by
  unfold execRead
  try dsimp only
  repeat' first
    | with_reducible assumption | with_reducible apply State.settle_keeps | with_reducible apply State.startRow_keeps
    | with_reducible refine keeps_next ?_

theorem execSend_keeps {g : Pledge} (f : FuncId) (ring : Nat) (s : State) (h : s.Keeps g) :
    ∀ out, execSend f ring s = .next out → out.Keeps g := by
  unfold execSend
  try dsimp only
  repeat' first
    | with_reducible assumption | with_reducible apply State.settle_keeps | with_reducible apply State.startRow_keeps
    | with_reducible refine keeps_next ?_

theorem execRecv_keeps {g : Pledge} (f : FuncId) (ring : Nat) (s : State) (h : s.Keeps g) :
    ∀ out, execRecv f ring s = .next out → out.Keeps g := by
  unfold execRecv
  try dsimp only
  repeat' first
    | with_reducible assumption | with_reducible apply State.settle_keeps | with_reducible apply State.startRow_keeps
    | with_reducible refine keeps_next ?_

theorem execFetchAdd_keeps {g : Pledge} (f : FuncId) (ring : Nat) (s : State) (h : s.Keeps g) :
    ∀ out, execFetchAdd f ring s = .next out → out.Keeps g := by
  unfold execFetchAdd
  try dsimp only
  repeat' first
    | with_reducible assumption | with_reducible apply State.settle_keeps | with_reducible apply State.startRow_keeps
    | with_reducible refine keeps_next ?_

theorem execCmpSwap_keeps {g : Pledge} (f : FuncId) (ring : Nat) (s : State) (h : s.Keeps g) :
    ∀ out, execCmpSwap f ring s = .next out → out.Keeps g := by
  unfold execCmpSwap
  try dsimp only
  repeat' first
    | with_reducible assumption | with_reducible apply State.settle_keeps | with_reducible apply State.startRow_keeps
    | with_reducible refine keeps_next ?_

theorem execSwap_keeps {g : Pledge} (f : FuncId) (ring : Nat) (s : State) (h : s.Keeps g) :
    ∀ out, execSwap f ring s = .next out → out.Keeps g := by
  unfold execSwap
  try dsimp only
  repeat' first
    | with_reducible assumption | with_reducible apply State.settle_keeps | with_reducible apply State.startRow_keeps
    | with_reducible refine keeps_next ?_

theorem execRawSend_keeps {g : Pledge} (f : FuncId) (ring : Nat) (s : State) (h : s.Keeps g) :
    ∀ out, execRawSend f ring s = .next out → out.Keeps g := by
  unfold execRawSend
  try dsimp only
  repeat' first
    | with_reducible assumption | with_reducible apply State.settle_keeps | with_reducible apply State.startRow_keeps
    | with_reducible refine keeps_next ?_

theorem execAllreduce_keeps {g : Pledge} (f : FuncId) (ring : Nat) (s : State) (h : s.Keeps g) :
    ∀ out, execAllreduce f ring s = .next out → out.Keeps g := by
  unfold execAllreduce
  try dsimp only
  repeat' first
    | with_reducible assumption | with_reducible apply State.settle_keeps | with_reducible apply State.startRow_keeps
    | with_reducible refine keeps_next ?_

theorem execReduce_keeps {g : Pledge} (f : FuncId) (ring : Nat) (s : State) (h : s.Keeps g) :
    ∀ out, execReduce f ring s = .next out → out.Keeps g := by
  unfold execReduce
  try dsimp only
  repeat' first
    | with_reducible assumption | with_reducible apply State.settle_keeps | with_reducible apply State.startRow_keeps
    | with_reducible refine keeps_next ?_

theorem execBroadcast_keeps {g : Pledge} (f : FuncId) (ring : Nat) (s : State) (h : s.Keeps g) :
    ∀ out, execBroadcast f ring s = .next out → out.Keeps g := by
  unfold execBroadcast
  try dsimp only
  repeat' first
    | with_reducible assumption | with_reducible apply State.settle_keeps | with_reducible apply State.startRow_keeps
    | with_reducible refine keeps_next ?_

theorem execReduceScatter_keeps {g : Pledge} (f : FuncId) (ring : Nat) (s : State) (h : s.Keeps g) :
    ∀ out, execReduceScatter f ring s = .next out → out.Keeps g := by
  unfold execReduceScatter
  try dsimp only
  repeat' first
    | with_reducible assumption | with_reducible apply State.settle_keeps | with_reducible apply State.startRow_keeps
    | with_reducible refine keeps_next ?_

theorem execAllgather_keeps {g : Pledge} (f : FuncId) (ring : Nat) (s : State) (h : s.Keeps g) :
    ∀ out, execAllgather f ring s = .next out → out.Keeps g := by
  unfold execAllgather
  try dsimp only
  repeat' first
    | with_reducible assumption | with_reducible apply State.settle_keeps | with_reducible apply State.startRow_keeps
    | with_reducible refine keeps_next ?_

theorem execTriggeredStart_keeps {g : Pledge} (f : FuncId) (ring : Nat) (s : State) (h : s.Keeps g) :
    ∀ out, execTriggeredStart f ring s = .next out → out.Keeps g := by
  unfold execTriggeredStart
  try dsimp only
  repeat' first
    | with_reducible assumption | with_reducible apply State.settle_keeps | with_reducible apply State.startRow_keeps
    | with_reducible refine keeps_next ?_

theorem execEntryReadDone_keeps {g : Pledge} (f : FuncId) (ring : Nat) (got : EntryCopy) (lastReread : Bool) (s : State)
    (h : s.Keeps g) : ∀ out, execEntryReadDone f ring got lastReread s = .next out → out.Keeps g := by
  unfold execEntryReadDone
  try dsimp only
  repeat' first
    | with_reducible assumption | with_reducible apply State.holdArrival_keeps | with_reducible apply State.settle_keeps
    | with_reducible apply State.entryRead_keeps | with_reducible refine keeps_next ?_ | with_reducible apply keeps_ite

theorem execEntryReadFault_keeps {g : Pledge} (f : FuncId) (ring : Nat) (cause : EntryFault) (s : State) (h : s.Keeps g) :
    ∀ out, execEntryReadFault f ring cause s = .next out → out.Keeps g := by
  unfold execEntryReadFault
  try dsimp only
  repeat' first
    | with_reducible assumption | with_reducible apply State.holdArrival_keeps | with_reducible apply State.settle_keeps
    | with_reducible apply State.entryFault_keeps | with_reducible refine keeps_next ?_ | with_reducible apply keeps_ite

/-! ### DmaEvents -/

theorem State.engine_keeps {g : Pledge} (s : State) (x : State → State) (h : s.Keeps g) (hf : ∀ st, st.Keeps g → (x st).Keeps g) :
    ∀ out, State.engine s x = .next out → out.Keeps g := by
  unfold State.engine
  try dsimp only
  repeat' first
    | with_reducible assumption | with_reducible refine hf _ ?_ | with_reducible apply State.settle_keeps
    | with_reducible refine keeps_next ?_ | with_reducible apply keeps_ite

theorem State.arrival_keeps {g : Pledge} (s : State) (c : Instr) (x : State → State) (h : s.Keeps g)
     (hf : ∀ st, st.Keeps g → (x st).Keeps g) : ∀ out, State.arrival s c x = .next out → out.Keeps g := by
  unfold State.arrival
  try dsimp only
  repeat' first
    | with_reducible assumption | with_reducible refine hf _ ?_ | with_reducible apply State.holdArrival_keeps
    | with_reducible apply State.settle_keeps | with_reducible refine keeps_next ?_ | with_reducible apply keeps_ite

theorem State.configWrite_keeps {g : Pledge} (s : State) (l : LinkId) (h : s.Keeps g) : (State.configWrite s l).Keeps g := by
  unfold State.configWrite
  try dsimp only
  repeat' first
    | with_reducible assumption | with_reducible apply State.modLink_keeps

theorem execDmaReadCompletion_keeps {g : Pledge} (x : Nat) (bytes : Bytes) (s : State) (h : s.Keeps g) :
    ∀ out, execDmaReadCompletion x bytes s = .next out → out.Keeps g := by
  unfold execDmaReadCompletion
  try dsimp only
  repeat' first
    | with_reducible assumption | with_reducible apply State.hostReadDone_keeps
    | (show ∀ _ : State, _; with_reducible apply State.arrival_keeps) | (intro st hst; try dsimp only)

theorem execMemReadResponse_keeps {g : Pledge} (x : Nat) (obs : List BlockObs) (s : State) (h : s.Keeps g) :
    ∀ out, execMemReadResponse x obs s = .next out → out.Keeps g := by
  unfold execMemReadResponse
  try dsimp only
  repeat' first
    | with_reducible assumption | with_reducible apply State.memReadDone_keeps
    | (show ∀ _ : State, _; with_reducible apply State.engine_keeps) | (intro st hst; try dsimp only)

theorem execMemWriteResponse_keeps {g : Pledge} (x : Nat) (obs : List BlockObs) (s : State) (h : s.Keeps g) :
    ∀ out, execMemWriteResponse x obs s = .next out → out.Keeps g := by
  unfold execMemWriteResponse
  try dsimp only
  repeat' first
    | with_reducible assumption | with_reducible apply State.memWriteDone_keeps
    | (show ∀ _ : State, _; with_reducible apply State.engine_keeps) | (intro st hst; try dsimp only)

theorem execFlushComplete_keeps {g : Pledge} (id : Nat) (s : State) (h : s.Keeps g) :
    ∀ out, execFlushComplete id s = .next out → out.Keeps g := by
  unfold execFlushComplete
  try dsimp only
  repeat' first
    | with_reducible assumption | with_reducible apply State.flushDone_keeps
    | (show ∀ _ : State, _; with_reducible apply State.arrival_keeps) | (intro st hst; try dsimp only)

theorem execFlushFailed_keeps {g : Pledge} (id : Nat) (s : State) (h : s.Keeps g) :
    ∀ out, execFlushFailed id s = .next out → out.Keeps g := by
  unfold execFlushFailed
  try dsimp only
  repeat' first
    | with_reducible assumption | with_reducible apply State.flushFail_keeps
    | (show ∀ _ : State, _; with_reducible apply State.arrival_keeps) | (intro st hst; try dsimp only)

theorem execProbeFlushTimer_keeps {g : Pledge} (s : State) (h : s.Keeps g) :
    ∀ out, execProbeFlushTimer s = .next out → out.Keeps g := by
  unfold execProbeFlushTimer
  try dsimp only
  repeat' first
    | with_reducible assumption | with_reducible apply forEach_keeps | with_reducible apply State.probeLink_keeps
    | (show ∀ _ : State, _; with_reducible apply State.engine_keeps) | (intro st hst; try dsimp only)

theorem execAtsTranslationDone_keeps {g : Pledge} (x : Nat) (ans : AtsAnswer) (s : State) (h : s.Keeps g) :
    ∀ out, execAtsTranslationDone x ans s = .next out → out.Keeps g := by
  unfold execAtsTranslationDone
  try dsimp only
  repeat' first
    | with_reducible assumption | with_reducible apply State.xlateDone_keeps
    | (show ∀ _ : State, _; with_reducible apply State.arrival_keeps) | (intro st hst; try dsimp only)

theorem execPageRequestResponse_keeps {g : Pledge} (x : Nat) (ans : PriAnswer) (s : State) (h : s.Keeps g) :
    ∀ out, execPageRequestResponse x ans s = .next out → out.Keeps g := by
  unfold execPageRequestResponse
  try dsimp only
  repeat' first
    | with_reducible assumption | with_reducible apply State.pageAnswered_keeps
    | (show ∀ _ : State, _; with_reducible apply State.arrival_keeps) | (intro st hst; try dsimp only)

theorem execPageRequestTimeout_keeps {g : Pledge} (x : Nat) (s : State) (h : s.Keeps g) :
    ∀ out, execPageRequestTimeout x s = .next out → out.Keeps g := by
  unfold execPageRequestTimeout
  try dsimp only
  repeat' first
    | with_reducible assumption | with_reducible apply State.pageDone_keeps
    | (show ∀ _ : State, _; with_reducible apply State.engine_keeps) | (intro st hst; try dsimp only)

theorem State.invalidateAts_keeps {g : Pledge} (s : State) (l : LinkId) (f : FuncId) (pasid base len : Nat) (h : s.Keeps g) :
    (State.invalidateAts s l f pasid base len).Keeps g := by
  unfold State.invalidateAts
  try dsimp only
  repeat' first
    | with_reducible assumption | with_reducible apply State.startInval_keeps | with_reducible apply State.staleXlates_keeps

theorem execInvalidateRequest_keeps {g : Pledge} (l : LinkId) (f : FuncId) (pasid : BitVec 20) (base : Word64) (len : Nat)
     (s : State) (h : s.Keeps g) : ∀ out, execInvalidateRequest l f pasid base len s = .next out → out.Keeps g := by
  unfold execInvalidateRequest
  try dsimp only
  repeat' first
    | with_reducible assumption | with_reducible apply State.invalidateAts_keeps
    | (show ∀ _ : State, _; with_reducible apply State.arrival_keeps) | with_reducible apply keeps_ite
    | (intro st hst; try dsimp only)

theorem execInvalidateReadTimeout_keeps {g : Pledge} (id : Nat) (s : State) (h : s.Keeps g) :
    ∀ out, execInvalidateReadTimeout id s = .next out → out.Keeps g := by
  unfold execInvalidateReadTimeout
  try dsimp only
  repeat' first
    | with_reducible assumption | with_reducible apply State.abandonReads_keeps
    | (show ∀ _ : State, _; with_reducible apply State.engine_keeps) | (intro st hst; try dsimp only)

theorem State.disableAts_keeps {g : Pledge} (s : State) (f : FuncId) (h : s.Keeps g) : (State.disableAts s f).Keeps g := by
  unfold State.disableAts
  try dsimp only
  repeat' first
    | with_reducible assumption | with_reducible apply State.modFunc_keeps | with_reducible apply State.staleXlates_keeps
    | with_reducible apply forEach_keeps | with_reducible apply State.endXfer_keeps
    | with_reducible apply State.startInval_keeps | (intro st x hst; try dsimp only)

theorem execAtsDisable_keeps {g : Pledge} (f : FuncId) (s : State) (h : s.Keeps g) :
    ∀ out, execAtsDisable f s = .next out → out.Keeps g := by
  unfold execAtsDisable
  try dsimp only
  repeat' first
    | with_reducible assumption | with_reducible apply State.settle_keeps | with_reducible apply State.disableAts_keeps
    | with_reducible apply State.configWrite_keeps | with_reducible refine keeps_next ?_

theorem execAtsEnableSet_keeps {g : Pledge} (f : FuncId) (s : State) (h : s.Keeps g) :
    ∀ out, execAtsEnableSet f s = .next out → out.Keeps g := by
  unfold execAtsEnableSet
  try dsimp only
  repeat' first
    | with_reducible assumption | with_reducible apply State.modFunc_keeps | with_reducible apply State.configWrite_keeps
    | with_reducible refine keeps_next ?_

theorem execPriReenable_keeps {g : Pledge} (f : FuncId) (s : State) (h : s.Keeps g) :
    ∀ out, execPriReenable f s = .next out → out.Keeps g := by
  unfold execPriReenable
  try dsimp only
  repeat' first
    | with_reducible assumption | with_reducible apply State.modFunc_keeps | with_reducible apply State.configWrite_keeps
    | with_reducible refine keeps_next ?_

/-! ### PacketTx -/

theorem State.failUnroutable_keeps {g : Pledge} (s : State) (n : Nat) (offered : Bool) (h : s.Keeps g) :
    (State.failUnroutable s n offered).Keeps g := by
  unfold State.failUnroutable
  try dsimp only
  repeat' first
    | with_reducible assumption | with_reducible apply forEach_keeps | with_reducible apply State.pathFail_keeps
    | with_reducible apply State.noRoute_keeps | with_reducible apply keeps_ite | split | (intro st x hst; try dsimp only)

theorem State.failUnroutableAll_keeps {g : Pledge} (s : State) (h : s.Keeps g) : (State.failUnroutableAll s).Keeps g := by
  unfold State.failUnroutableAll
  try dsimp only
  repeat' first
    | with_reducible assumption | with_reducible apply forEach_keeps | with_reducible apply State.failUnroutable_keeps
    | (intro st x hst; try dsimp only)

theorem execPacketSend_keeps {g : Pledge} (conn : Nat) (s : State) (h : s.Keeps g) :
    ∀ out, execPacketSend conn s = .next out → out.Keeps g := by
  unfold execPacketSend
  try dsimp only
  repeat' first
    | with_reducible assumption | with_reducible apply State.packetSend_keeps | with_reducible apply State.failUnroutable_keeps
    | (show ∀ _ : State, _; with_reducible apply State.engine_keeps) | with_reducible apply keeps_ite | split
    | (intro st hst; try dsimp only)

theorem execEgressFrameStart_keeps {g : Pledge} (p : LPort) (s : State) (h : s.Keeps g) :
    ∀ out, execEgressFrameStart p s = .next out → out.Keeps g := by
  unfold execEgressFrameStart
  try dsimp only
  repeat' first
    | with_reducible assumption | with_reducible apply State.egressStart_keeps
    | (show ∀ _ : State, _; with_reducible apply State.engine_keeps) | (intro st hst; try dsimp only)

theorem execTxFrameEnd_keeps {g : Pledge} (p : LPort) (s : State) (h : s.Keeps g) :
    ∀ out, execTxFrameEnd p s = .next out → out.Keeps g := by
  unfold execTxFrameEnd
  try dsimp only
  repeat' first
    | with_reducible assumption | with_reducible apply State.txEnd_keeps
    | (show ∀ _ : State, _; with_reducible apply State.engine_keeps) | (intro st hst; try dsimp only)

theorem execShaperRefill_keeps {g : Pledge} (s : State) (h : s.Keeps g) :
    ∀ out, execShaperRefill s = .next out → out.Keeps g := by
  unfold execShaperRefill
  try dsimp only
  repeat' first
    | with_reducible assumption | with_reducible apply State.refillAll_keeps
    | (show ∀ _ : State, _; with_reducible apply State.engine_keeps)

theorem execGateIntervalEnd_keeps {g : Pledge} (p : LPort) (s : State) (h : s.Keeps g) :
    ∀ out, execGateIntervalEnd p s = .next out → out.Keeps g := by
  unfold execGateIntervalEnd
  try dsimp only
  repeat' first
    | with_reducible assumption | with_reducible apply State.gateNext_keeps
    | (show ∀ _ : State, _; with_reducible apply State.engine_keeps) | (intro st hst; try dsimp only)

theorem execGateListSwitch_keeps {g : Pledge} (p : LPort) (s : State) (h : s.Keeps g) :
    ∀ out, execGateListSwitch p s = .next out → out.Keeps g := by
  unfold execGateListSwitch
  try dsimp only
  repeat' first
    | with_reducible assumption | with_reducible apply State.gateSwitch_keeps
    | (show ∀ _ : State, _; with_reducible apply State.engine_keeps) | (intro st hst; try dsimp only)

/-! ### RxNative -/

theorem State.rxLink_keeps {g : Pledge} (s : State) (p : LPort) (l : L2) (cls : Nat) (h : s.Keeps g) :
    (State.rxLink s p l cls).1.Keeps g := by
  unfold State.rxLink
  try dsimp only
  repeat' first
    | with_reducible assumption | with_reducible apply State.countPort_keeps | split

theorem State.policeOne_keeps {g : Pledge} (s : State) (i : Nat) (q : Policer) (l : L2) (ip : IpHdr) (b : Nat)
     (pre : Option Nat) (h : s.Keeps g) : (State.policeOne s i q l ip b pre).1.Keeps g := by
  unfold State.policeOne
  try dsimp only
  repeat' first
    | with_reducible assumption | (with_reducible apply keeps_of_fields; dsimp only; with_reducible apply fields_of_keeps)

theorem State.police_keeps {g : Pledge} (s : State) (p : LPort) (l : L2) (ip : IpHdr) (b : Nat) (conn : Option Nat)
     (h : s.Keeps g) : (State.police s p l ip b conn).1.Keeps g := by
  unfold State.police
  try dsimp only
  repeat' first
    | with_reducible assumption | with_reducible apply State.policeOne_keeps
    | (with_reducible apply keeps_of_fields; dsimp only; with_reducible apply fields_of_keeps) | split

theorem State.noteKeyPhase_keeps {g : Pledge} (s : State) (n : Nat) (fr : NFrame) (isNext : Bool) (h : s.Keeps g) :
    (State.noteKeyPhase s n fr isNext).Keeps g := by
  unfold State.noteKeyPhase
  try dsimp only
  repeat' first
    | with_reducible assumption | with_reducible apply State.modConn_keeps

theorem State.authFailure_keeps {g : Pledge} (s : State) (n : Nat) (c : Conn) (h : s.Keeps g) :
    (State.authFailure s n c).Keeps g := by
  unfold State.authFailure
  try dsimp only
  repeat' first
    | with_reducible assumption | with_reducible apply State.count_keeps | with_reducible apply State.modConn_keeps

theorem State.tagFailed_keeps {g : Pledge} (s : State) (n : Nat) (c : Conn) (psn : Nat) (target : List (Nat × Nat))
     (h : s.Keeps g) : (State.tagFailed s n c psn target).Keeps g := by
  unfold State.tagFailed
  try dsimp only
  repeat' first
    | with_reducible assumption | with_reducible apply State.authFailure_keeps | with_reducible apply State.beyond_keeps
    | with_reducible apply State.undefineRuns_keeps | with_reducible apply State.keepMark_keeps | with_reducible apply keeps_ite

theorem State.respTagFailed_keeps {g : Pledge} (s : State) (n : Nat) (c : Conn) (fr : NFrame) (h : s.Keeps g) :
    (State.respTagFailed s n c fr).Keeps g := by
  unfold State.respTagFailed
  try dsimp only
  repeat' first
    | with_reducible assumption | with_reducible apply State.authFailure_keeps | with_reducible apply State.undefineRuns_keeps
    | with_reducible apply State.modJob_keeps | split

theorem State.takePacket_keeps {g : Pledge} (s : State) (n : Nat) (p : LPort) (cls len psn : Nat) (span : Option RxSpan)
     (last : Option RxLast) (h : s.Keeps g) : (State.takePacket s n p cls len psn span last).Keeps g := by
  unfold State.takePacket
  try dsimp only
  repeat' first
    | with_reducible assumption | with_reducible apply State.modRx_keeps | with_reducible apply State.rxHold_keeps

theorem State.noteSend_keeps {g : Pledge} (s : State) (n : Nat) (fr : NFrame) (h : s.Keeps g) :
    (State.noteSend s n fr).Keeps g := by
  unfold State.noteSend
  try dsimp only
  repeat' first
    | with_reducible assumption | with_reducible apply State.modRx_keeps | with_reducible apply keeps_ite

theorem State.noteLast_keeps {g : Pledge} (s : State) (n : Nat) (l : Option RxLast) (h : s.Keeps g) :
    (State.noteLast s n l).Keeps g := by
  unfold State.noteLast
  try dsimp only
  repeat' first
    | with_reducible assumption | with_reducible apply State.modRx_keeps | split

theorem State.newData_keeps {g : Pledge} (s : State) (n : Nat) (c : Conn) (p : LPort) (cls : Nat) (fr : NFrame) (tagOk : Bool)
     (h : s.Keeps g) : (State.newData s n c p cls fr tagOk).Keeps g := by
  unfold State.newData
  try dsimp only
  repeat' first
    | with_reducible assumption | with_reducible apply State.nakRnr_keeps | with_reducible apply rxEnded_keeps
    | with_reducible apply State.refusePacket_keeps | with_reducible apply State.noteLast_keeps
    | with_reducible apply State.noteSend_keeps | with_reducible apply State.tagFailed_keeps
    | with_reducible apply State.takePacket_keeps | with_reducible apply State.progress_keeps
    | with_reducible apply State.modRx_keeps | with_reducible apply State.startWrite_keeps | with_reducible apply keeps_ite
    | split

theorem State.addWork_keeps {g : Pledge} (s : State) (n : Nat) (w : RespWork) (h : s.Keeps g) :
    (State.addWork s n w).Keeps g := by
  unfold State.addWork
  try dsimp only
  repeat' first
    | with_reducible assumption | with_reducible apply State.beginWork_keeps | with_reducible apply State.modRx_keeps
    | with_reducible apply State.dropWhere_keeps

theorem State.passReadPsns_keeps {g : Pledge} (s : State) (n : Nat) (c : Conn) (psn count : Nat) (h : s.Keeps g) :
    (State.passReadPsns s n c psn count).Keeps g := by
  unfold State.passReadPsns
  try dsimp only
  repeat' first
    | with_reducible assumption | with_reducible apply forEach_keeps | with_reducible apply State.markWritten_keeps
    | with_reducible apply rxEnded_keeps | with_reducible apply State.becomeVisibleN_keeps | (intro st x hst; try dsimp only)

theorem State.newRequest_keeps {g : Pledge} (s : State) (n : Nat) (c : Conn) (fr : NFrame) (tagOk : Bool) (h : s.Keeps g) :
    (State.newRequest s n c fr tagOk).Keeps g := by
  unfold State.newRequest
  try dsimp only
  repeat' first
    | with_reducible assumption | with_reducible apply State.tagFailed_keeps | with_reducible apply State.noteLast_keeps
    | with_reducible apply State.beyond_keeps | with_reducible apply rxEnded_keeps
    | with_reducible apply State.refusePacket_keeps | with_reducible apply State.passReadPsns_keeps
    | with_reducible apply State.addWork_keeps | with_reducible apply keeps_ite | split

theorem State.duplicate_keeps {g : Pledge} (s : State) (n : Nat) (c : Conn) (fr : NFrame) (h : s.Keeps g) :
    (State.duplicate s n c fr).Keeps g := by
  unfold State.duplicate
  try dsimp only
  repeat' first
    | with_reducible assumption | with_reducible apply State.modConn_keeps | with_reducible apply State.addWork_keeps
    | with_reducible apply State.sendAck_keeps | with_reducible apply State.count_keeps
    | with_reducible apply State.sendResponse_keeps | with_reducible apply State.modRx_keeps | with_reducible apply keeps_ite
    | split

theorem State.newColl_keeps {g : Pledge} (s : State) (n : Nat) (c : Conn) (fr : NFrame) (tagOk : Bool) (h : s.Keeps g) :
    (State.newColl s n c fr tagOk).Keeps g := by
  unfold State.newColl
  try dsimp only
  repeat' first
    | with_reducible assumption | with_reducible apply State.beyond_keeps | with_reducible apply State.tagFailed_keeps
    | with_reducible apply State.collGather_keeps | with_reducible apply State.markWritten_keeps
    | with_reducible apply State.noteLast_keeps | with_reducible apply rxEnded_keeps
    | with_reducible apply State.becomeVisible_keeps | with_reducible apply keeps_ite

theorem State.sequence_keeps {g : Pledge} (s : State) (n : Nat) (c : Conn) (p : LPort) (cls : Nat) (fr : NFrame) (tagOk : Bool)
     (h : s.Keeps g) : (State.sequence s n c p cls fr tagOk).Keeps g := by
  unfold State.sequence
  try dsimp only
  repeat' first
    | with_reducible assumption | with_reducible apply State.duplicate_keeps | with_reducible apply State.authFailure_keeps
    | with_reducible apply State.beyond_keeps | with_reducible apply State.sendAck_keeps
    | with_reducible apply State.modRx_keeps | with_reducible apply State.newColl_keeps
    | with_reducible apply State.newRequest_keeps | with_reducible apply State.newData_keeps | with_reducible apply keeps_ite

theorem State.badFrame_keeps {g : Pledge} (s : State) (n : Nat) (c : Conn) (fr : NFrame) (h : s.Keeps g) :
    (State.badFrame s n c fr).Keeps g := by
  unfold State.badFrame
  try dsimp only
  repeat' first
    | with_reducible assumption | with_reducible apply State.undefineRuns_keeps | with_reducible apply keeps_ite | split

theorem State.response_keeps {g : Pledge} (s : State) (n : Nat) (c : Conn) (p : LPort) (cls len psn : Nat) (atomic : Bool)
     (payload : Bytes) (h : s.Keeps g) : (State.response s n c p cls len psn atomic payload).Keeps g := by
  unfold State.response
  try dsimp only
  repeat' first
    | with_reducible assumption | with_reducible apply State.count_keeps | with_reducible apply State.modRx_keeps
    | with_reducible apply State.rxHold_keeps | with_reducible apply State.startWrite_keeps | with_reducible apply keeps_ite
    | split

theorem State.takeAck_keeps {g : Pledge} (s : State) (n : Nat) (a : AckInfo) (h : s.Keeps g) : (State.takeAck s n a).Keeps g := by
  unfold State.takeAck
  try dsimp only
  repeat' first
    | with_reducible assumption | with_reducible apply State.onAck_keeps | with_reducible apply State.traceRecord_keeps
    | with_reducible apply keeps_ite | split

theorem State.control_keeps {g : Pledge} (s : State) (n : Nat) (c : Conn) (fr : NFrame) (h : s.Keeps g) :
    (State.control s n c fr).Keeps g := by
  unfold State.control
  try dsimp only
  repeat' first
    | with_reducible assumption | with_reducible apply State.takeAck_keeps | with_reducible apply State.onNakRnr_keeps
    | with_reducible apply State.edgeLost_keeps | with_reducible apply State.resendFrom_keeps
    | with_reducible apply State.connError_keeps | with_reducible apply State.sendOn_keeps
    | with_reducible apply State.probeReply_keeps | with_reducible apply keeps_ite

theorem State.missFrame_keeps {g : Pledge} (s : State) (n : Nat) (c : Conn) (len : Nat) (hold : Conn → Conn) (h : s.Keeps g) :
    (State.missFrame s n c len hold).Keeps g := by
  unfold State.missFrame
  try dsimp only
  repeat' first
    | with_reducible assumption | with_reducible apply State.count_keeps | with_reducible apply State.modConn_keeps
    | with_reducible apply State.fetchContext_keeps | with_reducible apply State.peakGlobal_keeps
    | with_reducible apply keeps_ite

theorem State.live_keeps {g : Pledge} (s : State) (n : Nat) (c : Conn) (p : LPort) (cls : Nat) (fr : NFrame) (good : Bool)
     (h : s.Keeps g) : (State.live s n c p cls fr good).Keeps g := by
  unfold State.live
  try dsimp only
  repeat' first
    | with_reducible assumption | with_reducible apply State.countPort_keeps | with_reducible apply State.badFrame_keeps
    | with_reducible apply State.nakClosed_keeps | with_reducible apply State.control_keeps
    | with_reducible apply State.touchConn_keeps | with_reducible apply State.nakReset_keeps
    | with_reducible apply State.nakRnr_keeps | with_reducible apply State.dropOldRx_keeps
    | with_reducible apply State.noteKeyPhase_keeps | with_reducible apply State.response_keeps
    | with_reducible apply State.respTagFailed_keeps | with_reducible apply State.sequence_keeps
    | with_reducible apply keeps_ite | split

theorem State.rxTransport_keeps {g : Pledge} (s : State) (p : LPort) (fr : NFrame) (good : Bool) (h : s.Keeps g) :
    (State.rxTransport s p fr good).Keeps g := by
  unfold State.rxTransport
  try dsimp only
  repeat' first
    | with_reducible assumption | with_reducible apply State.nakClosed_keeps | with_reducible apply State.fetchContext_keeps
    | with_reducible apply State.live_keeps | with_reducible apply State.missFrame_keeps | with_reducible apply keeps_ite
    | split

theorem State.rxNative_keeps {g : Pledge} (s : State) (p : LPort) (fr : NFrame) (h : s.Keeps g) :
    (State.rxNative s p fr).Keeps g := by
  unfold State.rxNative
  try dsimp only
  repeat' first
    | with_reducible assumption | with_reducible apply State.rxLink_keeps | with_reducible apply State.countPort_keeps
    | with_reducible apply State.police_keeps | with_reducible apply State.rxTransport_keeps
    | with_reducible apply State.rxCross_keeps | (refine keeps_of_fst (by with_reducible assumption) ?_)
    | with_reducible apply keeps_ite | split

theorem State.frameArrival_keeps {g : Pledge} (s : State) (p : LPort) (l : L2) (cls : Nat) (c : Instr) (x : State → State)
     (h : s.Keeps g) (hf : ∀ st, st.Keeps g → (x st).Keeps g) :
    ∀ out, State.frameArrival s p l cls c x = .next out → out.Keeps g := by
  unfold State.frameArrival
  try dsimp only
  repeat' first
    | with_reducible assumption | with_reducible refine hf _ ?_ | with_reducible apply State.holdArrival_keeps
    | with_reducible apply State.rxHold_keeps | with_reducible apply State.countPort_keeps
    | with_reducible apply State.settle_keeps | with_reducible refine keeps_next ?_ | with_reducible apply keeps_ite

theorem State.rxRow_keeps {g : Pledge} (s : State) (p : LPort) (fr : NFrame) (ty : Byte) (c : Instr) (h : s.Keeps g) :
    ∀ out, State.rxRow s p fr ty c = .next out → out.Keeps g := by
  unfold State.rxRow
  try dsimp only
  repeat' first
    | with_reducible assumption | with_reducible apply State.rxNative_keeps
    | (show ∀ _ : State, _; with_reducible apply State.frameArrival_keeps) | with_reducible refine keeps_next ?_ | split
    | (intro st hst; try dsimp only)

theorem execRxWrite_keeps {g : Pledge} (p : LPort) (fr : NFrame) (s : State) (h : s.Keeps g) :
    ∀ out, execRxWrite p fr s = .next out → out.Keeps g := by
  unfold execRxWrite
  try dsimp only
  repeat' first
    | with_reducible assumption | (show ∀ _ : State, _; with_reducible apply State.rxRow_keeps)

theorem execRxWriteFlag_keeps {g : Pledge} (p : LPort) (fr : NFrame) (s : State) (h : s.Keeps g) :
    ∀ out, execRxWriteFlag p fr s = .next out → out.Keeps g := by
  unfold execRxWriteFlag
  try dsimp only
  repeat' first
    | with_reducible assumption | (show ∀ _ : State, _; with_reducible apply State.rxRow_keeps)

theorem execRxSend_keeps {g : Pledge} (p : LPort) (fr : NFrame) (s : State) (h : s.Keeps g) :
    ∀ out, execRxSend p fr s = .next out → out.Keeps g := by
  unfold execRxSend
  try dsimp only
  repeat' first
    | with_reducible assumption | (show ∀ _ : State, _; with_reducible apply State.rxRow_keeps)

theorem execRxReadReq_keeps {g : Pledge} (p : LPort) (fr : NFrame) (s : State) (h : s.Keeps g) :
    ∀ out, execRxReadReq p fr s = .next out → out.Keeps g := by
  unfold execRxReadReq
  try dsimp only
  repeat' first
    | with_reducible assumption | (show ∀ _ : State, _; with_reducible apply State.rxRow_keeps)

theorem execRxReadResp_keeps {g : Pledge} (p : LPort) (fr : NFrame) (s : State) (h : s.Keeps g) :
    ∀ out, execRxReadResp p fr s = .next out → out.Keeps g := by
  unfold execRxReadResp
  try dsimp only
  repeat' first
    | with_reducible assumption | (show ∀ _ : State, _; with_reducible apply State.rxRow_keeps)

theorem execRxAtomicReq_keeps {g : Pledge} (p : LPort) (fr : NFrame) (s : State) (h : s.Keeps g) :
    ∀ out, execRxAtomicReq p fr s = .next out → out.Keeps g := by
  unfold execRxAtomicReq
  try dsimp only
  repeat' first
    | with_reducible assumption | (show ∀ _ : State, _; with_reducible apply State.rxRow_keeps)

theorem execRxAtomicResp_keeps {g : Pledge} (p : LPort) (fr : NFrame) (s : State) (h : s.Keeps g) :
    ∀ out, execRxAtomicResp p fr s = .next out → out.Keeps g := by
  unfold execRxAtomicResp
  try dsimp only
  repeat' first
    | with_reducible assumption | (show ∀ _ : State, _; with_reducible apply State.rxRow_keeps)

theorem execRxAck_keeps {g : Pledge} (p : LPort) (fr : NFrame) (s : State) (h : s.Keeps g) :
    ∀ out, execRxAck p fr s = .next out → out.Keeps g := by
  unfold execRxAck
  try dsimp only
  repeat' first
    | with_reducible assumption | (show ∀ _ : State, _; with_reducible apply State.rxRow_keeps)

theorem execRxNakRnr_keeps {g : Pledge} (p : LPort) (fr : NFrame) (s : State) (h : s.Keeps g) :
    ∀ out, execRxNakRnr p fr s = .next out → out.Keeps g := by
  unfold execRxNakRnr
  try dsimp only
  repeat' first
    | with_reducible assumption | (show ∀ _ : State, _; with_reducible apply State.rxRow_keeps)

theorem execRxNakAccess_keeps {g : Pledge} (p : LPort) (fr : NFrame) (s : State) (h : s.Keeps g) :
    ∀ out, execRxNakAccess p fr s = .next out → out.Keeps g := by
  unfold execRxNakAccess
  try dsimp only
  repeat' first
    | with_reducible assumption | (show ∀ _ : State, _; with_reducible apply State.rxRow_keeps)

theorem execRxNakSeq_keeps {g : Pledge} (p : LPort) (fr : NFrame) (s : State) (h : s.Keeps g) :
    ∀ out, execRxNakSeq p fr s = .next out → out.Keeps g := by
  unfold execRxNakSeq
  try dsimp only
  repeat' first
    | with_reducible assumption | (show ∀ _ : State, _; with_reducible apply State.rxRow_keeps)

theorem execRxNakClosed_keeps {g : Pledge} (p : LPort) (fr : NFrame) (s : State) (h : s.Keeps g) :
    ∀ out, execRxNakClosed p fr s = .next out → out.Keeps g := by
  unfold execRxNakClosed
  try dsimp only
  repeat' first
    | with_reducible assumption | (show ∀ _ : State, _; with_reducible apply State.rxRow_keeps)

theorem execRxProbe_keeps {g : Pledge} (p : LPort) (fr : NFrame) (s : State) (h : s.Keeps g) :
    ∀ out, execRxProbe p fr s = .next out → out.Keeps g := by
  unfold execRxProbe
  try dsimp only
  repeat' first
    | with_reducible assumption | (show ∀ _ : State, _; with_reducible apply State.rxRow_keeps)

theorem execRxProbeReply_keeps {g : Pledge} (p : LPort) (fr : NFrame) (s : State) (h : s.Keeps g) :
    ∀ out, execRxProbeReply p fr s = .next out → out.Keeps g := by
  unfold execRxProbeReply
  try dsimp only
  repeat' first
    | with_reducible assumption | (show ∀ _ : State, _; with_reducible apply State.rxRow_keeps)

theorem execRxCollUp_keeps {g : Pledge} (p : LPort) (fr : NFrame) (s : State) (h : s.Keeps g) :
    ∀ out, execRxCollUp p fr s = .next out → out.Keeps g := by
  unfold execRxCollUp
  try dsimp only
  repeat' first
    | with_reducible assumption | (show ∀ _ : State, _; with_reducible apply State.rxRow_keeps)

theorem execRxCollDown_keeps {g : Pledge} (p : LPort) (fr : NFrame) (s : State) (h : s.Keeps g) :
    ∀ out, execRxCollDown p fr s = .next out → out.Keeps g := by
  unfold execRxCollDown
  try dsimp only
  repeat' first
    | with_reducible assumption | (show ∀ _ : State, _; with_reducible apply State.rxRow_keeps)

theorem execRxCollReport_keeps {g : Pledge} (p : LPort) (fr : NFrame) (s : State) (h : s.Keeps g) :
    ∀ out, execRxCollReport p fr s = .next out → out.Keeps g := by
  unfold execRxCollReport
  try dsimp only
  repeat' first
    | with_reducible assumption | (show ∀ _ : State, _; with_reducible apply State.rxRow_keeps)

theorem execRxCollSeal_keeps {g : Pledge} (p : LPort) (fr : NFrame) (s : State) (h : s.Keeps g) :
    ∀ out, execRxCollSeal p fr s = .next out → out.Keeps g := by
  unfold execRxCollSeal
  try dsimp only
  repeat' first
    | with_reducible assumption | (show ∀ _ : State, _; with_reducible apply State.rxRow_keeps)

theorem execRxCollRepair_keeps {g : Pledge} (p : LPort) (fr : NFrame) (s : State) (h : s.Keeps g) :
    ∀ out, execRxCollRepair p fr s = .next out → out.Keeps g := by
  unfold execRxCollRepair
  try dsimp only
  repeat' first
    | with_reducible assumption | (show ∀ _ : State, _; with_reducible apply State.rxRow_keeps)

theorem execRxCollGrant_keeps {g : Pledge} (p : LPort) (fr : NFrame) (s : State) (h : s.Keeps g) :
    ∀ out, execRxCollGrant p fr s = .next out → out.Keeps g := by
  unfold execRxCollGrant
  try dsimp only
  repeat' first
    | with_reducible assumption | (show ∀ _ : State, _; with_reducible apply State.rxRow_keeps)

theorem State.contextFetched_keeps {g : Pledge} (s : State) (n : Nat) (obs : BlockObs) (h : s.Keeps g) :
    (State.contextFetched s n obs).Keeps g := by
  unfold State.contextFetched
  try dsimp only
  repeat' first
    | with_reducible assumption | with_reducible apply State.modConn_keeps | with_reducible apply State.decodeBlock_keeps
    | with_reducible apply State.toError_keeps | with_reducible apply State.fault_keeps | with_reducible apply forEach_keeps
    | with_reducible apply State.rxTransport_keeps | with_reducible apply keeps_ite | split | (intro st x hst; try dsimp only)

theorem execContextWriteBackDone_keeps {g : Pledge} (conn : Nat) (s : State) (h : s.Keeps g) :
    ∀ out, execContextWriteBackDone conn s = .next out → out.Keeps g := by
  unfold execContextWriteBackDone
  try dsimp only
  repeat' first
    | with_reducible assumption | with_reducible apply State.modConn_keeps
    | (show ∀ _ : State, _; with_reducible apply State.engine_keeps) | (intro st hst; try dsimp only)

/-! ### RxPort -/

theorem State.rxOther_keeps {g : Pledge} (s : State) (p : LPort) (fr : EFrame) (h : s.Keeps g) :
    (State.rxOther s p fr).1.Keeps g := by
  unfold State.rxOther
  try dsimp only
  repeat' first
    | with_reducible assumption | with_reducible apply State.rxLink_keeps | with_reducible apply State.police_keeps | split

theorem State.rxDiscard_keeps {g : Pledge} (s : State) (p : LPort) (fr : EFrame) (h : s.Keeps g) :
    (State.rxDiscard s p fr).Keeps g := by
  unfold State.rxDiscard
  try dsimp only
  repeat' first
    | with_reducible assumption | with_reducible apply State.rxOther_keeps | with_reducible apply State.countPort_keeps | split

theorem execRxFrameDiscard_keeps {g : Pledge} (p : LPort) (fr : EFrame) (s : State) (h : s.Keeps g) :
    ∀ out, execRxFrameDiscard p fr s = .next out → out.Keeps g := by
  unfold execRxFrameDiscard
  try dsimp only
  repeat' first
    | with_reducible assumption | with_reducible apply State.rxDiscard_keeps
    | (show ∀ _ : State, _; with_reducible apply State.frameArrival_keeps) | (intro st hst; try dsimp only)

theorem State.rxRaw_keeps {g : Pledge} (s : State) (p : LPort) (cls : Nat) (fr : EFrame) (queue matched : Nat) (mgmt : Bool)
     (h : s.Keeps g) : (State.rxRaw s p cls fr queue matched mgmt).Keeps g := by
  unfold State.rxRaw
  try dsimp only
  repeat' first
    | with_reducible assumption | with_reducible apply State.countPort_keeps | with_reducible apply State.modJob_keeps
    | with_reducible apply State.startWrite_keeps | with_reducible apply State.rxCross_keeps
    | with_reducible apply State.rxKeep_keeps | with_reducible apply State.finishJob_keeps
    | with_reducible apply State.count_keeps | with_reducible apply keeps_ite | split

theorem execRxRawFrame_keeps {g : Pledge} (p : LPort) (fr : EFrame) (s : State) (h : s.Keeps g) :
    ∀ out, execRxRawFrame p fr s = .next out → out.Keeps g := by
  unfold execRxRawFrame
  try dsimp only
  repeat' first
    | with_reducible assumption | with_reducible apply State.rxOther_keeps | with_reducible apply State.rxRaw_keeps
    | (show ∀ _ : State, _; with_reducible apply State.frameArrival_keeps) | split | (intro st hst; try dsimp only)

theorem State.rxDrill_keeps {g : Pledge} (s : State) (p : LPort) (cls : Nat) (fr : EFrame) (n : Nat) (h : s.Keeps g) :
    (State.rxDrill s p cls fr n).Keeps g := by
  unfold State.rxDrill
  try dsimp only
  repeat' first
    | with_reducible assumption | with_reducible apply State.countPort_keeps | with_reducible apply State.modProg_keeps
    | with_reducible apply State.fabSend_keeps | with_reducible apply State.rxKeep_keeps | with_reducible apply keeps_ite
    | split

theorem execRxDrillFrame_keeps {g : Pledge} (p : LPort) (fr : EFrame) (s : State) (h : s.Keeps g) :
    ∀ out, execRxDrillFrame p fr s = .next out → out.Keeps g := by
  unfold execRxDrillFrame
  try dsimp only
  repeat' first
    | with_reducible assumption | with_reducible apply State.rxOther_keeps | with_reducible apply State.rxDrill_keeps
    | (show ∀ _ : State, _; with_reducible apply State.frameArrival_keeps) | split | (intro st hst; try dsimp only)

theorem execDrillFrameVerdict_keeps {g : Pledge} (prog : Nat) (good : Bool) (s : State) (h : s.Keeps g) :
    ∀ out, execDrillFrameVerdict prog good s = .next out → out.Keeps g := by
  unfold execDrillFrameVerdict
  try dsimp only
  repeat' first
    | with_reducible assumption | with_reducible apply State.frameVerdict_keeps
    | (show ∀ _ : State, _; with_reducible apply State.engine_keeps) | (intro st hst; try dsimp only)

theorem State.portEvent_keeps {g : Pledge} (s : State) (p : LPort) (x : State → State) (h : s.Keeps g)
     (hf : ∀ st, st.Keeps g → (x st).Keeps g) : ∀ out, State.portEvent s p x = .next out → out.Keeps g := by
  unfold State.portEvent
  try dsimp only
  repeat' first
    | with_reducible assumption | with_reducible refine hf _ ?_ | with_reducible refine keeps_next ?_
    | with_reducible apply keeps_ite

theorem execRxPause_keeps {g : Pledge} (p : LPort) (quanta : BitVec 16) (s : State) (h : s.Keeps g) :
    ∀ out, execRxPause p quanta s = .next out → out.Keeps g := by
  unfold execRxPause
  try dsimp only
  repeat' first
    | with_reducible assumption | with_reducible apply State.countPort_keeps | with_reducible apply State.modPort_keeps
    | (show ∀ _ : State, _; with_reducible apply State.portEvent_keeps) | with_reducible apply keeps_ite
    | (intro st hst; try dsimp only)

theorem execRxPfc_keeps {g : Pledge} (p : LPort) (enables : BitVec 8) (quanta : List (BitVec 16)) (s : State) (h : s.Keeps g) :
    ∀ out, execRxPfc p enables quanta s = .next out → out.Keeps g := by
  unfold execRxPfc
  try dsimp only
  repeat' first
    | with_reducible assumption | with_reducible apply State.countPort_keeps | with_reducible apply State.modPort_keeps
    | (show ∀ _ : State, _; with_reducible apply State.portEvent_keeps) | with_reducible apply keeps_ite
    | (intro st hst; try dsimp only)

theorem execPauseQuantaExpiry_keeps {g : Pledge} (p : LPort) (cls : Option ClassId) (s : State) (h : s.Keeps g) :
    ∀ out, execPauseQuantaExpiry p cls s = .next out → out.Keeps g := by
  unfold execPauseQuantaExpiry
  try dsimp only
  repeat' first
    | with_reducible assumption | with_reducible apply State.modPort_keeps
    | (show ∀ _ : State, _; with_reducible apply State.portEvent_keeps) | split | (intro st hst; try dsimp only)

theorem execPfcXoffRefresh_keeps {g : Pledge} (p : LPort) (cls : ClassId) (s : State) (h : s.Keeps g) :
    ∀ out, execPfcXoffRefresh p cls s = .next out → out.Keeps g := by
  unfold execPfcXoffRefresh
  try dsimp only
  repeat' first
    | with_reducible assumption | with_reducible apply State.countPort_keeps | with_reducible apply State.emit_keeps
    | with_reducible apply State.modPort_keeps | (show ∀ _ : State, _; with_reducible apply State.portEvent_keeps)
    | with_reducible apply keeps_ite | (intro st hst; try dsimp only)

theorem execRxPreemptVerify_keeps {g : Pledge} (p : LPort) (respond : Bool) (s : State) (h : s.Keeps g) :
    ∀ out, execRxPreemptVerify p respond s = .next out → out.Keeps g := by
  unfold execRxPreemptVerify
  try dsimp only
  repeat' first
    | with_reducible assumption | with_reducible apply State.emit_keeps | with_reducible apply State.modPort_keeps
    | (show ∀ _ : State, _; with_reducible apply State.portEvent_keeps) | with_reducible apply keeps_ite | split
    | (intro st hst; try dsimp only)

theorem execPreemptVerifyTimeout_keeps {g : Pledge} (p : LPort) (s : State) (h : s.Keeps g) :
    ∀ out, execPreemptVerifyTimeout p s = .next out → out.Keeps g := by
  unfold execPreemptVerifyTimeout
  try dsimp only
  repeat' first
    | with_reducible assumption | with_reducible apply State.modPort_keeps | with_reducible apply State.emit_keeps
    | with_reducible apply State.countPort_keeps | (show ∀ _ : State, _; with_reducible apply State.portEvent_keeps)
    | with_reducible apply keeps_ite | (intro st hst; try dsimp only)

theorem State.relayOn_keeps {g : Pledge} (s : State) (p : LPort) (fr : NFrame) (good : Bool) (h : s.Keeps g) :
    (State.relayOn s p fr good).Keeps g := by
  unfold State.relayOn
  try dsimp only
  repeat' first
    | with_reducible assumption | with_reducible apply State.modRelay_keeps | with_reducible apply State.routeFlow_keeps
    | with_reducible apply State.noRoute_keeps | with_reducible apply State.countPort_keeps
    | with_reducible apply State.countGlobal_keeps | with_reducible apply State.enqueueFrom_keeps
    | with_reducible apply keeps_ite | split

theorem State.relayArrive_keeps {g : Pledge} (s : State) (p : LPort) (fr : NFrame) (h : s.Keeps g) :
    (State.relayArrive s p fr).Keeps g := by
  unfold State.relayArrive
  try dsimp only
  repeat' first
    | with_reducible assumption | with_reducible apply State.rxLink_keeps | with_reducible apply State.countPort_keeps
    | with_reducible apply State.police_keeps | with_reducible apply State.relayOn_keeps
    | (refine keeps_of_fst (by with_reducible assumption) ?_) | with_reducible apply keeps_ite | split

theorem execRelayFrame_keeps {g : Pledge} (p : LPort) (fr : NFrame) (s : State) (h : s.Keeps g) :
    ∀ out, execRelayFrame p fr s = .next out → out.Keeps g := by
  unfold execRelayFrame
  try dsimp only
  repeat' first
    | with_reducible assumption | with_reducible apply State.relayArrive_keeps
    | (show ∀ _ : State, _; with_reducible apply State.frameArrival_keeps) | (intro st hst; try dsimp only)

theorem State.unreachArrive_keeps {g : Pledge} (s : State) (p : LPort) (fr : NFrame) (h : s.Keeps g) :
    (State.unreachArrive s p fr).Keeps g := by
  unfold State.unreachArrive
  try dsimp only
  repeat' first
    | with_reducible assumption | with_reducible apply State.rxLink_keeps | with_reducible apply State.countPort_keeps
    | with_reducible apply State.police_keeps | with_reducible apply State.failUnroutableAll_keeps
    | with_reducible apply State.modRelay_keeps | (refine keeps_of_fst (by with_reducible assumption) ?_)
    | with_reducible apply keeps_ite | split

theorem execRxUnreach_keeps {g : Pledge} (p : LPort) (fr : NFrame) (s : State) (h : s.Keeps g) :
    ∀ out, execRxUnreach p fr s = .next out → out.Keeps g := by
  unfold execRxUnreach
  try dsimp only
  repeat' first
    | with_reducible assumption | with_reducible apply State.unreachArrive_keeps
    | (show ∀ _ : State, _; with_reducible apply State.frameArrival_keeps) | (intro st hst; try dsimp only)

theorem execUnreachHoldExpiry_keeps {g : Pledge} (epoch : Bool) (index : Nat) (p : LPort) (s : State) (h : s.Keeps g) :
    ∀ out, execUnreachHoldExpiry epoch index p s = .next out → out.Keeps g := by
  unfold execUnreachHoldExpiry
  try dsimp only
  repeat' first
    | with_reducible assumption | with_reducible apply State.modRelay_keeps
    | (show ∀ _ : State, _; with_reducible apply State.engine_keeps) | (intro st hst; try dsimp only)

theorem execFlowIdleExpiry_keeps {g : Pledge} (die : DieId) (node conn path : Nat) (s : State) (h : s.Keeps g) :
    ∀ out, execFlowIdleExpiry die node conn path s = .next out → out.Keeps g := by
  unfold execFlowIdleExpiry
  try dsimp only
  repeat' first
    | with_reducible assumption | with_reducible apply State.modRelay_keeps
    | (show ∀ _ : State, _; with_reducible apply State.engine_keeps) | with_reducible apply keeps_ite
    | (intro st hst; try dsimp only)

/-! ### RxRoce -/

theorem State.roceRefuse_keeps {g : Pledge} (s : State) (n : Nat) (c : Conn) (psn reason : Nat) (recv : Bool) (h : s.Keeps g) :
    (State.roceRefuse s n c psn reason recv).Keeps g := by
  unfold State.roceRefuse
  try dsimp only
  repeat' first
    | with_reducible assumption | with_reducible apply State.roceFatal_keeps | with_reducible apply State.sendAck_keeps
    | with_reducible apply State.count_keeps | with_reducible apply keeps_ite

theorem State.roceData_keeps {g : Pledge} (s : State) (n : Nat) (c : Conn) (p : LPort) (cls : Nat) (fr : RFrame) (h : s.Keeps g) :
    (State.roceData s n c p cls fr).Keeps g := by
  unfold State.roceData
  try dsimp only
  repeat' first
    | with_reducible assumption | with_reducible apply State.nakRnr_keeps | with_reducible apply State.roceRefuse_keeps
    | with_reducible apply State.startWrite_keeps | with_reducible apply State.takePacket_keeps | split

theorem State.sendCnp_keeps {g : Pledge} (s : State) (n : Nat) (h : s.Keeps g) : (State.sendCnp s n).Keeps g := by
  unfold State.sendCnp
  try dsimp only
  repeat' first
    | with_reducible assumption | with_reducible apply State.modRx_keeps | with_reducible apply State.sendOn_keeps
    | with_reducible apply keeps_ite | split

theorem State.roceDuplicate_keeps {g : Pledge} (s : State) (n : Nat) (c : Conn) (fr : RFrame) (h : s.Keeps g) :
    (State.roceDuplicate s n c fr).Keeps g := by
  unfold State.roceDuplicate
  try dsimp only
  repeat' first
    | with_reducible assumption | with_reducible apply State.modConn_keeps | with_reducible apply State.addWork_keeps
    | with_reducible apply State.roceRefuse_keeps | with_reducible apply State.sendResponse_keeps
    | with_reducible apply State.sendAck_keeps | with_reducible apply State.modRx_keeps | with_reducible apply keeps_ite | split

theorem State.roceSequence_keeps {g : Pledge} (s : State) (n : Nat) (c : Conn) (p : LPort) (cls : Nat) (fr : RFrame)
     (h : s.Keeps g) : (State.roceSequence s n c p cls fr).Keeps g := by
  unfold State.roceSequence
  try dsimp only
  repeat' first
    | with_reducible assumption | with_reducible apply State.roceDuplicate_keeps | with_reducible apply State.beyond_keeps
    | with_reducible apply State.sendAck_keeps | with_reducible apply State.modRx_keeps
    | with_reducible apply State.roceData_keeps | with_reducible apply State.roceRefuse_keeps
    | with_reducible apply State.noteLast_keeps | with_reducible apply State.addWork_keeps
    | with_reducible apply State.passReadPsns_keeps | with_reducible apply keeps_ite | split

theorem State.roceReply_keeps {g : Pledge} (s : State) (n : Nat) (c : Conn) (p : LPort) (cls : Nat) (fr : RFrame)
     (h : s.Keeps g) : (State.roceReply s n c p cls fr).Keeps g := by
  unfold State.roceReply
  try dsimp only
  repeat' first
    | with_reducible assumption | with_reducible apply State.response_keeps | with_reducible apply State.onAck_keeps
    | with_reducible apply State.resendFrom_keeps | with_reducible apply State.onNakRnr_keeps
    | with_reducible apply State.connError_keeps | with_reducible apply keeps_ite | split

theorem State.roceBad_keeps {g : Pledge} (s : State) (n : Nat) (c : Conn) (fr : RFrame) (h : s.Keeps g) :
    (State.roceBad s n c fr).Keeps g := by
  unfold State.roceBad
  try dsimp only
  repeat' first
    | with_reducible assumption | with_reducible apply State.undefineRuns_keeps | with_reducible apply keeps_ite | split

theorem State.roceReset_keeps {g : Pledge} (s : State) (n : Nat) (c : Conn) (p : LPort) (fr : RFrame) (h : s.Keeps g) :
    (State.roceReset s n c p fr).Keeps g := by
  unfold State.roceReset
  try dsimp only
  repeat' first
    | with_reducible assumption | with_reducible apply State.fresh_keeps | with_reducible apply State.modConn_keeps
    | with_reducible apply State.enqueueOwn_keeps | with_reducible apply keeps_ite

theorem State.roceLive_keeps {g : Pledge} (s : State) (n : Nat) (c : Conn) (p : LPort) (cls : Nat) (fr : RFrame) (good : Bool)
     (h : s.Keeps g) : (State.roceLive s n c p cls fr good).Keeps g := by
  unfold State.roceLive
  try dsimp only
  repeat' first
    | with_reducible assumption | with_reducible apply State.countPort_keeps | with_reducible apply State.roceBad_keeps
    | with_reducible apply State.roceReset_keeps | with_reducible apply State.sendCnp_keeps
    | with_reducible apply State.nakRnr_keeps | with_reducible apply State.roceReply_keeps
    | with_reducible apply State.touchConn_keeps | with_reducible apply State.roceSequence_keeps
    | with_reducible apply keeps_ite

theorem State.roceTransport_keeps {g : Pledge} (s : State) (p : LPort) (fr : RFrame) (good : Bool) (h : s.Keeps g) :
    (State.roceTransport s p fr good).Keeps g := by
  unfold State.roceTransport
  try dsimp only
  repeat' first
    | with_reducible assumption | with_reducible apply State.countPort_keeps | with_reducible apply State.fetchContext_keeps
    | with_reducible apply State.roceLive_keeps | with_reducible apply State.missFrame_keeps | with_reducible apply keeps_ite
    | split

theorem State.rxRoce_keeps {g : Pledge} (s : State) (p : LPort) (fr : RFrame) (act : State → RFrame → Bool → State)
     (h : s.Keeps g) (hf : ∀ st a b, st.Keeps g → (act st a b).Keeps g) : (State.rxRoce s p fr act).Keeps g := by
  unfold State.rxRoce
  try dsimp only
  repeat' first
    | with_reducible assumption | with_reducible refine hf _ _ _ ?_ | with_reducible apply State.rxLink_keeps
    | with_reducible apply State.police_keeps | with_reducible apply State.rxCross_keeps
    | (refine keeps_of_fst (by with_reducible assumption) ?_) | with_reducible apply keeps_ite | split

theorem execRxRocePacket_keeps {g : Pledge} (p : LPort) (fr : RFrame) (s : State) (h : s.Keeps g) :
    ∀ out, execRxRocePacket p fr s = .next out → out.Keeps g := by
  unfold execRxRocePacket
  try dsimp only
  repeat' first
    | with_reducible assumption | with_reducible apply State.rxRoce_keeps | with_reducible apply State.roceTransport_keeps
    | (show ∀ _ : State, _; with_reducible apply State.frameArrival_keeps) | with_reducible refine keeps_next ?_ | split
    | (intro st a b hst; try dsimp only) | (intro st hst; try dsimp only)

theorem State.onCnp_keeps {g : Pledge} (s : State) (n : Nat) (h : s.Keeps g) : (State.onCnp s n).Keeps g := by
  unfold State.onCnp
  try dsimp only
  repeat' first
    | with_reducible assumption | with_reducible apply State.modConn_keeps

theorem execRxCnp_keeps {g : Pledge} (p : LPort) (fr : RFrame) (s : State) (h : s.Keeps g) :
    ∀ out, execRxCnp p fr s = .next out → out.Keeps g := by
  unfold execRxCnp
  try dsimp only
  repeat' first
    | with_reducible assumption | with_reducible apply State.rxRoce_keeps | with_reducible apply State.countPort_keeps
    | with_reducible apply State.onCnp_keeps | (show ∀ _ : State, _; with_reducible apply State.frameArrival_keeps)
    | with_reducible refine keeps_next ?_ | with_reducible apply keeps_ite | split | (intro st a b hst; try dsimp only)
    | (intro st hst; try dsimp only)

theorem execRpTimerExpiry_keeps {g : Pledge} (conn : Nat) (s : State) (h : s.Keeps g) :
    ∀ out, execRpTimerExpiry conn s = .next out → out.Keeps g := by
  unfold execRpTimerExpiry
  try dsimp only
  repeat' first
    | with_reducible assumption | with_reducible apply State.modTx_keeps
    | (show ∀ _ : State, _; with_reducible apply State.engine_keeps) | with_reducible apply keeps_ite | split
    | (intro st hst; try dsimp only)

theorem execContextFetchDone_keeps {g : Pledge} (conn : Nat) (obs : BlockObs) (s : State) (h : s.Keeps g) :
    ∀ out, execContextFetchDone conn obs s = .next out → out.Keeps g := by
  unfold execContextFetchDone
  try dsimp only
  repeat' first
    | with_reducible assumption | with_reducible apply State.modConn_keeps | with_reducible apply State.contextFetched_keeps
    | with_reducible apply forEach_keeps | with_reducible apply State.roceTransport_keeps
    | (show ∀ _ : State, _; with_reducible apply State.engine_keeps) | (intro st x hst; try dsimp only)
    | (intro st hst; try dsimp only)

/-! ### ConnEvents -/

theorem State.ackDelay_keeps {g : Pledge} (s : State) (n : Nat) (h : s.Keeps g) : (State.ackDelay s n).Keeps g := by
  unfold State.ackDelay
  try dsimp only
  repeat' first
    | with_reducible assumption | with_reducible apply State.sendAck_keeps | with_reducible apply keeps_ite | split

theorem execAckDelayExpiry_keeps {g : Pledge} (conn : Nat) (s : State) (h : s.Keeps g) :
    ∀ out, execAckDelayExpiry conn s = .next out → out.Keeps g := by
  unfold execAckDelayExpiry
  try dsimp only
  repeat' first
    | with_reducible assumption | with_reducible apply State.ackDelay_keeps
    | (show ∀ _ : State, _; with_reducible apply State.engine_keeps) | (intro st hst; try dsimp only)

theorem execRtoExpiry_keeps {g : Pledge} (conn : Nat) (s : State) (h : s.Keeps g) :
    ∀ out, execRtoExpiry conn s = .next out → out.Keeps g := by
  unfold execRtoExpiry
  try dsimp only
  repeat' first
    | with_reducible assumption | with_reducible apply State.rtoExpiry_keeps
    | (show ∀ _ : State, _; with_reducible apply State.engine_keeps) | (intro st hst; try dsimp only)

theorem execProbeIntervalExpiry_keeps {g : Pledge} (conn : Nat) (s : State) (h : s.Keeps g) :
    ∀ out, execProbeIntervalExpiry conn s = .next out → out.Keeps g := by
  unfold execProbeIntervalExpiry
  try dsimp only
  repeat' first
    | with_reducible assumption | with_reducible apply State.probePaths_keeps
    | (show ∀ _ : State, _; with_reducible apply State.engine_keeps) | (intro st hst; try dsimp only)

theorem execRnrRetryExpiry_keeps {g : Pledge} (conn : Nat) (s : State) (h : s.Keeps g) :
    ∀ out, execRnrRetryExpiry conn s = .next out → out.Keeps g := by
  unfold execRnrRetryExpiry
  try dsimp only
  repeat' first
    | with_reducible assumption | with_reducible apply State.rnrRetry_keeps
    | (show ∀ _ : State, _; with_reducible apply State.engine_keeps) | (intro st hst; try dsimp only)

theorem execDrainMaxExpiry_keeps {g : Pledge} (conn path : Nat) (s : State) (h : s.Keeps g) :
    ∀ out, execDrainMaxExpiry conn path s = .next out → out.Keeps g := by
  unfold execDrainMaxExpiry
  try dsimp only
  repeat' first
    | with_reducible assumption | with_reducible apply State.drainMax_keeps
    | (show ∀ _ : State, _; with_reducible apply State.engine_keeps) | (intro st hst; try dsimp only)

/-! ### LinkEvents -/

theorem State.silentJob_keeps {g : Pledge} (s : State) (f : FuncId) (h : s.Keeps g) : (State.silentJob s f).Keeps g := by
  unfold State.silentJob
  try dsimp only
  repeat' first
    | with_reducible assumption | with_reducible apply State.longDone_keeps | with_reducible apply State.modFunc_keeps
    | with_reducible apply State.abandonJob_keeps | split

theorem State.resetWhole_keeps {g : Pledge} (s : State) (f : FuncId) (h : s.Keeps g) : (State.resetWhole s f).Keeps g := by
  unfold State.resetWhole
  try dsimp only
  repeat' first
    | with_reducible assumption | with_reducible apply State.resetFunc_keeps | with_reducible apply State.silentJob_keeps

theorem State.dropInvalidates_keeps {g : Pledge} (s : State) (l : LinkId) (h : s.Keeps g) :
    (State.dropInvalidates s l).Keeps g := by
  unfold State.dropInvalidates
  try dsimp only
  repeat' first
    | with_reducible assumption | (with_reducible apply keeps_of_fields; dsimp only; with_reducible apply fields_of_keeps)

theorem State.hotReset_keeps {g : Pledge} (s : State) (l : LinkId) (h : s.Keeps g) : (State.hotReset s l).Keeps g := by
  unfold State.hotReset
  try dsimp only
  repeat' first
    | with_reducible assumption | with_reducible apply State.dropInvalidates_keeps | with_reducible apply State.modLink_keeps
    | with_reducible apply forEach_keeps | with_reducible apply State.resetWhole_keeps

theorem State.signalLink_keeps {g : Pledge} (s : State) (l : LinkId) (h : s.Keeps g) : (State.signalLink s l).Keeps g := by
  unfold State.signalLink
  try dsimp only
  repeat' first
    | with_reducible assumption | with_reducible apply forEach_keeps | with_reducible apply State.signal_keeps
    | (intro st x hst; try dsimp only)

theorem State.linkLost_keeps {g : Pledge} (s : State) (l : LinkId) (h : s.Keeps g) : (State.linkLost s l).Keeps g := by
  unfold State.linkLost
  try dsimp only
  repeat' first
    | with_reducible assumption | with_reducible apply State.modLink_keeps | with_reducible apply State.hotReset_keeps
    | with_reducible apply State.loseLink_keeps | with_reducible apply State.signalLink_keeps
    | with_reducible apply State.fault_keeps | with_reducible apply keeps_ite

theorem State.narrowLink_keeps {g : Pledge} (s : State) (l : LinkId) (rate width : Nat) (h : s.Keeps g) :
    (State.narrowLink s l rate width).Keeps g := by
  unfold State.narrowLink
  try dsimp only
  repeat' first
    | with_reducible assumption | with_reducible apply State.modLink_keeps | with_reducible apply State.postFallow_keeps
    | (with_reducible apply keeps_of_fields; dsimp only; with_reducible apply fields_of_keeps) | with_reducible apply keeps_ite

theorem State.linkBack_keeps {g : Pledge} (s0 : State) (l : LinkId) (rate width : Nat) (h : s0.Keeps g) :
    (State.linkBack s0 l rate width).Keeps g := by
  unfold State.linkBack
  try dsimp only
  repeat' first
    | with_reducible assumption | with_reducible apply State.hotReset_keeps | with_reducible apply State.signalLink_keeps
    | with_reducible apply State.modLink_keeps | with_reducible apply forEach_keeps
    | with_reducible apply State.replayLink_keeps | with_reducible apply State.sendAllGroups_keeps
    | with_reducible apply State.narrowLink_keeps | with_reducible apply State.probeLink_keeps | with_reducible apply keeps_ite

theorem State.replayOver_keeps {g : Pledge} (s : State) (l : LinkId) (h : s.Keeps g) : (State.replayOver s l).Keeps g := by
  unfold State.replayOver
  try dsimp only
  repeat' first
    | with_reducible assumption | with_reducible apply forEach_keeps | with_reducible apply State.flushDone_keeps
    | with_reducible apply State.signalLink_keeps | with_reducible apply State.modLink_keeps
    | with_reducible apply State.settle_keeps | with_reducible apply keeps_ite

theorem State.linkArrival_keeps {g : Pledge} (s : State) (c : Instr) (x : State → State) (h : s.Keeps g)
     (hf : ∀ st, st.Keeps g → (x st).Keeps g) : ∀ out, State.linkArrival s c x = .next out → out.Keeps g := by
  unfold State.linkArrival
  try dsimp only
  repeat' first
    | with_reducible assumption | with_reducible refine hf _ ?_ | with_reducible apply State.holdArrival_keeps
    | with_reducible apply State.settle_keeps | with_reducible refine keeps_next ?_ | with_reducible apply keeps_ite

theorem execLinkDown_keeps {g : Pledge} (l : LinkId) (s : State) (h : s.Keeps g) :
    ∀ out, execLinkDown l s = .next out → out.Keeps g := by
  unfold execLinkDown
  try dsimp only
  repeat' first
    | with_reducible assumption | with_reducible apply State.linkLost_keeps
    | (show ∀ _ : State, _; with_reducible apply State.linkArrival_keeps) | (intro st hst; try dsimp only)

theorem execLinkUp_keeps {g : Pledge} (l : LinkId) (rate width : Nat) (s : State) (h : s.Keeps g) :
    ∀ out, execLinkUp l rate width s = .next out → out.Keeps g := by
  unfold execLinkUp
  try dsimp only
  repeat' first
    | with_reducible assumption | with_reducible apply State.linkBack_keeps
    | (show ∀ _ : State, _; with_reducible apply State.linkArrival_keeps) | (intro st hst; try dsimp only)

theorem execReplayDone_keeps {g : Pledge} (l : LinkId) (s : State) (h : s.Keeps g) :
    ∀ out, execReplayDone l s = .next out → out.Keeps g := by
  unfold execReplayDone
  try dsimp only
  repeat' first
    | with_reducible assumption | with_reducible apply State.replayOver_keeps
    | (show ∀ _ : State, _; with_reducible apply State.arrival_keeps) | (intro st hst; try dsimp only)

theorem execRetrainWindowExpiry_keeps {g : Pledge} (l : LinkId) (s : State) (h : s.Keeps g) :
    ∀ out, execRetrainWindowExpiry l s = .next out → out.Keeps g := by
  unfold execRetrainWindowExpiry
  try dsimp only
  repeat' first
    | with_reducible assumption | with_reducible apply State.hotReset_keeps
    | (show ∀ _ : State, _; with_reducible apply State.arrival_keeps) | with_reducible apply keeps_ite
    | (intro st hst; try dsimp only)

theorem execLinkHotReset_keeps {g : Pledge} (l : LinkId) (s : State) (h : s.Keeps g) :
    ∀ out, execLinkHotReset l s = .next out → out.Keeps g := by
  unfold execLinkHotReset
  try dsimp only
  repeat' first
    | with_reducible assumption | with_reducible apply State.hotReset_keeps
    | (show ∀ _ : State, _; with_reducible apply State.arrival_keeps) | (intro st hst; try dsimp only)

theorem execFunctionLevelReset_keeps {g : Pledge} (f : FuncId) (s : State) (h : s.Keeps g) :
    ∀ out, execFunctionLevelReset f s = .next out → out.Keeps g := by
  unfold execFunctionLevelReset
  try dsimp only
  repeat' first
    | with_reducible assumption | with_reducible apply State.resetWhole_keeps
    | (show ∀ _ : State, _; with_reducible apply State.arrival_keeps) | (intro st hst; try dsimp only)

theorem execConfigResetDone_keeps {g : Pledge} (f : FuncId) (s : State) (h : s.Keeps g) :
    ∀ out, execConfigResetDone f s = .next out → out.Keeps g := by
  unfold execConfigResetDone
  try dsimp only
  repeat' first
    | with_reducible assumption | with_reducible apply State.configDone_keeps
    | (show ∀ _ : State, _; with_reducible apply State.arrival_keeps) | (intro st hst; try dsimp only)

theorem execAttachMsExpiry_keeps {g : Pledge} (f : FuncId) (s : State) (h : s.Keeps g) :
    ∀ out, execAttachMsExpiry f s = .next out → out.Keeps g := by
  unfold execAttachMsExpiry
  try dsimp only
  repeat' first
    | with_reducible assumption | with_reducible apply State.startTeardown_keeps
    | (show ∀ _ : State, _; with_reducible apply State.engine_keeps) | with_reducible apply keeps_ite
    | (intro st hst; try dsimp only)

theorem execTeardownDone_keeps {g : Pledge} (f : FuncId) (s : State) (h : s.Keeps g) :
    ∀ out, execTeardownDone f s = .next out → out.Keeps g := by
  unfold execTeardownDone
  try dsimp only
  repeat' first
    | with_reducible assumption | with_reducible apply State.teardownDone_keeps
    | (show ∀ _ : State, _; with_reducible apply State.engine_keeps) | (intro st hst; try dsimp only)

theorem State.vfsOn_keeps {g : Pledge} (s : State) (l : LinkId) (n : Nat) (h : s.Keeps g) : (State.vfsOn s l n).Keeps g := by
  unfold State.vfsOn
  try dsimp only
  repeat' first
    | with_reducible assumption | with_reducible apply forEach_keeps | with_reducible apply State.modLink_keeps
    | with_reducible apply State.configWrite_keeps | with_reducible apply State.modFunc_keeps | with_reducible apply keeps_ite
    | (intro st x hst; try dsimp only)

theorem State.vfsOff_keeps {g : Pledge} (s : State) (l : LinkId) (n : Nat) (h : s.Keeps g) : (State.vfsOff s l n).Keeps g := by
  unfold State.vfsOff
  try dsimp only
  repeat' first
    | with_reducible assumption | with_reducible apply forEach_keeps | with_reducible apply State.modLink_keeps
    | with_reducible apply State.configWrite_keeps | with_reducible apply State.destroyFunc_keeps
    | with_reducible apply State.silentJob_keeps | with_reducible apply State.resetWhole_keeps | with_reducible apply keeps_ite
    | split | (intro st x hst; try dsimp only)

theorem execVfEnable_keeps {g : Pledge} (l : LinkId) (numVfs : Nat) (s : State) (h : s.Keeps g) :
    ∀ out, execVfEnable l numVfs s = .next out → out.Keeps g := by
  unfold execVfEnable
  try dsimp only
  repeat' first
    | with_reducible assumption | with_reducible apply State.vfsOn_keeps
    | (show ∀ _ : State, _; with_reducible apply State.arrival_keeps) | (intro st hst; try dsimp only)

theorem execVfDisable_keeps {g : Pledge} (l : LinkId) (numVfs : Nat) (s : State) (h : s.Keeps g) :
    ∀ out, execVfDisable l numVfs s = .next out → out.Keeps g := by
  unfold execVfDisable
  try dsimp only
  repeat' first
    | with_reducible assumption | with_reducible apply State.vfsOff_keeps
    | (show ∀ _ : State, _; with_reducible apply State.arrival_keeps) | (intro st hst; try dsimp only)

theorem execD3hotEntry_keeps {g : Pledge} (f : FuncId) (s : State) (h : s.Keeps g) :
    ∀ out, execD3hotEntry f s = .next out → out.Keeps g := by
  unfold execD3hotEntry
  try dsimp only
  repeat' first
    | with_reducible assumption | with_reducible apply State.modFunc_keeps | with_reducible apply State.configWrite_keeps
    | (show ∀ _ : State, _; with_reducible apply State.arrival_keeps) | with_reducible apply keeps_ite
    | (intro st hst; try dsimp only)

theorem execD0Return_keeps {g : Pledge} (f : FuncId) (s : State) (h : s.Keeps g) :
    ∀ out, execD0Return f s = .next out → out.Keeps g := by
  unfold execD0Return
  try dsimp only
  repeat' first
    | with_reducible assumption | with_reducible apply State.sendAllGroups_keeps | with_reducible apply State.modFunc_keeps
    | with_reducible apply State.configWrite_keeps | (show ∀ _ : State, _; with_reducible apply State.arrival_keeps)
    | with_reducible apply keeps_ite | (intro st hst; try dsimp only)

theorem execL1IdleEntry_keeps {g : Pledge} (l : LinkId) (s : State) (h : s.Keeps g) :
    ∀ out, execL1IdleEntry l s = .next out → out.Keeps g := by
  unfold execL1IdleEntry
  try dsimp only
  repeat' first
    | with_reducible assumption | with_reducible apply State.modLink_keeps | with_reducible apply State.emit_keeps
    | (show ∀ _ : State, _; with_reducible apply State.engine_keeps) | with_reducible apply keeps_ite
    | (intro st hst; try dsimp only)

theorem execL0pNarrow_keeps {g : Pledge} (l : LinkId) (s : State) (h : s.Keeps g) :
    ∀ out, execL0pNarrow l s = .next out → out.Keeps g := by
  unfold execL0pNarrow
  try dsimp only
  repeat' first
    | with_reducible assumption | with_reducible apply State.modLink_keeps
    | (show ∀ _ : State, _; with_reducible apply State.engine_keeps) | with_reducible apply keeps_ite
    | (intro st hst; try dsimp only)

/-! ### PortEvents -/

theorem State.laneEvent_keeps {g : Pledge} (s : State) (x : State → State) (h : s.Keeps g)
     (hf : ∀ st, st.Keeps g → (x st).Keeps g) : ∀ out, State.laneEvent s x = .next out → out.Keeps g := by
  unfold State.laneEvent
  try dsimp only
  repeat' first
    | with_reducible assumption | with_reducible refine hf _ ?_ | with_reducible apply State.settle_keeps
    | with_reducible refine keeps_next ?_ | with_reducible apply keeps_ite

theorem State.laneErrors_keeps {g : Pledge} (s : State) (ph : PhysId) (lane : Nat) (h : s.Keeps g) :
    (State.laneErrors s ph lane).Keeps g := by
  unfold State.laneErrors
  try dsimp only
  repeat' first
    | with_reducible assumption | with_reducible apply State.beginSwap_keeps | with_reducible apply keeps_ite

theorem State.laneLost_keeps {g : Pledge} (s : State) (ph : PhysId) (lane : Nat) (h : s.Keeps g) :
    (State.laneLost s ph lane).Keeps g := by
  unfold State.laneLost
  try dsimp only
  repeat' first
    | with_reducible assumption | with_reducible apply State.beginSwap_keeps | with_reducible apply State.loseLane_keeps
    | with_reducible apply keeps_ite

theorem State.portTrained_keeps {g : Pledge} (s : State) (p : LPort) (peer reversed : Bool) (h : s.Keeps g) :
    (State.portTrained s p peer reversed).Keeps g := by
  unfold State.portTrained
  try dsimp only
  repeat' first
    | with_reducible assumption | with_reducible apply State.trainPort_keeps | with_reducible apply State.modPort_keeps
    | with_reducible apply keeps_ite

theorem execLaneSerExceeded_keeps {g : Pledge} (ph : PhysId) (lane : Fin 9) (s : State) (h : s.Keeps g) :
    ∀ out, execLaneSerExceeded ph lane s = .next out → out.Keeps g := by
  unfold execLaneSerExceeded
  try dsimp only
  repeat' first
    | with_reducible assumption | with_reducible apply State.laneErrors_keeps
    | (show ∀ _ : State, _; with_reducible apply State.laneEvent_keeps) | (intro st hst; try dsimp only)

theorem execLaneSignalLoss_keeps {g : Pledge} (ph : PhysId) (lane : Fin 9) (s : State) (h : s.Keeps g) :
    ∀ out, execLaneSignalLoss ph lane s = .next out → out.Keeps g := by
  unfold execLaneSignalLoss
  try dsimp only
  repeat' first
    | with_reducible assumption | with_reducible apply State.laneLost_keeps
    | (show ∀ _ : State, _; with_reducible apply State.laneEvent_keeps) | (intro st hst; try dsimp only)

theorem execLaneSwapDone_keeps {g : Pledge} (ph : PhysId) (s : State) (h : s.Keeps g) :
    ∀ out, execLaneSwapDone ph s = .next out → out.Keeps g := by
  unfold execLaneSwapDone
  try dsimp only
  repeat' first
    | with_reducible assumption | with_reducible apply State.swapDone_keeps
    | (show ∀ _ : State, _; with_reducible apply State.laneEvent_keeps) | (intro st hst; try dsimp only)

theorem execPortLinkDown_keeps {g : Pledge} (p : LPort) (s : State) (h : s.Keeps g) :
    ∀ out, execPortLinkDown p s = .next out → out.Keeps g := by
  unfold execPortLinkDown
  try dsimp only
  repeat' first
    | with_reducible assumption | with_reducible apply State.portLost_keeps
    | (show ∀ _ : State, _; with_reducible apply State.laneEvent_keeps) | (intro st hst; try dsimp only)

theorem execPortLinkUp_keeps {g : Pledge} (p : LPort) (peer7440 reversed : Bool) (s : State) (h : s.Keeps g) :
    ∀ out, execPortLinkUp p peer7440 reversed s = .next out → out.Keeps g := by
  unfold execPortLinkUp
  try dsimp only
  repeat' first
    | with_reducible assumption | with_reducible apply State.portTrained_keeps
    | (show ∀ _ : State, _; with_reducible apply State.laneEvent_keeps) | (intro st hst; try dsimp only)

/-! ### RunEvents -/

theorem execRunStart_keeps {g : Pledge} (prog : Nat) (feed : List Piece) (s : State) (h : s.Keeps g) :
    ∀ out, execRunStart prog feed s = .next out → out.Keeps g := by
  unfold execRunStart
  try dsimp only
  repeat' first
    | with_reducible assumption | with_reducible apply State.startRun_keeps
    | (show ∀ _ : State, _; with_reducible apply State.engine_keeps) | (intro st hst; try dsimp only)

theorem execRunScheduleEnd_keeps {g : Pledge} (prog : Nat) (s : State) (h : s.Keeps g) :
    ∀ out, execRunScheduleEnd prog s = .next out → out.Keeps g := by
  unfold execRunScheduleEnd
  try dsimp only
  repeat' first
    | with_reducible assumption | with_reducible apply State.scheduleEnd_keeps
    | (show ∀ _ : State, _; with_reducible apply State.engine_keeps) | (intro st hst; try dsimp only)

theorem execRunEnd_keeps {g : Pledge} (prog : Nat) (ops : List TineOp) (outs : List Piece) (added : List Nat) (cycles : Nat)
     (s : State) (h : s.Keeps g) : ∀ out, execRunEnd prog ops outs added cycles s = .next out → out.Keeps g := by
  unfold execRunEnd
  try dsimp only
  repeat' first
    | with_reducible assumption | with_reducible apply State.finishRun_keeps
    | (show ∀ _ : State, _; with_reducible apply State.engine_keeps) | (intro st hst; try dsimp only)

theorem execGleanStepReached_keeps {g : Pledge} (prog : Nat) (step : Word32) (data : Bytes) (s : State) (h : s.Keeps g) :
    ∀ out, execGleanStepReached prog step data s = .next out → out.Keeps g := by
  unfold execGleanStepReached
  try dsimp only
  repeat' first
    | with_reducible assumption | with_reducible apply State.gleanReached_keeps
    | (show ∀ _ : State, _; with_reducible apply State.engine_keeps) | (intro st hst; try dsimp only)

theorem execRampGranted_keeps {g : Pledge} (prog : Nat) (s : State) (h : s.Keeps g) :
    ∀ out, execRampGranted prog s = .next out → out.Keeps g := by
  unfold execRampGranted
  try dsimp only
  repeat' first
    | with_reducible assumption | with_reducible apply State.rampGranted_keeps
    | (show ∀ _ : State, _; with_reducible apply State.engine_keeps) | (intro st hst; try dsimp only)

theorem execWarmHoldExpiry_keeps {g : Pledge} (fur : FurrowId) (s : State) (h : s.Keeps g) :
    ∀ out, execWarmHoldExpiry fur s = .next out → out.Keeps g := by
  unfold execWarmHoldExpiry
  try dsimp only
  repeat' first
    | with_reducible assumption | with_reducible apply State.warmExpiry_keeps
    | (show ∀ _ : State, _; with_reducible apply State.engine_keeps) | (intro st hst; try dsimp only)

theorem execTineFault_keeps {g : Pledge} (fur : FurrowId) (core tine : Fin 16) (s : State) (h : s.Keeps g) :
    ∀ out, execTineFault fur core tine s = .next out → out.Keeps g := by
  unfold execTineFault
  try dsimp only
  repeat' first
    | with_reducible assumption | with_reducible apply State.tineFault_keeps
    | (show ∀ _ : State, _; with_reducible apply State.engine_keeps) | (intro st hst; try dsimp only)

theorem execTineThresholdDraw_keeps {g : Pledge} (fur : FurrowId) (core tine : Fin 16) (s : State) (h : s.Keeps g) :
    ∀ out, execTineThresholdDraw fur core tine s = .next out → out.Keeps g := by
  unfold execTineThresholdDraw
  try dsimp only
  repeat' first
    | with_reducible assumption | with_reducible apply State.thresholdDraw_keeps
    | (show ∀ _ : State, _; with_reducible apply State.engine_keeps) | (intro st hst; try dsimp only)

theorem State.unloadTimeout_keeps {g : Pledge} (s : State) (f : FuncId) (h : s.Keeps g) : (State.unloadTimeout s f).Keeps g := by
  unfold State.unloadTimeout
  try dsimp only
  repeat' first
    | with_reducible assumption | with_reducible apply State.abortRun_keeps | with_reducible apply keeps_ite | split

theorem execUnloadRunTimeout_keeps {g : Pledge} (f : FuncId) (s : State) (h : s.Keeps g) :
    ∀ out, execUnloadRunTimeout f s = .next out → out.Keeps g := by
  unfold execUnloadRunTimeout
  try dsimp only
  repeat' first
    | with_reducible assumption | with_reducible apply State.unloadTimeout_keeps
    | (show ∀ _ : State, _; with_reducible apply State.engine_keeps) | (intro st hst; try dsimp only)

/-! ### MemEvents -/

theorem scrubNext_bytes (m : MemSt) (tilth : Bool) (now : Nat) : (m.scrubNext tilth now).bytes = m.bytes := by
  unfold MemSt.scrubNext
  dsimp only
  split <;> rfl

theorem State.patrol_keeps {g : Pledge} (s : State) (tilth : Bool) (obs : BlockObs) (h : s.Keeps g) : (s.patrol tilth obs).Keeps g := by
  unfold State.patrol
  split
  · exact h
  · have h1 := State.decodeBlock_keeps s (s.mem.scrubAt tilth).1 obs h
    exact State.Keeps.congr (s := (s.decodeBlock (s.mem.scrubAt tilth).1 obs).1) rfl (scrubNext_bytes _ _ _) rfl rfl rfl h1

theorem execPatrolScrub_keeps {g : Pledge} (tilth : Bool) (obs : BlockObs) (s : State) (h : s.Keeps g) :
    ∀ out, execPatrolScrub tilth obs s = .next out → out.Keeps g := by
  unfold execPatrolScrub
  try dsimp only
  repeat' first
    | with_reducible assumption | with_reducible apply State.patrol_keeps
    | (show ∀ _ : State, _; with_reducible apply State.engine_keeps) | (intro st hst; try dsimp only)

theorem execRehashDone_keeps {g : Pledge} (stack : Fin 4) (s : State) (h : s.Keeps g) :
    ∀ out, execRehashDone stack s = .next out → out.Keeps g := by
  unfold execRehashDone
  try dsimp only
  repeat' first
    | with_reducible assumption | (show ∀ _ : State, _; with_reducible apply State.engine_keeps)
    | (with_reducible apply keeps_of_fields; dsimp only; with_reducible apply fields_of_keeps) | (intro st hst; try dsimp only)

theorem State.hotEnd_keeps {g : Pledge} (s : State) (f : FuncId) (h : s.Keeps g) : (State.hotEnd s f).Keeps g := by
  unfold State.hotEnd
  try dsimp only
  repeat' first
    | with_reducible assumption | with_reducible apply State.modFunc_keeps | with_reducible apply State.signalBound_keeps
    | (with_reducible apply keeps_of_fields; dsimp only; with_reducible apply fields_of_keeps) | with_reducible apply keeps_ite

theorem execHotIntervalEnd_keeps {g : Pledge} (f : FuncId) (s : State) (h : s.Keeps g) :
    ∀ out, execHotIntervalEnd f s = .next out → out.Keeps g := by
  unfold execHotIntervalEnd
  try dsimp only
  repeat' first
    | with_reducible assumption | with_reducible apply State.hotEnd_keeps
    | (show ∀ _ : State, _; with_reducible apply State.engine_keeps) | (intro st hst; try dsimp only)

theorem State.summarise_keeps {g : Pledge} (s : State) (f : FuncId) (h : s.Keeps g) : (State.summarise s f).Keeps g := by
  unfold State.summarise
  try dsimp only
  repeat' first
    | with_reducible assumption | with_reducible apply State.post_keeps | with_reducible apply State.modFunc_keeps
    | with_reducible apply keeps_ite

theorem execFaultSummaryPost_keeps {g : Pledge} (f : FuncId) (s : State) (h : s.Keeps g) :
    ∀ out, execFaultSummaryPost f s = .next out → out.Keeps g := by
  unfold execFaultSummaryPost
  try dsimp only
  repeat' first
    | with_reducible assumption | with_reducible apply State.summarise_keeps | with_reducible refine keeps_next ?_

/-! ### FwEvents -/

theorem execFwWatchdogExpiry_keeps {g : Pledge} (s : State) (h : s.Keeps g) :
    ∀ out, execFwWatchdogExpiry s = .next out → out.Keeps g := by
  unfold execFwWatchdogExpiry
  try dsimp only
  repeat' first
    | with_reducible assumption | with_reducible apply State.settle_keeps | with_reducible apply State.beginRestart_keeps
    | with_reducible refine keeps_next ?_ | with_reducible apply keeps_ite

theorem execFwFault_keeps {g : Pledge} (s : State) (h : s.Keeps g) : ∀ out, execFwFault s = .next out → out.Keeps g := by
  unfold execFwFault
  try dsimp only
  repeat' first
    | with_reducible assumption | with_reducible apply State.settle_keeps | with_reducible apply State.beginRestart_keeps
    | with_reducible refine keeps_next ?_ | with_reducible apply keeps_ite

theorem State.restartAnswer_keeps {g : Pledge} (s : State) (f : FuncId) (h : s.Keeps g) : (State.restartAnswer s f).Keeps g := by
  unfold State.restartAnswer
  try dsimp only
  repeat' first
    | with_reducible assumption | with_reducible apply State.answerLong_keeps | with_reducible apply State.abandonJob_keeps
    | split

theorem State.restartDone_keeps {g : Pledge} (s : State) (h : s.Keeps g) : (State.restartDone s).Keeps g := by
  unfold State.restartDone
  try dsimp only
  repeat' first
    | with_reducible assumption | with_reducible apply forEach_keeps | with_reducible apply State.restartAnswer_keeps
    | with_reducible apply State.post_keeps
    | (with_reducible apply keeps_of_fields; dsimp only; with_reducible apply fields_of_keeps) | split
    | (intro st x hst; try dsimp only)

theorem execFwRestartDone_keeps {g : Pledge} (s : State) (h : s.Keeps g) :
    ∀ out, execFwRestartDone s = .next out → out.Keeps g := by
  unfold execFwRestartDone
  try dsimp only
  repeat' first
    | with_reducible assumption | with_reducible apply State.settle_keeps | with_reducible apply State.restartDone_keeps
    | with_reducible refine keeps_next ?_ | with_reducible apply keeps_ite

/-! ### Boot -/

theorem setBootLog_keeps {g : Pledge} (s d : State) (l : List BootRec) (h : s.Keeps g) (hd : d.Keeps g) :
    State.Keeps g { d with mram := { s.mram with bootLog := l } } := ⟨hd.1, hd.2.1, h.2.2⟩

theorem State.logBoot_keeps {g : Pledge} (s : State) (step unit method result count : Nat) (h : s.Keeps g) :
    (s.logBoot step unit method result count).Keeps g := by
  unfold State.logBoot
  extract_lets
  exact setBootLog_keeps _ _ _ h (State.fresh_keeps s h)

theorem State.closeInterrupted_keeps {g : Pledge} (s : State) (h : s.Keeps g) : (State.closeInterrupted s).Keeps g := by
  unfold State.closeInterrupted
  try dsimp only
  repeat' first
    | with_reducible assumption | with_reducible apply State.logBoot_keeps | split

theorem State.noteBootFail_keeps {g : Pledge} (s : State) (step unit : Nat) (h : s.Keeps g) :
    (State.noteBootFail s step unit).Keeps g := by
  unfold State.noteBootFail
  try dsimp only
  repeat' first
    | with_reducible assumption | (with_reducible apply keeps_of_fields; dsimp only; with_reducible apply fields_of_keeps)

theorem State.closeTimeout_keeps {g : Pledge} (s : State) (h : s.Keeps g) : (State.closeTimeout s).Keeps g := by
  unfold State.closeTimeout
  try dsimp only
  repeat' first
    | with_reducible assumption | with_reducible apply State.noteBootFail_keeps | with_reducible apply State.logBoot_keeps
    | split

theorem State.cold_keeps {g : Pledge} (s : State) (warm : Bool) (h : s.Keeps g) : (s.cold warm).Keeps g := ⟨h.1, rfl, h.2.2⟩

/-- Writing both image slots leaves the pledge's fields alone. -/
theorem setSlots_keeps {g : Pledge} (s : State) (i k l : Nat) (v w : ImageSlot) (h : s.Keeps g) :
    State.Keeps g { s with image := i, mram := (s.mram.setSlot k v).setSlot l w } := by
  unfold Mram.setSlot
  split <;> split <;> exact h

theorem State.runImage_keeps {g : Pledge} (s : State) (k : Nat) (h : s.Keeps g) : (s.runImage k).Keeps g := by
  unfold State.runImage
  extract_lets
  split
  · exact setSlots_keeps s _ _ _ _ _ h
  · exact State.postFallow_keeps _ _ _ _ _ _ _ _ _ (setSlots_keeps s _ _ _ _ _ h)

theorem State.completeIntent_keeps {g : Pledge} (s : State) (h : s.Keeps g) : s.completeIntent.Keeps g := by
  unfold State.completeIntent
  split
  · exact h
  · split
    · exact h
    · next hlc =>
      exact ⟨h.1, h.2.1, h.2.2.1, fun e => by simp [h.2.2.2.1 e], fun e => absurd (h.2.2.2.2 e) hlc⟩

theorem State.darken_keeps {g : Pledge} (s : State) (ph : PhysId) (h : s.Keeps g) : (State.darken s ph).Keeps g := by
  unfold State.darken
  try dsimp only
  repeat' first
    | with_reducible assumption | with_reducible apply State.modPhys_keeps

theorem State.skipFurrow_keeps {g : Pledge} (s : State) (u : Nat) (h : s.Keeps g) : (State.skipFurrow s u).Keeps g := by
  unfold State.skipFurrow
  try dsimp only
  repeat' first
    | with_reducible assumption | with_reducible apply forEach_keeps | with_reducible apply State.postFallow_keeps
    | (with_reducible apply keeps_of_fields; dsimp only; with_reducible apply fields_of_keeps)
    | (intro st x hst; try dsimp only)

theorem State.bootWork_keeps {g : Pledge} (s : State) (r : BootReport) (step unit method : Nat) (h : s.Keeps g) :
    (State.bootWork s r step unit method).Keeps g := by
  unfold State.bootWork
  try dsimp only
  repeat' first
    | with_reducible assumption | with_reducible apply State.postFallow_keeps | with_reducible apply State.holdupMeasured_keeps
    | with_reducible apply State.runImage_keeps | with_reducible apply forEach_keeps
    | with_reducible apply State.retireGranule_keeps | with_reducible apply State.mapOut_keeps
    | with_reducible apply State.completeIntent_keeps | with_reducible apply State.skipFurrow_keeps
    | with_reducible apply State.tineFault_keeps | with_reducible apply State.darken_keeps
    | (with_reducible apply keeps_of_fields; dsimp only; with_reducible apply fields_of_keeps) | with_reducible apply keeps_ite
    | split | (intro st x hst; try dsimp only)

/-- Clearing a step's failures leaves the pledge's fields alone. -/
theorem setFails_keeps {g : Pledge} (s : State) (c : Tbl Nat) (h : s.Keeps g) :
    State.Keeps g { s with mram := { s.mram with failCount := c } } := h

theorem bootFrom_keeps {g : Pledge} (r : BootReport) (l : List (Nat × Nat)) (s : State) (h : s.Keeps g) :
    (bootFrom r l s).1.Keeps g := by
  induction l generalizing s with
  | nil => exact h
  | cons p rest ih =>
    unfold bootFrom
    extract_lets count method s1
    have h1 : s1.Keeps g := State.logBoot_keeps s _ _ _ _ _ h
    clear_value s1
    split
    · exact h
    · split
      · exact h1
      · split
        · exact State.noteBootFail_keeps _ _ _ (State.logBoot_keeps s1 _ _ _ _ _ h1)
        · exact ih _ (State.logBoot_keeps _ _ _ _ _ _ (setFails_keeps _ _ (State.bootWork_keeps s1 _ _ _ _ h1)))

theorem State.bootPass_keeps {g : Pledge} (s : State) (r : BootReport) (h : s.Keeps g) : (State.bootPass s r).1.Keeps g := by
  unfold State.bootPass
  try dsimp only
  repeat' first
    | with_reducible assumption | with_reducible apply State.closeTimeout_keeps | with_reducible apply bootFrom_keeps
    | (with_reducible apply keeps_of_fields; dsimp only; with_reducible apply fields_of_keeps)

theorem State.darkenAll_keeps {g : Pledge} (s : State) (h : s.Keeps g) : (State.darkenAll s).Keeps g := by
  unfold State.darkenAll
  try dsimp only
  repeat' first
    | with_reducible assumption | with_reducible apply forEach_keeps | with_reducible apply State.darken_keeps

theorem State.serviceUp_keeps {g : Pledge} (s : State) (h : s.Keeps g) : (State.serviceUp s).Keeps g := by
  unfold State.serviceUp
  try dsimp only
  repeat' first
    | with_reducible assumption | with_reducible apply State.darkenAll_keeps | with_reducible apply State.globalStop_keeps
    | (with_reducible apply keeps_of_fields; dsimp only; with_reducible apply fields_of_keeps) | with_reducible apply keeps_ite

theorem State.holdSafe_keeps {g : Pledge} (s : State) (step : Nat) (h : s.Keeps g) : (State.holdSafe s step).Keeps g := by
  unfold State.holdSafe
  try dsimp only
  repeat' first
    | with_reducible assumption | with_reducible apply State.darkenAll_keeps
    | (with_reducible apply keeps_of_fields; dsimp only; with_reducible apply fields_of_keeps) | with_reducible apply keeps_ite

theorem State.boot_keeps {g : Pledge} (x0 : List BootReport) (x1 : State) (h : x1.Keeps g) : (State.boot x0 x1).Keeps g := by
  induction x0 generalizing x1 with
  | nil => exact h
  | cons p rest ih =>
    unfold State.boot
    try dsimp only
    repeat' first
      | with_reducible apply ih | with_reducible assumption | with_reducible apply State.cold_keeps
      | with_reducible apply State.bootPass_keeps | with_reducible apply State.serviceUp_keeps
      | with_reducible apply State.holdSafe_keeps | (refine keeps_of_fst (by with_reducible assumption) ?_) | split

/-! ### PowerEvents -/

theorem State.powerOn_keeps {g : Pledge} (s : State) (boots : List BootReport) (h : s.Keeps g) :
    (State.powerOn s boots).Keeps g := by
  unfold State.powerOn
  try dsimp only
  repeat' first
    | with_reducible assumption | with_reducible apply State.cold_keeps | with_reducible apply State.boot_keeps
    | (with_reducible apply keeps_of_fields; dsimp only; with_reducible apply fields_of_keeps) | with_reducible apply keeps_ite

theorem State.moduleReset_keeps {g : Pledge} (s : State) (boots : List BootReport) (h : s.Keeps g) :
    (State.moduleReset s boots).Keeps g := by
  unfold State.moduleReset
  try dsimp only
  repeat' first
    | with_reducible assumption | with_reducible apply State.boot_keeps | with_reducible apply State.cold_keeps
    | with_reducible apply keeps_ite

theorem execPowerOn_keeps {g : Pledge} (boots : List BootReport) (s : State) (h : s.Keeps g) :
    ∀ out, execPowerOn boots s = .next out → out.Keeps g := by
  unfold execPowerOn
  try dsimp only
  repeat' first
    | with_reducible assumption | with_reducible apply State.powerOn_keeps | with_reducible refine keeps_next ?_

theorem execModuleResetStart_keeps {g : Pledge} (boots : List BootReport) (s : State) (h : s.Keeps g) :
    ∀ out, execModuleResetStart boots s = .next out → out.Keeps g := by
  unfold execModuleResetStart
  try dsimp only
  repeat' first
    | with_reducible assumption | with_reducible apply State.moduleReset_keeps | with_reducible refine keeps_next ?_
    | with_reducible apply keeps_ite

theorem execMrstAssert_keeps {g : Pledge} (boots : List BootReport) (s : State) (h : s.Keeps g) :
    ∀ out, execMrstAssert boots s = .next out → out.Keeps g := by
  unfold execMrstAssert
  try dsimp only
  repeat' first
    | with_reducible assumption | with_reducible apply State.moduleReset_keeps | with_reducible refine keeps_next ?_

theorem State.powerDown_keeps {g : Pledge} (s : State) (cause : Nat) (shutdown : Bool) (h : s.Keeps g) :
    (State.powerDown s cause shutdown).Keeps g := by
  unfold State.powerDown
  try dsimp only
  repeat' first
    | with_reducible assumption | with_reducible apply State.cold_keeps | with_reducible apply State.closeInterrupted_keeps
    | (with_reducible apply keeps_of_fields; dsimp only; with_reducible apply fields_of_keeps)

theorem State.shutdown_keeps {g : Pledge} (s : State) (bit_ : Nat) (h : s.Keeps g) : (State.shutdown s bit_).Keeps g := by
  unfold State.shutdown
  try dsimp only
  repeat' first
    | with_reducible assumption | with_reducible apply State.powerDown_keeps | with_reducible apply keeps_ite

theorem State.powerLost_keeps {g : Pledge} (s : State) (h : s.Keeps g) : (State.powerLost s).Keeps g := by
  unfold State.powerLost
  try dsimp only
  repeat' first
    | with_reducible assumption | with_reducible apply State.powerDown_keeps
    | (with_reducible apply keeps_of_fields; dsimp only; with_reducible apply fields_of_keeps) | with_reducible apply keeps_ite

theorem execPowerLoss_keeps {g : Pledge} (s : State) (h : s.Keeps g) : ∀ out, execPowerLoss s = .next out → out.Keeps g := by
  unfold execPowerLoss
  try dsimp only
  repeat' first
    | with_reducible assumption | with_reducible apply State.powerLost_keeps | with_reducible refine keeps_next ?_

theorem execPowerLossFlushDone_keeps {g : Pledge} (s : State) (h : s.Keeps g) :
    ∀ out, execPowerLossFlushDone s = .next out → out.Keeps g := by
  unfold execPowerLossFlushDone
  try dsimp only
  repeat' first
    | with_reducible assumption | with_reducible refine keeps_next ?_
    | (with_reducible apply keeps_of_fields; dsimp only; with_reducible apply fields_of_keeps) | with_reducible apply keeps_ite

theorem execHoldupMeasure_keeps {g : Pledge} (mj : Nat) (s : State) (h : s.Keeps g) :
    ∀ out, execHoldupMeasure mj s = .next out → out.Keeps g := by
  unfold execHoldupMeasure
  try dsimp only
  repeat' first
    | with_reducible assumption | with_reducible apply State.settle_keeps | with_reducible apply State.holdupMeasured_keeps
    | with_reducible refine keeps_next ?_ | with_reducible apply keeps_ite

theorem execInputInsertion_keeps {g : Pledge} (millivolts : Nat) (s : State) (h : s.Keeps g) :
    ∀ out, execInputInsertion millivolts s = .next out → out.Keeps g := by
  unfold execInputInsertion
  try dsimp only
  repeat' first
    | with_reducible assumption | with_reducible refine keeps_next ?_
    | (with_reducible apply keeps_of_fields; dsimp only; with_reducible apply fields_of_keeps) | with_reducible apply keeps_ite

theorem State.lowerLoad_keeps {g : Pledge} (s : State) (h : s.Keeps g) : (State.lowerLoad s).Keeps g := by
  unfold State.lowerLoad
  try dsimp only
  repeat' first
    | with_reducible assumption | with_reducible apply State.markLate_keeps
    | (with_reducible apply keeps_of_fields; dsimp only; with_reducible apply fields_of_keeps) | with_reducible apply keeps_ite

theorem State.raiseLoad_keeps {g : Pledge} (s : State) (h : s.Keeps g) : (State.raiseLoad s).Keeps g := by
  unfold State.raiseLoad
  try dsimp only
  repeat' first
    | with_reducible assumption | (with_reducible apply keeps_of_fields; dsimp only; with_reducible apply fields_of_keeps)
    | with_reducible apply keeps_ite

theorem State.powerSample_keeps {g : Pledge} (s : State) (r0 : PowerReading) (h : s.Keeps g) :
    (State.powerSample s r0).Keeps g := by
  unfold State.powerSample
  try dsimp only
  repeat' first
    | with_reducible assumption | with_reducible apply State.shutdown_keeps | with_reducible apply State.lowerLoad_keeps
    | with_reducible apply State.raiseLoad_keeps
    | (with_reducible apply keeps_of_fields; dsimp only; with_reducible apply fields_of_keeps) | with_reducible apply keeps_ite
    | split

theorem execPowerSample_keeps {g : Pledge} (r : PowerReading) (s : State) (h : s.Keeps g) :
    ∀ out, execPowerSample r s = .next out → out.Keeps g := by
  unfold execPowerSample
  try dsimp only
  repeat' first
    | with_reducible assumption | with_reducible apply State.powerSample_keeps | with_reducible refine keeps_next ?_
    | with_reducible apply keeps_ite

theorem State.throttle_keeps {g : Pledge} (s : State) (f : Nat) (v : Int) (h : s.Keeps g) : (State.throttle s f v).Keeps g := by
  unfold State.throttle
  try dsimp only
  repeat' first
    | with_reducible assumption | with_reducible apply State.markLate_keeps
    | (with_reducible apply keeps_of_fields; dsimp only; with_reducible apply fields_of_keeps) | with_reducible apply keeps_ite

theorem State.thermalSample_keeps {g : Pledge} (s : State) (t : Temps) (h : s.Keeps g) : (State.thermalSample s t).Keeps g := by
  unfold State.thermalSample
  try dsimp only
  repeat' first
    | with_reducible assumption | with_reducible apply State.shutdown_keeps | with_reducible apply forEach_keeps
    | with_reducible apply State.throttle_keeps
    | (with_reducible apply keeps_of_fields; dsimp only; with_reducible apply fields_of_keeps) | with_reducible apply keeps_ite
    | split | (intro st x hst; try dsimp only)

theorem execThermalSample_keeps {g : Pledge} (t : Temps) (s : State) (h : s.Keeps g) :
    ∀ out, execThermalSample t s = .next out → out.Keeps g := by
  unfold execThermalSample
  try dsimp only
  repeat' first
    | with_reducible assumption | with_reducible apply State.thermalSample_keeps | with_reducible apply State.shutdown_keeps
    | with_reducible refine keeps_next ?_
    | (with_reducible apply keeps_of_fields; dsimp only; with_reducible apply fields_of_keeps) | with_reducible apply keeps_ite

theorem execOvercurrent_keeps {g : Pledge} (milliamps : Nat) (held50us : Bool) (s : State) (h : s.Keeps g) :
    ∀ out, execOvercurrent milliamps held50us s = .next out → out.Keeps g := by
  unfold execOvercurrent
  try dsimp only
  repeat' first
    | with_reducible assumption | with_reducible apply State.shutdown_keeps | with_reducible refine keeps_next ?_
    | with_reducible apply keeps_ite

theorem execPpsInEdge_keeps {g : Pledge} (s : State) (h : s.Keeps g) : ∀ out, execPpsInEdge s = .next out → out.Keeps g := by
  unfold execPpsInEdge
  try dsimp only
  repeat' first
    | with_reducible assumption | with_reducible refine keeps_next ?_
    | (with_reducible apply keeps_of_fields; dsimp only; with_reducible apply fields_of_keeps) | with_reducible apply keeps_ite

theorem execPpsOutSecond_keeps {g : Pledge} (s : State) (h : s.Keeps g) :
    ∀ out, execPpsOutSecond s = .next out → out.Keeps g := by
  unfold execPpsOutSecond
  try dsimp only
  repeat' first
    | with_reducible assumption | with_reducible apply State.emit_keeps | with_reducible refine keeps_next ?_
    | (with_reducible apply keeps_of_fields; dsimp only; with_reducible apply fields_of_keeps) | with_reducible apply keeps_ite

theorem execRefLock_keeps {g : Pledge} (s : State) (h : s.Keeps g) : ∀ out, execRefLock s = .next out → out.Keeps g := by
  unfold execRefLock
  try dsimp only
  repeat' first
    | with_reducible assumption | with_reducible refine keeps_next ?_
    | (with_reducible apply keeps_of_fields; dsimp only; with_reducible apply fields_of_keeps) | with_reducible apply keeps_ite

theorem execRefLost_keeps {g : Pledge} (s : State) (h : s.Keeps g) : ∀ out, execRefLost s = .next out → out.Keeps g := by
  unfold execRefLost
  try dsimp only
  repeat' first
    | with_reducible assumption | with_reducible refine keeps_next ?_
    | (with_reducible apply keeps_of_fields; dsimp only; with_reducible apply fields_of_keeps) | with_reducible apply keeps_ite

theorem State.smbusAnswer_keeps {g : Pledge} (s : State) (data : Bytes) (h : s.Keeps g) : (State.smbusAnswer s data).Keeps g := by
  unfold State.smbusAnswer
  try dsimp only
  repeat' first
    | with_reducible assumption | with_reducible apply State.emit_keeps

theorem execSmbusId_keeps {g : Pledge} (s : State) (h : s.Keeps g) : ∀ out, execSmbusId s = .next out → out.Keeps g := by
  unfold execSmbusId
  try dsimp only
  repeat' first
    | with_reducible assumption | with_reducible apply State.smbusAnswer_keeps | with_reducible refine keeps_next ?_

theorem execSmbusStatus_keeps {g : Pledge} (s : State) (h : s.Keeps g) : ∀ out, execSmbusStatus s = .next out → out.Keeps g := by
  unfold execSmbusStatus
  try dsimp only
  repeat' first
    | with_reducible assumption | with_reducible apply State.smbusAnswer_keeps | with_reducible refine keeps_next ?_

theorem execSmbusBoot_keeps {g : Pledge} (s : State) (h : s.Keeps g) : ∀ out, execSmbusBoot s = .next out → out.Keeps g := by
  unfold execSmbusBoot
  try dsimp only
  repeat' first
    | with_reducible assumption | with_reducible apply State.smbusAnswer_keeps | with_reducible refine keeps_next ?_
    | (with_reducible apply keeps_of_fields; dsimp only; with_reducible apply fields_of_keeps)

theorem execSmbusVin_keeps {g : Pledge} (s : State) (h : s.Keeps g) : ∀ out, execSmbusVin s = .next out → out.Keeps g := by
  unfold execSmbusVin
  try dsimp only
  repeat' first
    | with_reducible assumption | with_reducible apply State.smbusAnswer_keeps | with_reducible refine keeps_next ?_

theorem execSmbusIin_keeps {g : Pledge} (s : State) (h : s.Keeps g) : ∀ out, execSmbusIin s = .next out → out.Keeps g := by
  unfold execSmbusIin
  try dsimp only
  repeat' first
    | with_reducible assumption | with_reducible apply State.smbusAnswer_keeps | with_reducible refine keeps_next ?_

theorem execSmbusPin_keeps {g : Pledge} (s : State) (h : s.Keeps g) : ∀ out, execSmbusPin s = .next out → out.Keeps g := by
  unfold execSmbusPin
  try dsimp only
  repeat' first
    | with_reducible assumption | with_reducible apply State.smbusAnswer_keeps | with_reducible refine keeps_next ?_

theorem execSmbusTemp_keeps {g : Pledge} (s : State) (h : s.Keeps g) : ∀ out, execSmbusTemp s = .next out → out.Keeps g := by
  unfold execSmbusTemp
  try dsimp only
  repeat' first
    | with_reducible assumption | with_reducible apply State.smbusAnswer_keeps | with_reducible refine keeps_next ?_

theorem execSmbusHoldup_keeps {g : Pledge} (s : State) (h : s.Keeps g) : ∀ out, execSmbusHoldup s = .next out → out.Keeps g := by
  unfold execSmbusHoldup
  try dsimp only
  repeat' first
    | with_reducible assumption | with_reducible apply State.smbusAnswer_keeps | with_reducible refine keeps_next ?_

theorem execSmbusShutdownCause_keeps {g : Pledge} (s : State) (h : s.Keeps g) :
    ∀ out, execSmbusShutdownCause s = .next out → out.Keeps g := by
  unfold execSmbusShutdownCause
  try dsimp only
  repeat' first
    | with_reducible assumption | with_reducible apply State.smbusAnswer_keeps | with_reducible refine keeps_next ?_

theorem execSmbusWrite_keeps {g : Pledge} (code : Byte) (data : Bytes) (s : State) (h : s.Keeps g) :
    ∀ out, execSmbusWrite code data s = .next out → out.Keeps g := by
  unfold execSmbusWrite
  try dsimp only
  repeat' first
    | with_reducible assumption | with_reducible apply State.emit_keeps | with_reducible refine keeps_next ?_

/-! ### RelayCmds -/

theorem relaySetPlan_keeps {g : Pledge} (c : Cmd) (s : State) : (relaySetPlan c s).Keeps g := by
  intro st hst
  unfold relaySetPlan
  dsimp only [setPlan, queryPlan]
  repeat' first
    | with_reducible assumption | (with_reducible apply keeps_of_fields; dsimp only; with_reducible apply fields_of_keeps)

theorem relayTableWritePlan_keeps {g : Pledge} (c : Cmd) (s : State) : (relayTableWritePlan c s).Keeps g := by
  intro st hst
  unfold relayTableWritePlan
  dsimp only [setPlan, queryPlan]
  repeat' first
    | with_reducible assumption | (with_reducible apply keeps_of_fields; dsimp only; with_reducible apply fields_of_keeps)

theorem State.switchAll_keeps {g : Pledge} (s : State) (h : s.Keeps g) : (State.switchAll s).Keeps g := by
  unfold State.switchAll
  try dsimp only
  repeat' first
    | with_reducible assumption | with_reducible apply forEach_keeps | with_reducible apply State.switchPaths_keeps
    | with_reducible apply State.modConn_keeps | (intro st x hst; try dsimp only)

theorem relayEpochSwitchPlan_keeps {g : Pledge} (c : Cmd) (s : State) : (relayEpochSwitchPlan c s).Keeps g := by
  intro st hst
  unfold relayEpochSwitchPlan
  dsimp only [setPlan, queryPlan]
  repeat' first
    | with_reducible assumption | with_reducible apply State.switchAll_keeps
    | (with_reducible apply keeps_of_fields; dsimp only; with_reducible apply fields_of_keeps) | with_reducible apply keeps_ite

theorem relayQueryPlan_keeps {g : Pledge} (c : Cmd) (s : State) : (relayQueryPlan c s).Keeps g := by
  intro st hst
  unfold relayQueryPlan
  dsimp only [setPlan, queryPlan]
  repeat' with_reducible assumption

theorem execRelaySet_keeps {g : Pledge} (f : FuncId) (s : State) (h : s.Keeps g) :
    ∀ out, execRelaySet f s = .next out → out.Keeps g := by
  unfold execRelaySet
  try dsimp only
  repeat' first
    | with_reducible assumption | with_reducible apply relaySetPlan_keeps
    | (show ∀ _ : State, _; with_reducible apply State.perform_keeps)

theorem execRelayTableWrite_keeps {g : Pledge} (f : FuncId) (s : State) (h : s.Keeps g) :
    ∀ out, execRelayTableWrite f s = .next out → out.Keeps g := by
  unfold execRelayTableWrite
  try dsimp only
  repeat' first
    | with_reducible assumption | with_reducible apply relayTableWritePlan_keeps
    | (show ∀ _ : State, _; with_reducible apply State.perform_keeps)

theorem execRelayEpochSwitch_keeps {g : Pledge} (f : FuncId) (s : State) (h : s.Keeps g) :
    ∀ out, execRelayEpochSwitch f s = .next out → out.Keeps g := by
  unfold execRelayEpochSwitch
  try dsimp only
  repeat' first
    | with_reducible assumption | with_reducible apply relayEpochSwitchPlan_keeps
    | (show ∀ _ : State, _; with_reducible apply State.perform_keeps)

theorem execRelayQuery_keeps {g : Pledge} (f : FuncId) (s : State) (h : s.Keeps g) :
    ∀ out, execRelayQuery f s = .next out → out.Keeps g := by
  unfold execRelayQuery
  try dsimp only
  repeat' first
    | with_reducible assumption | with_reducible apply relayQueryPlan_keeps
    | (show ∀ _ : State, _; with_reducible apply State.perform_keeps)

/-! ### StopEvents -/

theorem stateOf_keeps {g : Pledge} (o : Out) (s : State) (hu : ∀ t, o = .next t → t.Keeps g) (h : s.Keeps g) :
    (stateOf o s).Keeps g := by
  unfold stateOf
  try dsimp only
  repeat' first
    | with_reducible assumption | split | exact hu _ rfl

theorem State.frameOut_keeps {g : Pledge} (s : State) (p : LPort) (l : L2) (cls : Nat) (h : s.Keeps g) :
    (State.frameOut s p l cls).Keeps g := by
  unfold State.frameOut
  try dsimp only
  repeat' first
    | with_reducible assumption | with_reducible apply State.rxFree_keeps

theorem State.readyFor_keeps {g : Pledge} (s : State) (c : Instr) (h : s.Keeps g) : (State.readyFor s c).Keeps g := by
  unfold State.readyFor
  try dsimp only
  repeat' first
    | with_reducible assumption | with_reducible apply State.frameOut_keeps | split

theorem heldEffect_keeps {g : Pledge} (c : Instr) (s : State) (h : s.Keeps g) :
    ∀ out, heldEffect c s = .next out → out.Keeps g := by
  unfold heldEffect
  try dsimp only
  repeat' first
    | with_reducible assumption | (show ∀ _ : State, _; with_reducible apply execRegWrite_keeps)
    | (show ∀ _ : State, _; with_reducible apply execBadRegAccess_keeps)
    | (show ∀ _ : State, _; with_reducible apply execWinSet_keeps)
    | (show ∀ _ : State, _; with_reducible apply execEvcClaimRead_keeps)
    | (show ∀ _ : State, _; with_reducible apply execEvcEoiWrite_keeps)
    | (show ∀ _ : State, _; with_reducible apply execEvcThresholdWrite_keeps)
    | (show ∀ _ : State, _; with_reducible apply execEvcRaiseSignal_keeps)
    | (show ∀ _ : State, _; with_reducible apply execEvcRaiseWithdraw_keeps)
    | (show ∀ _ : State, _; with_reducible apply execEvcCtrlWrite_keeps)
    | (show ∀ _ : State, _; with_reducible apply execEvcRouteWrite_keeps)
    | (show ∀ _ : State, _; with_reducible apply execMsixVectorUnmask_keeps)
    | (show ∀ _ : State, _; with_reducible apply execCntSnap_keeps)
    | (show ∀ _ : State, _; with_reducible apply execBar2Read_keeps)
    | (show ∀ _ : State, _; with_reducible apply execBar2Write_keeps)
    | (show ∀ _ : State, _; with_reducible apply execDblWork_keeps)
    | (show ∀ _ : State, _; with_reducible apply execDblCq_keeps)
    | (show ∀ _ : State, _; with_reducible apply execDblCqArm_keeps)
    | (show ∀ _ : State, _; with_reducible apply execEntryReadDone_keeps)
    | (show ∀ _ : State, _; with_reducible apply execEntryReadFault_keeps)
    | (show ∀ _ : State, _; with_reducible apply execDmaReadCompletion_keeps)
    | (show ∀ _ : State, _; with_reducible apply execFlushComplete_keeps)
    | (show ∀ _ : State, _; with_reducible apply execFlushFailed_keeps)
    | (show ∀ _ : State, _; with_reducible apply execAtsTranslationDone_keeps)
    | (show ∀ _ : State, _; with_reducible apply execPageRequestResponse_keeps)
    | (show ∀ _ : State, _; with_reducible apply execInvalidateRequest_keeps)
    | (show ∀ _ : State, _; with_reducible apply execLinkDown_keeps)
    | (show ∀ _ : State, _; with_reducible apply execLinkUp_keeps)
    | (show ∀ _ : State, _; with_reducible apply execReplayDone_keeps)
    | (show ∀ _ : State, _; with_reducible apply execRetrainWindowExpiry_keeps)
    | (show ∀ _ : State, _; with_reducible apply execLinkHotReset_keeps)
    | (show ∀ _ : State, _; with_reducible apply execFunctionLevelReset_keeps)
    | (show ∀ _ : State, _; with_reducible apply execConfigResetDone_keeps)
    | (show ∀ _ : State, _; with_reducible apply execVfEnable_keeps)
    | (show ∀ _ : State, _; with_reducible apply execVfDisable_keeps)
    | (show ∀ _ : State, _; with_reducible apply execD3hotEntry_keeps)
    | (show ∀ _ : State, _; with_reducible apply execD0Return_keeps)
    | (show ∀ _ : State, _; with_reducible apply execRxFrameDiscard_keeps)
    | (show ∀ _ : State, _; with_reducible apply execRxRawFrame_keeps)
    | (show ∀ _ : State, _; with_reducible apply execRxDrillFrame_keeps)
    | (show ∀ _ : State, _; with_reducible apply execRxRocePacket_keeps)
    | (show ∀ _ : State, _; with_reducible apply execRxCnp_keeps)
    | (show ∀ _ : State, _; with_reducible apply execRxWrite_keeps)
    | (show ∀ _ : State, _; with_reducible apply execRxWriteFlag_keeps)
    | (show ∀ _ : State, _; with_reducible apply execRxSend_keeps)
    | (show ∀ _ : State, _; with_reducible apply execRxReadReq_keeps)
    | (show ∀ _ : State, _; with_reducible apply execRxReadResp_keeps)
    | (show ∀ _ : State, _; with_reducible apply execRxAtomicReq_keeps)
    | (show ∀ _ : State, _; with_reducible apply execRxAtomicResp_keeps)
    | (show ∀ _ : State, _; with_reducible apply execRxAck_keeps)
    | (show ∀ _ : State, _; with_reducible apply execRxNakRnr_keeps)
    | (show ∀ _ : State, _; with_reducible apply execRxNakAccess_keeps)
    | (show ∀ _ : State, _; with_reducible apply execRxNakSeq_keeps)
    | (show ∀ _ : State, _; with_reducible apply execRxNakClosed_keeps)
    | (show ∀ _ : State, _; with_reducible apply execRxProbe_keeps)
    | (show ∀ _ : State, _; with_reducible apply execRxProbeReply_keeps)
    | (show ∀ _ : State, _; with_reducible apply execRxUnreach_keeps)
    | (show ∀ _ : State, _; with_reducible apply execRelayFrame_keeps)
    | (show ∀ _ : State, _; with_reducible apply execRxCollUp_keeps)
    | (show ∀ _ : State, _; with_reducible apply execRxCollDown_keeps)
    | (show ∀ _ : State, _; with_reducible apply execRxCollReport_keeps)
    | (show ∀ _ : State, _; with_reducible apply execRxCollSeal_keeps)
    | (show ∀ _ : State, _; with_reducible apply execRxCollRepair_keeps)
    | (show ∀ _ : State, _; with_reducible apply execRxCollGrant_keeps) | with_reducible refine keeps_next ?_ | split

theorem State.lateRuns_keeps {g : Pledge} (s : State) (h : s.Keeps g) : (State.lateRuns s).Keeps g := by
  unfold State.lateRuns
  try dsimp only
  repeat' first
    | with_reducible assumption | (with_reducible apply keeps_of_fields; dsimp only; with_reducible apply fields_of_keeps)

theorem State.resume_keeps {g : Pledge} (s : State) (h : s.Keeps g) : (State.resume s).Keeps g := by
  unfold State.resume
  try dsimp only
  repeat' first
    | with_reducible assumption | with_reducible apply State.lateRuns_keeps | with_reducible apply stateOf_keeps
    | with_reducible apply State.readyFor_keeps | with_reducible apply State.gatesRecompute_keeps
    | with_reducible apply State.settle_keeps | with_reducible apply forEach_keeps | with_reducible apply State.pfcCheck_keeps
    | (show ∀ _ : State, _; with_reducible apply heldEffect_keeps) | with_reducible apply foldl_keeps
    | (with_reducible apply keeps_of_fields; dsimp only; with_reducible apply fields_of_keeps)
    | (intro st x hst; try dsimp only)

theorem globalResumePlan_keeps {g : Pledge} (c : Cmd) (s : State) : (globalResumePlan c s).Keeps g := by
  intro st hst
  unfold globalResumePlan
  dsimp only [setPlan, queryPlan]
  repeat' first
    | with_reducible assumption | with_reducible apply State.resume_keeps | with_reducible apply keeps_ite

theorem execGlobalResume_keeps {g : Pledge} (f : FuncId) (s : State) (h : s.Keeps g) :
    ∀ out, execGlobalResume f s = .next out → out.Keeps g := by
  unfold execGlobalResume
  try dsimp only
  repeat' first
    | with_reducible assumption | with_reducible apply globalResumePlan_keeps
    | (show ∀ _ : State, _; with_reducible apply State.perform_keeps)

theorem execFreezeAssert_keeps {g : Pledge} (s : State) (h : s.Keeps g) :
    ∀ out, execFreezeAssert s = .next out → out.Keeps g := by
  unfold execFreezeAssert
  try dsimp only
  repeat' first
    | with_reducible assumption | with_reducible apply State.settle_keeps | with_reducible apply State.globalStop_keeps
    | with_reducible refine keeps_next ?_
    | (with_reducible apply keeps_of_fields; dsimp only; with_reducible apply fields_of_keeps) | with_reducible apply keeps_ite

theorem execFreezeRelease_keeps {g : Pledge} (s : State) (h : s.Keeps g) :
    ∀ out, execFreezeRelease s = .next out → out.Keeps g := by
  unfold execFreezeRelease
  try dsimp only
  repeat' first
    | with_reducible assumption | with_reducible apply State.resume_keeps | with_reducible refine keeps_next ?_
    | (with_reducible apply keeps_of_fields; dsimp only; with_reducible apply fields_of_keeps) | with_reducible apply keeps_ite

theorem execStopRefLatch_keeps {g : Pledge} (s : State) (h : s.Keeps g) :
    ∀ out, execStopRefLatch s = .next out → out.Keeps g := by
  unfold execStopRefLatch
  try dsimp only
  repeat' first
    | with_reducible assumption | with_reducible refine keeps_next ?_
    | (with_reducible apply keeps_of_fields; dsimp only; with_reducible apply fields_of_keeps) | with_reducible apply keeps_ite

/-! ### Tick -/

theorem State.tick_keeps {g : Pledge} (s : State) (h : s.Keeps g) : (State.tick s).Keeps g := by
  unfold State.tick
  try dsimp only
  repeat' first
    | with_reducible assumption | with_reducible apply State.countClocks_keeps | with_reducible apply State.settle_keeps
    | with_reducible apply State.retryFab_keeps
    | (with_reducible apply keeps_of_fields; dsimp only; with_reducible apply fields_of_keeps) | with_reducible apply keeps_ite

end Sys2Proof.Machine
end

