-- ==== Sys2Proof/Laws/Mail.lean ====
section
/-! SUPPORT. Laws/Mail.lean: what a mailbox command's step amounts to once its checks have passed, or have not (R39, R45). -/

namespace Sys2Proof.Machine

/-- What an accepted command does: its plan's effect on the state in which firmware has taken it, then the answer or the long work. -/
theorem perform_accepted {s : State} {f : FuncId} {op : Nat} {plan : Cmd → State → Plan} (h : s.accepts f op plan = true) :
    s.perform f op plan = .next (match (plan (s.cmd f) s).run (s.take f) with
      | (t, .answer r) => t.answer f r
      | (t, .long job committed) => t.modMbx f (fun m => { m with long := some (job, committed) })).settle := by
  simp only [State.accepts, Bool.and_eq_true, beq_iff_eq, Bool.not_eq_true', Option.isNone_iff_eq_none] at h
  obtain ⟨⟨⟨h1, h2⟩, h3⟩, h4⟩ := h
  simp only [State.perform, next, State.runCommand, State.runCommandC, h1, h2, h3, h4, Bool.not_true, bne_self_eq_false, Bool.or_self]
  rfl

/-- A command that is not there to take, or of another opcode, is left alone: the step only settles. -/
theorem perform_absent {s : State} {f : FuncId} {op : Nat} {plan : Cmd → State → Plan}
    (h : s.canTake f = false ∨ (s.cmd f).opcode ≠ op) : s.perform f op plan = .next s.settle := by
  have h1 : (!s.canTake f || (s.cmd f).opcode != op) = true := by
    rcases h with h | h <;> simp [h]
  simp only [State.perform, next, State.runCommand, State.runCommandC, h1, if_true]

/-- A command that fails a check changes nothing but its mailbox: the first check that fails gives RESULT and DETAIL (R45). -/
theorem perform_refused {s : State} {f : FuncId} {op : Nat} {plan : Cmd → State → Plan} {k : Check} (h1 : s.canTake f = true)
    (h2 : (s.cmd f).opcode = op)
    (h3 : firstFailing (commonChecks s (s.cmd f) op (plan (s.cmd f) s).managerOnly (plan (s.cmd f) s).size ++ (plan (s.cmd f) s).checks) =
      some k) : s.perform f op plan = .next ((s.take f).answer f ⟨k.code, k.detail, k.body⟩).settle := by
  simp only [State.perform, next, State.runCommand, State.runCommandC, h1, h2, h3, Bool.not_true, bne_self_eq_false, Bool.or_self]
  rfl

/-- An engine's event of a module that runs takes effect. -/
theorem engine_runs {s : State} {g : State → State} (h : s.runs = true) : s.engine g = .next (g s).settle := by
  simp only [State.runs, Bool.and_eq_true, Bool.not_eq_true'] at h
  simp [State.engine, next, h.1, h.2]

/-- An arrival at a module that runs takes effect at once. -/
theorem arrival_runs {s : State} {c : Instr} {g : State → State} (h : s.runs = true) : s.arrival c g = .next (g s).settle := by
  simp only [State.runs, Bool.and_eq_true, Bool.not_eq_true'] at h
  simp [State.arrival, next, h.1, h.2]

/-- Engines stand still while the module is off or globally stopped (R445). -/
theorem engine_still {s : State} {g : State → State} (h : s.runs = false) : s.engine g = .next s := by
  have : (!s.power.on || s.stop.stopped) = true := by
    cases hp : s.power.on <;> cases hs : s.stop.stopped <;> simp_all [State.runs]
  simp [State.engine, next, this]

/-- A stop holds an arrival, in order (R445). -/
theorem arrival_held {s : State} {c : Instr} {g : State → State} (h : s.power.on = true) (hs : s.stop.stopped = true) :
    s.arrival c g = .next (s.holdArrival c) := by
  simp [State.arrival, next, h, hs]

end Sys2Proof.Machine
end

