-- ==== Sys2Proof/Laws/Memory.lean ====
section
/-! SUPPORT. Laws/Memory.lean: reads and writes of module memory over good blocks (R342 to R345), and undefined ranges (R19). -/

namespace Sys2Proof.Machine

/-- Observations that are all good begin with a good one. -/
theorem headD_good (obs : List BlockObs) (h : ∀ o ∈ obs, o = .good) : obs.headD .good = .good := by
  cases obs with
  | nil => rfl
  | cons o r => exact h o (by simp)

/-- They go on with good ones. -/
theorem tail_good (obs : List BlockObs) (h : ∀ o ∈ obs, o = .good) : ∀ o ∈ obs.tail, o = .good :=
  fun o ho => h o (List.mem_of_mem_tail ho)

/-- Good blocks are read without a change. -/
theorem decodeBlocks_good (s : State) (bs : List Nat) (obs : List BlockObs) (h : ∀ o ∈ obs, o = .good) :
    (s.decodeBlocks bs obs).1 = s ∧ (s.decodeBlocks bs obs).2.2 = [] ∧
    ((∀ b ∈ bs, s.mem.poison.contains b = false ∧ s.mem.fallowAt (b * 64) = false) → (s.decodeBlocks bs obs).2.1 = false) := by
  have one : ∀ b, (s.decodeBlock b .good).1 = s ∧ (s.decodeBlock b .good).2.2 = none := by
    intro b; simp only [State.decodeBlock]; split <;> exact ⟨rfl, rfl⟩
  induction bs generalizing obs with
  | nil => exact ⟨rfl, rfl, fun _ => rfl⟩
  | cons b r ih =>
    obtain ⟨h1, h2⟩ := one b
    obtain ⟨i1, i2, i3⟩ := ih obs.tail (tail_good obs h)
    simp only [State.decodeBlocks, headD_good obs h, h1, h2, i1, i2, List.nil_append, true_and]
    intro hb
    rw [i3 (fun x hx => hb x (by simp [hx]))]
    have := hb b (by simp)
    simp only [State.decodeBlock, this.1, this.2]; rfl

/-- Writing bytes but those of fallow addresses: each is read back, every other byte is left alone. -/
theorem live_fold (q : Nat → Bool) (data : Bytes) : ∀ (a : Nat) (m : Mem), Memory.wf m = true →
    (∀ x, (x < a ∨ a + data.length ≤ x) → mget (((data.zipIdx a).filter (fun p => !q p.2)).foldl (fun m (p : Byte × Nat) => mset m p.2 p.1) m) x = mget m x) ∧
    (∀ i, i < data.length → mget (((data.zipIdx a).filter (fun p => !q p.2)).foldl (fun m (p : Byte × Nat) => mset m p.2 p.1) m) (a + i) =
      if q (a + i) then mget m (a + i) else data.getD i 0) := by
  induction data with
  | nil => intro a m _; exact ⟨fun _ _ => rfl, fun i hi => by simp at hi⟩
  | cons b r ih =>
    intro a m hw
    by_cases hq : q a = true
    · have e : ((b :: r).zipIdx a).filter (fun p => !q p.2) = (r.zipIdx (a + 1)).filter (fun p => !q p.2) := by
        simp [List.zipIdx_cons, hq]
      rw [e]
      obtain ⟨k1, k2⟩ := ih (a + 1) m hw
      refine ⟨fun x hx => k1 x (by simp only [List.length_cons] at hx; omega), ?_⟩
      intro i hi
      cases i with
      | zero => rw [k1 _ (by omega)]; simp [hq]
      | succ j =>
        have := k2 j (by simpa using hi)
        rw [show a + (j + 1) = a + 1 + j by omega, this]; simp
    · have hq' : q a = false := by simpa using hq
      have e : ((b :: r).zipIdx a).filter (fun p => !q p.2) = (b, a) :: (r.zipIdx (a + 1)).filter (fun p => !q p.2) := by
        simp [List.zipIdx_cons, hq']
      rw [e, List.foldl_cons]
      obtain ⟨k1, k2⟩ := ih (a + 1) (mset m a b) (mset_wf m a b hw)
      refine ⟨fun x hx => ?_, ?_⟩
      · simp only [List.length_cons] at hx
        rw [k1 x (by omega), mget_mset_ne m b (by omega)]
      · intro i hi
        cases i with
        | zero => rw [k1 _ (by omega)]; simp [hq', mget_mset_same m a b hw]
        | succ j =>
          have := k2 j (by simpa using hi)
          rw [show a + (j + 1) = a + 1 + j by omega, this]
          rw [mget_mset_ne m b (by omega)]; simp

/-- Counting memory traffic changes the module-wide counters alone. -/
theorem countMem_eq (s : State) (a n d : Nat) : (s.countMem a n d) = { s with globals := (s.countMem a n d).globals } := by
  simp only [State.countMem]; split <;> rfl

/-- A range cut out of the undefined ranges is defined. -/
theorem cut_out (l : List (Nat × Nat)) (a n x : Nat) (h1 : a ≤ x) (h2 : x < a + n) : inRanges (cutRanges l a n) x = false := by
  rw [Bool.eq_false_iff]
  intro h
  simp only [inRanges, cutRanges, List.any_eq_true, List.mem_filter, List.mem_flatten, List.mem_map] at h
  obtain ⟨r, ⟨⟨q, ⟨w, _, rfl⟩, hq⟩, _⟩, hr⟩ := h
  simp only [List.mem_cons, List.not_mem_nil, or_false] at hq
  simp only [Bool.and_eq_true, decide_eq_true_eq] at hr
  rcases hq with rfl | rfl <;> simp only at hr <;> omega

/-- Every block of a range holds a byte of it. -/
theorem blocks_mem (a n b : Nat) (hb : b ∈ blocksOf a n) : ∃ i, i < n ∧ (a + i) / 64 = b := by
  simp only [blocksOf, granulesOf] at hb
  split at hb
  · simp at hb
  · simp only [lrange, List.mem_map, List.mem_range] at hb
    obtain ⟨k, hk, rfl⟩ := hb
    refine ⟨if k = 0 then 0 else (a / 64 + k) * 64 - a, ?_, ?_⟩ <;> split <;> omega

/-- What a program notes of a write changes nothing of where its run in progress will write. -/
theorem overwritten_targets (s : State) (p : Prog) (due : Nat) (i w : Bool) : s.runTargets (p.overwritten due i w) = s.runTargets p := by
  simp only [State.runTargets, Prog.overwritten]
  cases p.current <;> rfl

/-- Whatever a write of module memory tells the programs, the pending operations will write the same bytes. -/
theorem overwrite_pendingWrites (s : State) (a : Nat) (data : Bytes) : (s.overwrite a data).pendingWrites = s.pendingWrites := by
  have one : ∀ q : Nat × Prog, ∀ c : Bool, ∀ d i w, s.runTargets (if c then q.2.overwritten d i w else q.2) = s.runTargets q.2 := by
    intro q c d i w; cases c
    · rfl
    · exact overwritten_targets s q.2 d i w
  have progs : (s.overwrite a data).progs.flatMap (fun q => s.runTargets q.2) = s.progs.flatMap (fun q => s.runTargets q.2) := by
    simp only [State.overwrite, List.flatMap_map, one]
  have opened : (s.overwrite a data).openRuns = s.openRuns := by
    have : (s.overwrite a data).openRuns = s.funcs.flatMap (fun (q : Nat × Func) =>
      q.2.rings.flatMap (fun (g : Nat × Ring) => g.2.jobs.flatMap (s.jobTargets g.2.kind)) ++
      q.2.ops.flatMap (fun o => match tget q.2.comms o.comm with
        | some c => o.entries.flatMap (s.entryTargets o c)
        | none => [])) ++
      s.conns.flatMap (fun (q : Nat × Conn) => if q.2.state = .ready then s.rxTargets q.2 else []) ++
      (s.overwrite a data).progs.flatMap (fun (q : Nat × Prog) => s.runTargets q.2) := rfl
    rw [this, progs]; rfl
  have : (s.overwrite a data).pendingWrites = (s.overwrite a data).openRuns ++
    ((tvals s.xfers).filter (fun x => x.write && x.purpose.places)).flatMap (fun x =>
      (x.pieces.filter (fun p => !p.host && !p.done)).map (fun p => (p.addr, p.len))) := rfl
  rw [this, opened]; rfl

/-- A packet on the fabric changes nothing of what the pending operations will write. -/
@[simp] theorem fabSend_pendingWrites (s : State) (a b : FabUnit) (c : FabChan) (n : Nat) : (s.fabSend a b c n).pendingWrites = s.pendingWrites := rfl

/-- A write of module memory over good blocks: the bytes outside fallow granules are placed, they are defined from then on, and the blocks
it covers lose their poison (R344, R391, R470). -/
theorem memWrite_good (s : State) (a : Nat) (data : Bytes) (obs : List BlockObs) (ho : ∀ o ∈ obs, o = .good) :
    (s.memWrite a data obs).1 = ({ s.overwrite a data with mem := { s.mem with
      bytes := ((data.zipIdx a).filter (fun (p : Byte × Nat) => !s.mem.fallowAt p.2)).foldl (fun m (p : Byte × Nat) => mset m p.2 p.1) s.mem.bytes
      undef := cutRanges s.mem.undef a data.length
      poison := s.mem.poison.filter (fun b => !(((blocksOf a data.length).filter (fun b =>
        decide (a ≤ b * 64) && decide (b * 64 + 64 ≤ a + data.length))).contains b && !s.mem.fallowAt (b * 64))) } } : State).countMem a data.length 1 := by
  simp only [State.memWrite, State.memWriteIn]
  have hg : ∀ o ∈ List.map Prod.snd (((blocksOf a data.length).zip (obs ++ List.replicate ((blocksOf a data.length).length - obs.length) .good)).filter
      (fun p => ((blocksOf a data.length).filter (fun b => !(decide (a ≤ b * 64) && decide (b * 64 + 64 ≤ a + data.length)))).contains p.1)), o = BlockObs.good := by
    intro o hx
    simp only [List.mem_map, List.mem_filter] at hx
    obtain ⟨p, ⟨hp, _⟩, rfl⟩ := hx
    have := List.of_mem_zip hp
    rcases List.mem_append.mp this.2 with h | h
    · exact ho _ h
    · exact List.eq_of_mem_replicate h
  obtain ⟨e1, e2, _⟩ := decodeBlocks_good (s.overwrite a data) (List.map Prod.fst (((blocksOf a data.length).zip (obs ++ List.replicate ((blocksOf a data.length).length - obs.length) .good)).filter
      (fun p => ((blocksOf a data.length).filter (fun b => !(decide (a ≤ b * 64) && decide (b * 64 + 64 ≤ a + data.length)))).contains p.1))) _ hg
  rw [e1, e2]
  rfl

end Sys2Proof.Machine
end

