-- ==== Sys2Proof/Laws/Requests.lean ====
section
/-! SUPPORT. Laws/Requests.lean: a mailbox row is its request: taken when due, left alone otherwise (R39, R41, R42). -/

namespace Sys2Proof.Machine

/-- Every mailbox row but KEY_CREATE runs its command and nothing more. -/
theorem request_cases {i : Instr} {q : Request} (h : mailRequest i = some q) (s : State) :
    (∃ f, i = .keyCreate f) ∨ (q.last = id ∧ exec i s = .next (s.runCommandC q.f q.op q.dry q.plan).settle) := by
  cases i <;> first | exact .inl ⟨_, rfl⟩ | (cases h; exact .inr ⟨rfl, rfl⟩) | cases h

/-- A request that is not due changes nothing. -/
theorem due_runs {q : Request} {s : State} (h : q.due s = false) : s.runCommandC q.f q.op q.dry q.plan = s := by
  have : (!s.canTake q.f || (s.cmd q.f).opcode != q.op) = true := by
    simp only [Request.due] at h
    cases h1 : s.canTake q.f <;> simp_all
  simp only [State.runCommandC, this, if_true]

/-- What a mailbox row does, by its request. -/
theorem request_exec {i : Instr} {q : Request} (h : mailRequest i = some q) (s : State) :
    exec i s = .next (if q.due s then q.last (s.runCommandC q.f q.op q.dry q.plan) else s).settle := by
  rcases request_cases h s with ⟨f, rfl⟩ | ⟨h1, h2⟩
  · cases h; rfl
  · rw [h2, h1]
    cases hd : q.due s
    · rw [due_runs hd]; rfl
    · rfl

/-- Wiping the key touches the mailbox alone, and not STATE or RESULT (R201). -/
theorem wipeKey_done (t : State) (f : FuncId) : t.Beside f (t.wipeKey f) ∧ ((t.wipeKey f).func f).mbx.state = (t.func f).mbx.state ∧
    ((t.wipeKey f).func f).mbx.result = (t.func f).mbx.result := by
  refine ⟨State.Beside.modMbx f t _, ?_⟩
  simp only [State.wipeKey, State.func, State.modMbx, State.modFunc, State.setFunc, tgetD_tset_same]
  split
  · split <;> exact ⟨rfl, rfl⟩
  · exact ⟨rfl, rfl⟩

/-- What follows an answer touches the mailbox alone. -/
theorem request_last {i : Instr} {q : Request} (h : mailRequest i = some q) (t : State) : t.Beside q.f (q.last t) ∧
    ((q.last t).func q.f).mbx.state = (t.func q.f).mbx.state ∧ ((q.last t).func q.f).mbx.result = (t.func q.f).mbx.result := by
  rcases request_cases h t with ⟨f, rfl⟩ | ⟨h1, _⟩
  · cases h; exact wipeKey_done t f
  · rw [h1]; exact ⟨State.Beside.refl q.f t, rfl, rfl⟩

end Sys2Proof.Machine
end

