-- ==== Sys2Proof/Laws/State.lean ====
section
/-! SUPPORT. Laws/State.lean: what the updates of one object leave alone, field by field, and what is read back. -/

namespace Sys2Proof.Machine

/-! ### What is read back -/

@[simp] theorem State.func_setFunc_same (s : State) (f : FuncId) (v : Func) : (s.setFunc f v).func f = v := by
  simp [State.func, State.setFunc, tgetD]

@[simp] theorem State.func_modFunc_same (s : State) (f : FuncId) (g : Func → Func) : (s.modFunc f g).func f = g (s.func f) := by
  simp [State.modFunc]

@[simp] theorem State.link_modLink_same (s : State) (l : LinkId) (g : Link → Link) : (s.modLink l g).link l = g (s.link l) := by
  simp [State.link, State.modLink, tgetD]

@[simp] theorem State.port_modPort_same (s : State) (p : LPort) (g : PortSt → PortSt) : (s.modPort p g).port p = g (s.port p) := by
  simp [State.port, State.modPort, tgetD]

/-! ### What is left alone -/

variable (s : State)

section modFunc

variable (f : FuncId) (g : Func → Func)

@[simp] theorem State.modFunc_pending : (s.modFunc f g).pending = s.pending := rfl
@[simp] theorem State.modFunc_time : (s.modFunc f g).time = s.time := rfl
@[simp] theorem State.modFunc_ptp : (s.modFunc f g).ptp = s.ptp := rfl
@[simp] theorem State.modFunc_ptpFrac : (s.modFunc f g).ptpFrac = s.ptpFrac := rfl
@[simp] theorem State.modFunc_ptpFreq : (s.modFunc f g).ptpFreq = s.ptpFreq := rfl
@[simp] theorem State.modFunc_ppsIn : (s.modFunc f g).ppsIn = s.ppsIn := rfl
@[simp] theorem State.modFunc_ppsInAt : (s.modFunc f g).ppsInAt = s.ppsInAt := rfl
@[simp] theorem State.modFunc_ppsOutAt : (s.modFunc f g).ppsOutAt = s.ppsOutAt := rfl
@[simp] theorem State.modFunc_manager : (s.modFunc f g).manager = s.manager := rfl
@[simp] theorem State.modFunc_fw : (s.modFunc f g).fw = s.fw := rfl
@[simp] theorem State.modFunc_restartGen : (s.modFunc f g).restartGen = s.restartGen := rfl
@[simp] theorem State.modFunc_restart : (s.modFunc f g).restart = s.restart := rfl
@[simp] theorem State.modFunc_image : (s.modFunc f g).image = s.image := rfl
@[simp] theorem State.modFunc_safeHeld : (s.modFunc f g).safeHeld = s.safeHeld := rfl
@[simp] theorem State.modFunc_goNext : (s.modFunc f g).goNext = s.goNext := rfl
@[simp] theorem State.modFunc_resetAt : (s.modFunc f g).resetAt = s.resetAt := rfl
@[simp] theorem State.modFunc_degraded : (s.modFunc f g).degraded = s.degraded := rfl
@[simp] theorem State.modFunc_fallow : (s.modFunc f g).fallow = s.fallow := rfl
@[simp] theorem State.modFunc_nonce : (s.modFunc f g).nonce = s.nonce := rfl
@[simp] theorem State.modFunc_mram : (s.modFunc f g).mram = s.mram := rfl
@[simp] theorem State.modFunc_links : (s.modFunc f g).links = s.links := rfl
@[simp] theorem State.modFunc_regions : (s.modFunc f g).regions = s.regions := rfl
@[simp] theorem State.modFunc_gens : (s.modFunc f g).gens = s.gens := rfl
@[simp] theorem State.modFunc_regionSeries : (s.modFunc f g).regionSeries = s.regionSeries := rfl
@[simp] theorem State.modFunc_paths : (s.modFunc f g).paths = s.paths := rfl
@[simp] theorem State.modFunc_conns : (s.modFunc f g).conns = s.conns := rfl
@[simp] theorem State.modFunc_connSeries : (s.modFunc f g).connSeries = s.connSeries := rfl
@[simp] theorem State.modFunc_keys : (s.modFunc f g).keys = s.keys := rfl
@[simp] theorem State.modFunc_keySeries : (s.modFunc f g).keySeries = s.keySeries := rfl
@[simp] theorem State.modFunc_xfers : (s.modFunc f g).xfers = s.xfers := rfl
@[simp] theorem State.modFunc_flushes : (s.modFunc f g).flushes = s.flushes := rfl
@[simp] theorem State.modFunc_xlates : (s.modFunc f g).xlates = s.xlates := rfl
@[simp] theorem State.modFunc_invals : (s.modFunc f g).invals = s.invals := rfl
@[simp] theorem State.modFunc_pageFails : (s.modFunc f g).pageFails = s.pageFails := rfl
@[simp] theorem State.modFunc_nextId : (s.modFunc f g).nextId = s.nextId := rfl
@[simp] theorem State.modFunc_agenda : (s.modFunc f g).agenda = s.agenda := rfl
@[simp] theorem State.modFunc_held : (s.modFunc f g).held = s.held := rfl
@[simp] theorem State.modFunc_ports : (s.modFunc f g).ports = s.ports := rfl
@[simp] theorem State.modFunc_phys : (s.modFunc f g).phys = s.phys := rfl
@[simp] theorem State.modFunc_nativePort : (s.modFunc f g).nativePort = s.nativePort := rfl
@[simp] theorem State.modFunc_policers : (s.modFunc f g).policers = s.policers := rfl
@[simp] theorem State.modFunc_policerSeries : (s.modFunc f g).policerSeries = s.policerSeries := rfl
@[simp] theorem State.modFunc_fabric : (s.modFunc f g).fabric = s.fabric := rfl
@[simp] theorem State.modFunc_relay : (s.modFunc f g).relay = s.relay := rfl
@[simp] theorem State.modFunc_progs : (s.modFunc f g).progs = s.progs := rfl
@[simp] theorem State.modFunc_progSeries : (s.modFunc f g).progSeries = s.progSeries := rfl
@[simp] theorem State.modFunc_mem : (s.modFunc f g).mem = s.mem := rfl
@[simp] theorem State.modFunc_tines : (s.modFunc f g).tines = s.tines := rfl
@[simp] theorem State.modFunc_lastRing : (s.modFunc f g).lastRing = s.lastRing := rfl
@[simp] theorem State.modFunc_refills : (s.modFunc f g).refills = s.refills := rfl
@[simp] theorem State.modFunc_faults : (s.modFunc f g).faults = s.faults := rfl
@[simp] theorem State.modFunc_faultSeq : (s.modFunc f g).faultSeq = s.faultSeq := rfl
@[simp] theorem State.modFunc_faultSummary : (s.modFunc f g).faultSummary = s.faultSummary := rfl
@[simp] theorem State.modFunc_trace : (s.modFunc f g).trace = s.trace := rfl
@[simp] theorem State.modFunc_globals : (s.modFunc f g).globals = s.globals := rfl
@[simp] theorem State.modFunc_stop : (s.modFunc f g).stop = s.stop := rfl
@[simp] theorem State.modFunc_power : (s.modFunc f g).power = s.power := rfl
@[simp] theorem State.modFunc_closed : (s.modFunc f g).closed = s.closed := rfl
@[simp] theorem State.modFunc_free : (s.modFunc f g).free = s.free := rfl
@[simp] theorem State.modFunc_out : (s.modFunc f g).out = s.out := rfl

end modFunc

section modLink

variable (l : LinkId) (g : Link → Link)

@[simp] theorem State.modLink_pending : (s.modLink l g).pending = s.pending := rfl
@[simp] theorem State.modLink_time : (s.modLink l g).time = s.time := rfl
@[simp] theorem State.modLink_ptp : (s.modLink l g).ptp = s.ptp := rfl
@[simp] theorem State.modLink_ptpFrac : (s.modLink l g).ptpFrac = s.ptpFrac := rfl
@[simp] theorem State.modLink_ptpFreq : (s.modLink l g).ptpFreq = s.ptpFreq := rfl
@[simp] theorem State.modLink_ppsIn : (s.modLink l g).ppsIn = s.ppsIn := rfl
@[simp] theorem State.modLink_ppsInAt : (s.modLink l g).ppsInAt = s.ppsInAt := rfl
@[simp] theorem State.modLink_ppsOutAt : (s.modLink l g).ppsOutAt = s.ppsOutAt := rfl
@[simp] theorem State.modLink_funcs : (s.modLink l g).funcs = s.funcs := rfl
@[simp] theorem State.modLink_manager : (s.modLink l g).manager = s.manager := rfl
@[simp] theorem State.modLink_fw : (s.modLink l g).fw = s.fw := rfl
@[simp] theorem State.modLink_restartGen : (s.modLink l g).restartGen = s.restartGen := rfl
@[simp] theorem State.modLink_restart : (s.modLink l g).restart = s.restart := rfl
@[simp] theorem State.modLink_image : (s.modLink l g).image = s.image := rfl
@[simp] theorem State.modLink_safeHeld : (s.modLink l g).safeHeld = s.safeHeld := rfl
@[simp] theorem State.modLink_goNext : (s.modLink l g).goNext = s.goNext := rfl
@[simp] theorem State.modLink_resetAt : (s.modLink l g).resetAt = s.resetAt := rfl
@[simp] theorem State.modLink_degraded : (s.modLink l g).degraded = s.degraded := rfl
@[simp] theorem State.modLink_fallow : (s.modLink l g).fallow = s.fallow := rfl
@[simp] theorem State.modLink_nonce : (s.modLink l g).nonce = s.nonce := rfl
@[simp] theorem State.modLink_mram : (s.modLink l g).mram = s.mram := rfl
@[simp] theorem State.modLink_regions : (s.modLink l g).regions = s.regions := rfl
@[simp] theorem State.modLink_gens : (s.modLink l g).gens = s.gens := rfl
@[simp] theorem State.modLink_regionSeries : (s.modLink l g).regionSeries = s.regionSeries := rfl
@[simp] theorem State.modLink_paths : (s.modLink l g).paths = s.paths := rfl
@[simp] theorem State.modLink_conns : (s.modLink l g).conns = s.conns := rfl
@[simp] theorem State.modLink_connSeries : (s.modLink l g).connSeries = s.connSeries := rfl
@[simp] theorem State.modLink_keys : (s.modLink l g).keys = s.keys := rfl
@[simp] theorem State.modLink_keySeries : (s.modLink l g).keySeries = s.keySeries := rfl
@[simp] theorem State.modLink_xfers : (s.modLink l g).xfers = s.xfers := rfl
@[simp] theorem State.modLink_flushes : (s.modLink l g).flushes = s.flushes := rfl
@[simp] theorem State.modLink_xlates : (s.modLink l g).xlates = s.xlates := rfl
@[simp] theorem State.modLink_invals : (s.modLink l g).invals = s.invals := rfl
@[simp] theorem State.modLink_pageFails : (s.modLink l g).pageFails = s.pageFails := rfl
@[simp] theorem State.modLink_nextId : (s.modLink l g).nextId = s.nextId := rfl
@[simp] theorem State.modLink_agenda : (s.modLink l g).agenda = s.agenda := rfl
@[simp] theorem State.modLink_held : (s.modLink l g).held = s.held := rfl
@[simp] theorem State.modLink_ports : (s.modLink l g).ports = s.ports := rfl
@[simp] theorem State.modLink_phys : (s.modLink l g).phys = s.phys := rfl
@[simp] theorem State.modLink_nativePort : (s.modLink l g).nativePort = s.nativePort := rfl
@[simp] theorem State.modLink_policers : (s.modLink l g).policers = s.policers := rfl
@[simp] theorem State.modLink_policerSeries : (s.modLink l g).policerSeries = s.policerSeries := rfl
@[simp] theorem State.modLink_fabric : (s.modLink l g).fabric = s.fabric := rfl
@[simp] theorem State.modLink_relay : (s.modLink l g).relay = s.relay := rfl
@[simp] theorem State.modLink_progs : (s.modLink l g).progs = s.progs := rfl
@[simp] theorem State.modLink_progSeries : (s.modLink l g).progSeries = s.progSeries := rfl
@[simp] theorem State.modLink_mem : (s.modLink l g).mem = s.mem := rfl
@[simp] theorem State.modLink_tines : (s.modLink l g).tines = s.tines := rfl
@[simp] theorem State.modLink_lastRing : (s.modLink l g).lastRing = s.lastRing := rfl
@[simp] theorem State.modLink_refills : (s.modLink l g).refills = s.refills := rfl
@[simp] theorem State.modLink_faults : (s.modLink l g).faults = s.faults := rfl
@[simp] theorem State.modLink_faultSeq : (s.modLink l g).faultSeq = s.faultSeq := rfl
@[simp] theorem State.modLink_faultSummary : (s.modLink l g).faultSummary = s.faultSummary := rfl
@[simp] theorem State.modLink_trace : (s.modLink l g).trace = s.trace := rfl
@[simp] theorem State.modLink_globals : (s.modLink l g).globals = s.globals := rfl
@[simp] theorem State.modLink_stop : (s.modLink l g).stop = s.stop := rfl
@[simp] theorem State.modLink_power : (s.modLink l g).power = s.power := rfl
@[simp] theorem State.modLink_closed : (s.modLink l g).closed = s.closed := rfl
@[simp] theorem State.modLink_free : (s.modLink l g).free = s.free := rfl
@[simp] theorem State.modLink_out : (s.modLink l g).out = s.out := rfl

end modLink

section modPort

variable (p : LPort) (g : PortSt → PortSt)

@[simp] theorem State.modPort_pending : (s.modPort p g).pending = s.pending := rfl
@[simp] theorem State.modPort_time : (s.modPort p g).time = s.time := rfl
@[simp] theorem State.modPort_ptp : (s.modPort p g).ptp = s.ptp := rfl
@[simp] theorem State.modPort_ptpFrac : (s.modPort p g).ptpFrac = s.ptpFrac := rfl
@[simp] theorem State.modPort_ptpFreq : (s.modPort p g).ptpFreq = s.ptpFreq := rfl
@[simp] theorem State.modPort_ppsIn : (s.modPort p g).ppsIn = s.ppsIn := rfl
@[simp] theorem State.modPort_ppsInAt : (s.modPort p g).ppsInAt = s.ppsInAt := rfl
@[simp] theorem State.modPort_ppsOutAt : (s.modPort p g).ppsOutAt = s.ppsOutAt := rfl
@[simp] theorem State.modPort_funcs : (s.modPort p g).funcs = s.funcs := rfl
@[simp] theorem State.modPort_manager : (s.modPort p g).manager = s.manager := rfl
@[simp] theorem State.modPort_fw : (s.modPort p g).fw = s.fw := rfl
@[simp] theorem State.modPort_restartGen : (s.modPort p g).restartGen = s.restartGen := rfl
@[simp] theorem State.modPort_restart : (s.modPort p g).restart = s.restart := rfl
@[simp] theorem State.modPort_image : (s.modPort p g).image = s.image := rfl
@[simp] theorem State.modPort_safeHeld : (s.modPort p g).safeHeld = s.safeHeld := rfl
@[simp] theorem State.modPort_goNext : (s.modPort p g).goNext = s.goNext := rfl
@[simp] theorem State.modPort_resetAt : (s.modPort p g).resetAt = s.resetAt := rfl
@[simp] theorem State.modPort_degraded : (s.modPort p g).degraded = s.degraded := rfl
@[simp] theorem State.modPort_fallow : (s.modPort p g).fallow = s.fallow := rfl
@[simp] theorem State.modPort_nonce : (s.modPort p g).nonce = s.nonce := rfl
@[simp] theorem State.modPort_mram : (s.modPort p g).mram = s.mram := rfl
@[simp] theorem State.modPort_links : (s.modPort p g).links = s.links := rfl
@[simp] theorem State.modPort_regions : (s.modPort p g).regions = s.regions := rfl
@[simp] theorem State.modPort_gens : (s.modPort p g).gens = s.gens := rfl
@[simp] theorem State.modPort_regionSeries : (s.modPort p g).regionSeries = s.regionSeries := rfl
@[simp] theorem State.modPort_paths : (s.modPort p g).paths = s.paths := rfl
@[simp] theorem State.modPort_conns : (s.modPort p g).conns = s.conns := rfl
@[simp] theorem State.modPort_connSeries : (s.modPort p g).connSeries = s.connSeries := rfl
@[simp] theorem State.modPort_keys : (s.modPort p g).keys = s.keys := rfl
@[simp] theorem State.modPort_keySeries : (s.modPort p g).keySeries = s.keySeries := rfl
@[simp] theorem State.modPort_xfers : (s.modPort p g).xfers = s.xfers := rfl
@[simp] theorem State.modPort_flushes : (s.modPort p g).flushes = s.flushes := rfl
@[simp] theorem State.modPort_xlates : (s.modPort p g).xlates = s.xlates := rfl
@[simp] theorem State.modPort_invals : (s.modPort p g).invals = s.invals := rfl
@[simp] theorem State.modPort_pageFails : (s.modPort p g).pageFails = s.pageFails := rfl
@[simp] theorem State.modPort_nextId : (s.modPort p g).nextId = s.nextId := rfl
@[simp] theorem State.modPort_agenda : (s.modPort p g).agenda = s.agenda := rfl
@[simp] theorem State.modPort_held : (s.modPort p g).held = s.held := rfl
@[simp] theorem State.modPort_phys : (s.modPort p g).phys = s.phys := rfl
@[simp] theorem State.modPort_nativePort : (s.modPort p g).nativePort = s.nativePort := rfl
@[simp] theorem State.modPort_policers : (s.modPort p g).policers = s.policers := rfl
@[simp] theorem State.modPort_policerSeries : (s.modPort p g).policerSeries = s.policerSeries := rfl
@[simp] theorem State.modPort_fabric : (s.modPort p g).fabric = s.fabric := rfl
@[simp] theorem State.modPort_relay : (s.modPort p g).relay = s.relay := rfl
@[simp] theorem State.modPort_progs : (s.modPort p g).progs = s.progs := rfl
@[simp] theorem State.modPort_progSeries : (s.modPort p g).progSeries = s.progSeries := rfl
@[simp] theorem State.modPort_mem : (s.modPort p g).mem = s.mem := rfl
@[simp] theorem State.modPort_tines : (s.modPort p g).tines = s.tines := rfl
@[simp] theorem State.modPort_lastRing : (s.modPort p g).lastRing = s.lastRing := rfl
@[simp] theorem State.modPort_refills : (s.modPort p g).refills = s.refills := rfl
@[simp] theorem State.modPort_faults : (s.modPort p g).faults = s.faults := rfl
@[simp] theorem State.modPort_faultSeq : (s.modPort p g).faultSeq = s.faultSeq := rfl
@[simp] theorem State.modPort_faultSummary : (s.modPort p g).faultSummary = s.faultSummary := rfl
@[simp] theorem State.modPort_trace : (s.modPort p g).trace = s.trace := rfl
@[simp] theorem State.modPort_globals : (s.modPort p g).globals = s.globals := rfl
@[simp] theorem State.modPort_stop : (s.modPort p g).stop = s.stop := rfl
@[simp] theorem State.modPort_power : (s.modPort p g).power = s.power := rfl
@[simp] theorem State.modPort_closed : (s.modPort p g).closed = s.closed := rfl
@[simp] theorem State.modPort_free : (s.modPort p g).free = s.free := rfl
@[simp] theorem State.modPort_out : (s.modPort p g).out = s.out := rfl

end modPort

section modConn

variable (n : Nat) (g : Conn → Conn)

@[simp] theorem State.modConn_pending : (s.modConn n g).pending = s.pending := rfl
@[simp] theorem State.modConn_time : (s.modConn n g).time = s.time := rfl
@[simp] theorem State.modConn_ptp : (s.modConn n g).ptp = s.ptp := rfl
@[simp] theorem State.modConn_ptpFrac : (s.modConn n g).ptpFrac = s.ptpFrac := rfl
@[simp] theorem State.modConn_ptpFreq : (s.modConn n g).ptpFreq = s.ptpFreq := rfl
@[simp] theorem State.modConn_ppsIn : (s.modConn n g).ppsIn = s.ppsIn := rfl
@[simp] theorem State.modConn_ppsInAt : (s.modConn n g).ppsInAt = s.ppsInAt := rfl
@[simp] theorem State.modConn_ppsOutAt : (s.modConn n g).ppsOutAt = s.ppsOutAt := rfl
@[simp] theorem State.modConn_funcs : (s.modConn n g).funcs = s.funcs := rfl
@[simp] theorem State.modConn_manager : (s.modConn n g).manager = s.manager := rfl
@[simp] theorem State.modConn_fw : (s.modConn n g).fw = s.fw := rfl
@[simp] theorem State.modConn_restartGen : (s.modConn n g).restartGen = s.restartGen := rfl
@[simp] theorem State.modConn_restart : (s.modConn n g).restart = s.restart := rfl
@[simp] theorem State.modConn_image : (s.modConn n g).image = s.image := rfl
@[simp] theorem State.modConn_safeHeld : (s.modConn n g).safeHeld = s.safeHeld := rfl
@[simp] theorem State.modConn_goNext : (s.modConn n g).goNext = s.goNext := rfl
@[simp] theorem State.modConn_resetAt : (s.modConn n g).resetAt = s.resetAt := rfl
@[simp] theorem State.modConn_degraded : (s.modConn n g).degraded = s.degraded := rfl
@[simp] theorem State.modConn_fallow : (s.modConn n g).fallow = s.fallow := rfl
@[simp] theorem State.modConn_nonce : (s.modConn n g).nonce = s.nonce := rfl
@[simp] theorem State.modConn_mram : (s.modConn n g).mram = s.mram := rfl
@[simp] theorem State.modConn_links : (s.modConn n g).links = s.links := rfl
@[simp] theorem State.modConn_regions : (s.modConn n g).regions = s.regions := rfl
@[simp] theorem State.modConn_gens : (s.modConn n g).gens = s.gens := rfl
@[simp] theorem State.modConn_regionSeries : (s.modConn n g).regionSeries = s.regionSeries := rfl
@[simp] theorem State.modConn_paths : (s.modConn n g).paths = s.paths := rfl
@[simp] theorem State.modConn_connSeries : (s.modConn n g).connSeries = s.connSeries := rfl
@[simp] theorem State.modConn_keys : (s.modConn n g).keys = s.keys := rfl
@[simp] theorem State.modConn_keySeries : (s.modConn n g).keySeries = s.keySeries := rfl
@[simp] theorem State.modConn_xfers : (s.modConn n g).xfers = s.xfers := rfl
@[simp] theorem State.modConn_flushes : (s.modConn n g).flushes = s.flushes := rfl
@[simp] theorem State.modConn_xlates : (s.modConn n g).xlates = s.xlates := rfl
@[simp] theorem State.modConn_invals : (s.modConn n g).invals = s.invals := rfl
@[simp] theorem State.modConn_pageFails : (s.modConn n g).pageFails = s.pageFails := rfl
@[simp] theorem State.modConn_nextId : (s.modConn n g).nextId = s.nextId := rfl
@[simp] theorem State.modConn_agenda : (s.modConn n g).agenda = s.agenda := rfl
@[simp] theorem State.modConn_held : (s.modConn n g).held = s.held := rfl
@[simp] theorem State.modConn_ports : (s.modConn n g).ports = s.ports := rfl
@[simp] theorem State.modConn_phys : (s.modConn n g).phys = s.phys := rfl
@[simp] theorem State.modConn_nativePort : (s.modConn n g).nativePort = s.nativePort := rfl
@[simp] theorem State.modConn_policers : (s.modConn n g).policers = s.policers := rfl
@[simp] theorem State.modConn_policerSeries : (s.modConn n g).policerSeries = s.policerSeries := rfl
@[simp] theorem State.modConn_fabric : (s.modConn n g).fabric = s.fabric := rfl
@[simp] theorem State.modConn_relay : (s.modConn n g).relay = s.relay := rfl
@[simp] theorem State.modConn_progs : (s.modConn n g).progs = s.progs := rfl
@[simp] theorem State.modConn_progSeries : (s.modConn n g).progSeries = s.progSeries := rfl
@[simp] theorem State.modConn_mem : (s.modConn n g).mem = s.mem := rfl
@[simp] theorem State.modConn_tines : (s.modConn n g).tines = s.tines := rfl
@[simp] theorem State.modConn_lastRing : (s.modConn n g).lastRing = s.lastRing := rfl
@[simp] theorem State.modConn_refills : (s.modConn n g).refills = s.refills := rfl
@[simp] theorem State.modConn_faults : (s.modConn n g).faults = s.faults := rfl
@[simp] theorem State.modConn_faultSeq : (s.modConn n g).faultSeq = s.faultSeq := rfl
@[simp] theorem State.modConn_faultSummary : (s.modConn n g).faultSummary = s.faultSummary := rfl
@[simp] theorem State.modConn_trace : (s.modConn n g).trace = s.trace := rfl
@[simp] theorem State.modConn_globals : (s.modConn n g).globals = s.globals := rfl
@[simp] theorem State.modConn_stop : (s.modConn n g).stop = s.stop := rfl
@[simp] theorem State.modConn_power : (s.modConn n g).power = s.power := rfl
@[simp] theorem State.modConn_closed : (s.modConn n g).closed = s.closed := rfl
@[simp] theorem State.modConn_free : (s.modConn n g).free = s.free := rfl
@[simp] theorem State.modConn_out : (s.modConn n g).out = s.out := rfl

end modConn

section modProg

variable (n : Nat) (g : Prog → Prog)

@[simp] theorem State.modProg_pending : (s.modProg n g).pending = s.pending := rfl
@[simp] theorem State.modProg_time : (s.modProg n g).time = s.time := rfl
@[simp] theorem State.modProg_ptp : (s.modProg n g).ptp = s.ptp := rfl
@[simp] theorem State.modProg_ptpFrac : (s.modProg n g).ptpFrac = s.ptpFrac := rfl
@[simp] theorem State.modProg_ptpFreq : (s.modProg n g).ptpFreq = s.ptpFreq := rfl
@[simp] theorem State.modProg_ppsIn : (s.modProg n g).ppsIn = s.ppsIn := rfl
@[simp] theorem State.modProg_ppsInAt : (s.modProg n g).ppsInAt = s.ppsInAt := rfl
@[simp] theorem State.modProg_ppsOutAt : (s.modProg n g).ppsOutAt = s.ppsOutAt := rfl
@[simp] theorem State.modProg_funcs : (s.modProg n g).funcs = s.funcs := rfl
@[simp] theorem State.modProg_manager : (s.modProg n g).manager = s.manager := rfl
@[simp] theorem State.modProg_fw : (s.modProg n g).fw = s.fw := rfl
@[simp] theorem State.modProg_restartGen : (s.modProg n g).restartGen = s.restartGen := rfl
@[simp] theorem State.modProg_restart : (s.modProg n g).restart = s.restart := rfl
@[simp] theorem State.modProg_image : (s.modProg n g).image = s.image := rfl
@[simp] theorem State.modProg_safeHeld : (s.modProg n g).safeHeld = s.safeHeld := rfl
@[simp] theorem State.modProg_goNext : (s.modProg n g).goNext = s.goNext := rfl
@[simp] theorem State.modProg_resetAt : (s.modProg n g).resetAt = s.resetAt := rfl
@[simp] theorem State.modProg_degraded : (s.modProg n g).degraded = s.degraded := rfl
@[simp] theorem State.modProg_fallow : (s.modProg n g).fallow = s.fallow := rfl
@[simp] theorem State.modProg_nonce : (s.modProg n g).nonce = s.nonce := rfl
@[simp] theorem State.modProg_mram : (s.modProg n g).mram = s.mram := rfl
@[simp] theorem State.modProg_links : (s.modProg n g).links = s.links := rfl
@[simp] theorem State.modProg_regions : (s.modProg n g).regions = s.regions := rfl
@[simp] theorem State.modProg_gens : (s.modProg n g).gens = s.gens := rfl
@[simp] theorem State.modProg_regionSeries : (s.modProg n g).regionSeries = s.regionSeries := rfl
@[simp] theorem State.modProg_paths : (s.modProg n g).paths = s.paths := rfl
@[simp] theorem State.modProg_conns : (s.modProg n g).conns = s.conns := rfl
@[simp] theorem State.modProg_connSeries : (s.modProg n g).connSeries = s.connSeries := rfl
@[simp] theorem State.modProg_keys : (s.modProg n g).keys = s.keys := rfl
@[simp] theorem State.modProg_keySeries : (s.modProg n g).keySeries = s.keySeries := rfl
@[simp] theorem State.modProg_xfers : (s.modProg n g).xfers = s.xfers := rfl
@[simp] theorem State.modProg_flushes : (s.modProg n g).flushes = s.flushes := rfl
@[simp] theorem State.modProg_xlates : (s.modProg n g).xlates = s.xlates := rfl
@[simp] theorem State.modProg_invals : (s.modProg n g).invals = s.invals := rfl
@[simp] theorem State.modProg_pageFails : (s.modProg n g).pageFails = s.pageFails := rfl
@[simp] theorem State.modProg_nextId : (s.modProg n g).nextId = s.nextId := rfl
@[simp] theorem State.modProg_agenda : (s.modProg n g).agenda = s.agenda := rfl
@[simp] theorem State.modProg_held : (s.modProg n g).held = s.held := rfl
@[simp] theorem State.modProg_ports : (s.modProg n g).ports = s.ports := rfl
@[simp] theorem State.modProg_phys : (s.modProg n g).phys = s.phys := rfl
@[simp] theorem State.modProg_nativePort : (s.modProg n g).nativePort = s.nativePort := rfl
@[simp] theorem State.modProg_policers : (s.modProg n g).policers = s.policers := rfl
@[simp] theorem State.modProg_policerSeries : (s.modProg n g).policerSeries = s.policerSeries := rfl
@[simp] theorem State.modProg_fabric : (s.modProg n g).fabric = s.fabric := rfl
@[simp] theorem State.modProg_relay : (s.modProg n g).relay = s.relay := rfl
@[simp] theorem State.modProg_progSeries : (s.modProg n g).progSeries = s.progSeries := rfl
@[simp] theorem State.modProg_mem : (s.modProg n g).mem = s.mem := rfl
@[simp] theorem State.modProg_tines : (s.modProg n g).tines = s.tines := rfl
@[simp] theorem State.modProg_lastRing : (s.modProg n g).lastRing = s.lastRing := rfl
@[simp] theorem State.modProg_refills : (s.modProg n g).refills = s.refills := rfl
@[simp] theorem State.modProg_faults : (s.modProg n g).faults = s.faults := rfl
@[simp] theorem State.modProg_faultSeq : (s.modProg n g).faultSeq = s.faultSeq := rfl
@[simp] theorem State.modProg_faultSummary : (s.modProg n g).faultSummary = s.faultSummary := rfl
@[simp] theorem State.modProg_trace : (s.modProg n g).trace = s.trace := rfl
@[simp] theorem State.modProg_globals : (s.modProg n g).globals = s.globals := rfl
@[simp] theorem State.modProg_stop : (s.modProg n g).stop = s.stop := rfl
@[simp] theorem State.modProg_power : (s.modProg n g).power = s.power := rfl
@[simp] theorem State.modProg_closed : (s.modProg n g).closed = s.closed := rfl
@[simp] theorem State.modProg_free : (s.modProg n g).free = s.free := rfl
@[simp] theorem State.modProg_out : (s.modProg n g).out = s.out := rfl

end modProg

section emit

variable (e : Emit)

@[simp] theorem State.emit_pending : (s.emit e).pending = s.pending := rfl
@[simp] theorem State.emit_time : (s.emit e).time = s.time := rfl
@[simp] theorem State.emit_ptp : (s.emit e).ptp = s.ptp := rfl
@[simp] theorem State.emit_ptpFrac : (s.emit e).ptpFrac = s.ptpFrac := rfl
@[simp] theorem State.emit_ptpFreq : (s.emit e).ptpFreq = s.ptpFreq := rfl
@[simp] theorem State.emit_ppsIn : (s.emit e).ppsIn = s.ppsIn := rfl
@[simp] theorem State.emit_ppsInAt : (s.emit e).ppsInAt = s.ppsInAt := rfl
@[simp] theorem State.emit_ppsOutAt : (s.emit e).ppsOutAt = s.ppsOutAt := rfl
@[simp] theorem State.emit_funcs : (s.emit e).funcs = s.funcs := rfl
@[simp] theorem State.emit_manager : (s.emit e).manager = s.manager := rfl
@[simp] theorem State.emit_fw : (s.emit e).fw = s.fw := rfl
@[simp] theorem State.emit_restartGen : (s.emit e).restartGen = s.restartGen := rfl
@[simp] theorem State.emit_restart : (s.emit e).restart = s.restart := rfl
@[simp] theorem State.emit_image : (s.emit e).image = s.image := rfl
@[simp] theorem State.emit_safeHeld : (s.emit e).safeHeld = s.safeHeld := rfl
@[simp] theorem State.emit_goNext : (s.emit e).goNext = s.goNext := rfl
@[simp] theorem State.emit_resetAt : (s.emit e).resetAt = s.resetAt := rfl
@[simp] theorem State.emit_degraded : (s.emit e).degraded = s.degraded := rfl
@[simp] theorem State.emit_fallow : (s.emit e).fallow = s.fallow := rfl
@[simp] theorem State.emit_nonce : (s.emit e).nonce = s.nonce := rfl
@[simp] theorem State.emit_mram : (s.emit e).mram = s.mram := rfl
@[simp] theorem State.emit_regions : (s.emit e).regions = s.regions := rfl
@[simp] theorem State.emit_gens : (s.emit e).gens = s.gens := rfl
@[simp] theorem State.emit_regionSeries : (s.emit e).regionSeries = s.regionSeries := rfl
@[simp] theorem State.emit_paths : (s.emit e).paths = s.paths := rfl
@[simp] theorem State.emit_conns : (s.emit e).conns = s.conns := rfl
@[simp] theorem State.emit_connSeries : (s.emit e).connSeries = s.connSeries := rfl
@[simp] theorem State.emit_keys : (s.emit e).keys = s.keys := rfl
@[simp] theorem State.emit_keySeries : (s.emit e).keySeries = s.keySeries := rfl
@[simp] theorem State.emit_xfers : (s.emit e).xfers = s.xfers := rfl
@[simp] theorem State.emit_flushes : (s.emit e).flushes = s.flushes := rfl
@[simp] theorem State.emit_xlates : (s.emit e).xlates = s.xlates := rfl
@[simp] theorem State.emit_invals : (s.emit e).invals = s.invals := rfl
@[simp] theorem State.emit_pageFails : (s.emit e).pageFails = s.pageFails := rfl
@[simp] theorem State.emit_nextId : (s.emit e).nextId = s.nextId := rfl
@[simp] theorem State.emit_agenda : (s.emit e).agenda = s.agenda := rfl
@[simp] theorem State.emit_held : (s.emit e).held = s.held := rfl
@[simp] theorem State.emit_ports : (s.emit e).ports = s.ports := rfl
@[simp] theorem State.emit_phys : (s.emit e).phys = s.phys := rfl
@[simp] theorem State.emit_nativePort : (s.emit e).nativePort = s.nativePort := rfl
@[simp] theorem State.emit_policers : (s.emit e).policers = s.policers := rfl
@[simp] theorem State.emit_policerSeries : (s.emit e).policerSeries = s.policerSeries := rfl
@[simp] theorem State.emit_fabric : (s.emit e).fabric = s.fabric := rfl
@[simp] theorem State.emit_relay : (s.emit e).relay = s.relay := rfl
@[simp] theorem State.emit_progs : (s.emit e).progs = s.progs := rfl
@[simp] theorem State.emit_progSeries : (s.emit e).progSeries = s.progSeries := rfl
@[simp] theorem State.emit_mem : (s.emit e).mem = s.mem := rfl
@[simp] theorem State.emit_tines : (s.emit e).tines = s.tines := rfl
@[simp] theorem State.emit_lastRing : (s.emit e).lastRing = s.lastRing := rfl
@[simp] theorem State.emit_refills : (s.emit e).refills = s.refills := rfl
@[simp] theorem State.emit_faults : (s.emit e).faults = s.faults := rfl
@[simp] theorem State.emit_faultSeq : (s.emit e).faultSeq = s.faultSeq := rfl
@[simp] theorem State.emit_faultSummary : (s.emit e).faultSummary = s.faultSummary := rfl
@[simp] theorem State.emit_trace : (s.emit e).trace = s.trace := rfl
@[simp] theorem State.emit_globals : (s.emit e).globals = s.globals := rfl
@[simp] theorem State.emit_stop : (s.emit e).stop = s.stop := rfl
@[simp] theorem State.emit_power : (s.emit e).power = s.power := rfl
@[simp] theorem State.emit_closed : (s.emit e).closed = s.closed := rfl
@[simp] theorem State.emit_free : (s.emit e).free = s.free := rfl

end emit

section fresh

@[simp] theorem State.fresh_pending : (s.fresh.2).pending = s.pending := rfl
@[simp] theorem State.fresh_time : (s.fresh.2).time = s.time := rfl
@[simp] theorem State.fresh_ptp : (s.fresh.2).ptp = s.ptp := rfl
@[simp] theorem State.fresh_ptpFrac : (s.fresh.2).ptpFrac = s.ptpFrac := rfl
@[simp] theorem State.fresh_ptpFreq : (s.fresh.2).ptpFreq = s.ptpFreq := rfl
@[simp] theorem State.fresh_ppsIn : (s.fresh.2).ppsIn = s.ppsIn := rfl
@[simp] theorem State.fresh_ppsInAt : (s.fresh.2).ppsInAt = s.ppsInAt := rfl
@[simp] theorem State.fresh_ppsOutAt : (s.fresh.2).ppsOutAt = s.ppsOutAt := rfl
@[simp] theorem State.fresh_funcs : (s.fresh.2).funcs = s.funcs := rfl
@[simp] theorem State.fresh_manager : (s.fresh.2).manager = s.manager := rfl
@[simp] theorem State.fresh_fw : (s.fresh.2).fw = s.fw := rfl
@[simp] theorem State.fresh_restartGen : (s.fresh.2).restartGen = s.restartGen := rfl
@[simp] theorem State.fresh_restart : (s.fresh.2).restart = s.restart := rfl
@[simp] theorem State.fresh_image : (s.fresh.2).image = s.image := rfl
@[simp] theorem State.fresh_safeHeld : (s.fresh.2).safeHeld = s.safeHeld := rfl
@[simp] theorem State.fresh_goNext : (s.fresh.2).goNext = s.goNext := rfl
@[simp] theorem State.fresh_resetAt : (s.fresh.2).resetAt = s.resetAt := rfl
@[simp] theorem State.fresh_degraded : (s.fresh.2).degraded = s.degraded := rfl
@[simp] theorem State.fresh_fallow : (s.fresh.2).fallow = s.fallow := rfl
@[simp] theorem State.fresh_nonce : (s.fresh.2).nonce = s.nonce := rfl
@[simp] theorem State.fresh_mram : (s.fresh.2).mram = s.mram := rfl
@[simp] theorem State.fresh_links : (s.fresh.2).links = s.links := rfl
@[simp] theorem State.fresh_regions : (s.fresh.2).regions = s.regions := rfl
@[simp] theorem State.fresh_gens : (s.fresh.2).gens = s.gens := rfl
@[simp] theorem State.fresh_regionSeries : (s.fresh.2).regionSeries = s.regionSeries := rfl
@[simp] theorem State.fresh_paths : (s.fresh.2).paths = s.paths := rfl
@[simp] theorem State.fresh_conns : (s.fresh.2).conns = s.conns := rfl
@[simp] theorem State.fresh_connSeries : (s.fresh.2).connSeries = s.connSeries := rfl
@[simp] theorem State.fresh_keys : (s.fresh.2).keys = s.keys := rfl
@[simp] theorem State.fresh_keySeries : (s.fresh.2).keySeries = s.keySeries := rfl
@[simp] theorem State.fresh_xfers : (s.fresh.2).xfers = s.xfers := rfl
@[simp] theorem State.fresh_flushes : (s.fresh.2).flushes = s.flushes := rfl
@[simp] theorem State.fresh_xlates : (s.fresh.2).xlates = s.xlates := rfl
@[simp] theorem State.fresh_invals : (s.fresh.2).invals = s.invals := rfl
@[simp] theorem State.fresh_pageFails : (s.fresh.2).pageFails = s.pageFails := rfl
@[simp] theorem State.fresh_nextId : (s.fresh.2).nextId = s.nextId := rfl
@[simp] theorem State.fresh_agenda : (s.fresh.2).agenda = s.agenda := rfl
@[simp] theorem State.fresh_held : (s.fresh.2).held = s.held := rfl
@[simp] theorem State.fresh_ports : (s.fresh.2).ports = s.ports := rfl
@[simp] theorem State.fresh_phys : (s.fresh.2).phys = s.phys := rfl
@[simp] theorem State.fresh_nativePort : (s.fresh.2).nativePort = s.nativePort := rfl
@[simp] theorem State.fresh_policers : (s.fresh.2).policers = s.policers := rfl
@[simp] theorem State.fresh_policerSeries : (s.fresh.2).policerSeries = s.policerSeries := rfl
@[simp] theorem State.fresh_fabric : (s.fresh.2).fabric = s.fabric := rfl
@[simp] theorem State.fresh_relay : (s.fresh.2).relay = s.relay := rfl
@[simp] theorem State.fresh_progs : (s.fresh.2).progs = s.progs := rfl
@[simp] theorem State.fresh_progSeries : (s.fresh.2).progSeries = s.progSeries := rfl
@[simp] theorem State.fresh_mem : (s.fresh.2).mem = s.mem := rfl
@[simp] theorem State.fresh_tines : (s.fresh.2).tines = s.tines := rfl
@[simp] theorem State.fresh_lastRing : (s.fresh.2).lastRing = s.lastRing := rfl
@[simp] theorem State.fresh_refills : (s.fresh.2).refills = s.refills := rfl
@[simp] theorem State.fresh_faults : (s.fresh.2).faults = s.faults := rfl
@[simp] theorem State.fresh_faultSeq : (s.fresh.2).faultSeq = s.faultSeq := rfl
@[simp] theorem State.fresh_faultSummary : (s.fresh.2).faultSummary = s.faultSummary := rfl
@[simp] theorem State.fresh_trace : (s.fresh.2).trace = s.trace := rfl
@[simp] theorem State.fresh_globals : (s.fresh.2).globals = s.globals := rfl
@[simp] theorem State.fresh_stop : (s.fresh.2).stop = s.stop := rfl
@[simp] theorem State.fresh_power : (s.fresh.2).power = s.power := rfl
@[simp] theorem State.fresh_closed : (s.fresh.2).closed = s.closed := rfl
@[simp] theorem State.fresh_out : (s.fresh.2).out = s.out := rfl

end fresh

section newId

@[simp] theorem State.newId_pending : (s.newId.2).pending = s.pending := rfl
@[simp] theorem State.newId_time : (s.newId.2).time = s.time := rfl
@[simp] theorem State.newId_ptp : (s.newId.2).ptp = s.ptp := rfl
@[simp] theorem State.newId_ptpFrac : (s.newId.2).ptpFrac = s.ptpFrac := rfl
@[simp] theorem State.newId_ptpFreq : (s.newId.2).ptpFreq = s.ptpFreq := rfl
@[simp] theorem State.newId_ppsIn : (s.newId.2).ppsIn = s.ppsIn := rfl
@[simp] theorem State.newId_ppsInAt : (s.newId.2).ppsInAt = s.ppsInAt := rfl
@[simp] theorem State.newId_ppsOutAt : (s.newId.2).ppsOutAt = s.ppsOutAt := rfl
@[simp] theorem State.newId_funcs : (s.newId.2).funcs = s.funcs := rfl
@[simp] theorem State.newId_manager : (s.newId.2).manager = s.manager := rfl
@[simp] theorem State.newId_fw : (s.newId.2).fw = s.fw := rfl
@[simp] theorem State.newId_restartGen : (s.newId.2).restartGen = s.restartGen := rfl
@[simp] theorem State.newId_restart : (s.newId.2).restart = s.restart := rfl
@[simp] theorem State.newId_image : (s.newId.2).image = s.image := rfl
@[simp] theorem State.newId_safeHeld : (s.newId.2).safeHeld = s.safeHeld := rfl
@[simp] theorem State.newId_goNext : (s.newId.2).goNext = s.goNext := rfl
@[simp] theorem State.newId_resetAt : (s.newId.2).resetAt = s.resetAt := rfl
@[simp] theorem State.newId_degraded : (s.newId.2).degraded = s.degraded := rfl
@[simp] theorem State.newId_fallow : (s.newId.2).fallow = s.fallow := rfl
@[simp] theorem State.newId_nonce : (s.newId.2).nonce = s.nonce := rfl
@[simp] theorem State.newId_mram : (s.newId.2).mram = s.mram := rfl
@[simp] theorem State.newId_links : (s.newId.2).links = s.links := rfl
@[simp] theorem State.newId_regions : (s.newId.2).regions = s.regions := rfl
@[simp] theorem State.newId_gens : (s.newId.2).gens = s.gens := rfl
@[simp] theorem State.newId_regionSeries : (s.newId.2).regionSeries = s.regionSeries := rfl
@[simp] theorem State.newId_paths : (s.newId.2).paths = s.paths := rfl
@[simp] theorem State.newId_conns : (s.newId.2).conns = s.conns := rfl
@[simp] theorem State.newId_connSeries : (s.newId.2).connSeries = s.connSeries := rfl
@[simp] theorem State.newId_keys : (s.newId.2).keys = s.keys := rfl
@[simp] theorem State.newId_keySeries : (s.newId.2).keySeries = s.keySeries := rfl
@[simp] theorem State.newId_xfers : (s.newId.2).xfers = s.xfers := rfl
@[simp] theorem State.newId_flushes : (s.newId.2).flushes = s.flushes := rfl
@[simp] theorem State.newId_xlates : (s.newId.2).xlates = s.xlates := rfl
@[simp] theorem State.newId_invals : (s.newId.2).invals = s.invals := rfl
@[simp] theorem State.newId_pageFails : (s.newId.2).pageFails = s.pageFails := rfl
@[simp] theorem State.newId_agenda : (s.newId.2).agenda = s.agenda := rfl
@[simp] theorem State.newId_held : (s.newId.2).held = s.held := rfl
@[simp] theorem State.newId_ports : (s.newId.2).ports = s.ports := rfl
@[simp] theorem State.newId_phys : (s.newId.2).phys = s.phys := rfl
@[simp] theorem State.newId_nativePort : (s.newId.2).nativePort = s.nativePort := rfl
@[simp] theorem State.newId_policers : (s.newId.2).policers = s.policers := rfl
@[simp] theorem State.newId_policerSeries : (s.newId.2).policerSeries = s.policerSeries := rfl
@[simp] theorem State.newId_fabric : (s.newId.2).fabric = s.fabric := rfl
@[simp] theorem State.newId_relay : (s.newId.2).relay = s.relay := rfl
@[simp] theorem State.newId_progs : (s.newId.2).progs = s.progs := rfl
@[simp] theorem State.newId_progSeries : (s.newId.2).progSeries = s.progSeries := rfl
@[simp] theorem State.newId_mem : (s.newId.2).mem = s.mem := rfl
@[simp] theorem State.newId_tines : (s.newId.2).tines = s.tines := rfl
@[simp] theorem State.newId_lastRing : (s.newId.2).lastRing = s.lastRing := rfl
@[simp] theorem State.newId_refills : (s.newId.2).refills = s.refills := rfl
@[simp] theorem State.newId_faults : (s.newId.2).faults = s.faults := rfl
@[simp] theorem State.newId_faultSeq : (s.newId.2).faultSeq = s.faultSeq := rfl
@[simp] theorem State.newId_faultSummary : (s.newId.2).faultSummary = s.faultSummary := rfl
@[simp] theorem State.newId_trace : (s.newId.2).trace = s.trace := rfl
@[simp] theorem State.newId_globals : (s.newId.2).globals = s.globals := rfl
@[simp] theorem State.newId_stop : (s.newId.2).stop = s.stop := rfl
@[simp] theorem State.newId_power : (s.newId.2).power = s.power := rfl
@[simp] theorem State.newId_closed : (s.newId.2).closed = s.closed := rfl
@[simp] theorem State.newId_free : (s.newId.2).free = s.free := rfl
@[simp] theorem State.newId_out : (s.newId.2).out = s.out := rfl

end newId

end Sys2Proof.Machine
end

