-- ==== Sys2Proof/Machine/Flags.lean ====
section
/-! DEFINITION. Machine/Flags.lean: what the registers of a function read as (R33 to R35, R49, R63 to R65, R75, R429). A plain read
changes nothing and is no row of the table; the reads that act (EVC_CLAIM, MBX_EVT_LOST, ID_TIME_LO) are rows of their own. -/

namespace Sys2Proof.Machine

/-- ID_LINK (R64): a virtual function reads the physical function's LINK_RETAIN. -/
def State.idLink (s : State) (f : FuncId) : Nat :=
  let l := s.link (linkOf f)
  min l.retrains 0xFFFF * 2 ^ 16 + (if l.up then l.width * 2 ^ 8 + l.rate * 2 ^ 4 else 0) + b2n l.retain * 4 + (linkOf f).val

/-- ID_STATUS (R64). -/
def State.idStatus (s : State) (f : FuncId) : Nat :=
  b2n (s.link (linkOf f)).replaying * 16 + b2n s.fallow * 8 + b2n (s.fw == .safeMode) * 4 + b2n s.degraded * 2 + b2n (s.fenced f)

/-- Table Size of a function's MSI-X capability: its vectors less one (R381). -/
def State.msixTableSize (s : State) (f : FuncId) : Nat := s.vectors f - 1

/-- STATE of MBX_CMD_STATUS (R35). -/
def mbxStateCode : MbxState → Nat
  | .idle => 0
  | .posted => 1
  | .running => 2
  | .done => 3

/-- FW_STATE of MBX_FW_STATE (R35). -/
def fwStateCode : FwState → Nat
  | .booting => 0
  | .running => 1
  | .restarting => 2
  | .safeMode => 3

/-- MBX_CMD_CTRL: GO reads 1 while STATE is POSTED or RUNNING (R35). -/
def Mbx.cmdCtrl (m : Mbx) : Nat := b2n (m.state == .posted || m.state == .running)

/-- MBX_CMD_STATUS (R35). -/
def Mbx.cmdStatus (m : Mbx) : Nat := m.result.toNat * 2 ^ 24 + m.token.toNat * 2 ^ 8 + mbxStateCode m.state

/-- MBX_FW_STATE (R35). -/
def State.fwState (s : State) : Nat := s.restartGen.toNat * 2 ^ 16 + fwStateCode s.fw

/-- MBX_CAPS (R35). -/
def State.mbxCaps (s : State) (f : FuncId) : Nat := f.val * 2 ^ 8 + b2n (isVf f) * 2 + b2n (f == s.manager)

/-- MBX_INT_CTRL (R35). -/
def Mbx.intCtrl (m : Mbx) : Nat := b2n m.evtEn * 2 + b2n m.doneEn

/-- The identity and status block (R64); ID_TIME_HI reads the word that ID_TIME_LO latched. -/
def State.idBlock (s : State) (f : FuncId) (off : Nat) : Nat :=
  if off = 0x00 then 0x74400000 + 0xB1
  else if off = 0x04 then s.idLink f
  else if off = 0x08 then s.idStatus f
  else if off = 0x10 then s.time % 2 ^ 32
  else if off = 0x14 then (s.func f).timeHi
  else 0

/-- The mailbox registers (R35). -/
def State.mbxBlock (s : State) (f : FuncId) (off : Nat) : Nat :=
  let m := (s.func f).mbx
  if off = 0x400 then m.cmdCtrl
  else if off = 0x404 then m.cmdStatus
  else if off = 0x408 then m.evtProd.toNat
  else if off = 0x40C then m.evtCons.toNat
  else if off = 0x410 then m.lost
  else if off = 0x414 then s.fwState
  else if off = 0x418 then s.mbxCaps f
  else if off = 0x41C then m.intCtrl
  else 0

/-- The window registers (R65). -/
def Win.block (w : Win) (off : Nat) : Nat :=
  if off = 0x800 then w.base.toNat
  else if off = 0x804 then b2n w.writeEn * 2 + b2n w.enable
  else if off = 0x808 then b2n w.fault
  else 0

/-- The event controller: its registers, the route table and the pending bitmap (R63, R75); EVC_CLAIM stands for the source a claim
would return, and write-only fields read 0. -/
def Evc.block (e : Evc) (off : Nat) : Nat :=
  if off = 0xC00 then e.best.getD 0xFFF
  else if off = 0xC08 then e.threshold.toNat
  else if off = 0xC0C then e.running
  else if off = 0xC14 then b2n e.msgEn
  else if 0x4000 ≤ off ∧ off < 0x7FFC then (tgetD e.route ((off - 0x4000) / 4) 0).toNat
  else if 0x8000 ≤ off ∧ off < 0x8200 then
    ((List.range 32).map (fun i => b2n (e.pending.contains ((off - 0x8000) * 8 + i)) * 2 ^ i)).sum
  else 0

/-- The counter block: reads return the shadow copy (R429). -/
def Counters.block (c : Counters) (off : Nat) : Nat :=
  if off = 0x9000 then b2n c.snap
  else if off = 0x9008 then c.snapTime % 2 ^ 32
  else if off = 0x900C then c.snapTime / 2 ^ 32 % 2 ^ 32
  else if 0x9100 ≤ off ∧ off < 0x9100 + 8 * 26 then
    c.shadow.getD ((off - 0x9100) / 8) 0 / 2 ^ (32 * ((off - 0x9100) / 4 % 2)) % 2 ^ 32
  else 0

/-- A 32-bit aligned read of BAR0 outside the two mailboxes: a reserved offset reads 0 (R63). -/
def State.regRead (s : State) (f : FuncId) (off : Nat) : Word32 :=
  let v := s.func f
  BitVec.ofNat 32 (
    if off < 0x400 then s.idBlock f off
    else if off < 0x800 then s.mbxBlock f off
    else if off < 0xC00 then v.win.block off
    else if off < 0x9000 then v.evc.block off
    else v.cnt.block off)

/-- A byte of the command mailbox; one that the manual leaves undefined is free (R33, R38). -/
def State.mailByte (s : State) (f : FuncId) (off : Nat) : Byte :=
  let m := (s.func f).mbx
  if inRanges m.cmdUndef off then Config.freeByte s.free off else mget m.cmd off

/-- The 64 bytes of an event record (R49). -/
def EvtRec.toBytes (r : EvtRec) : Bytes :=
  leBytes 2 r.kind.toNat ++ leBytes 2 r.token.toNat ++ leBytes 4 r.seq ++ leBytes 8 r.time ++ fit 48 r.payload

/-- A slot of the event mailbox (R48, R49): zeros until a record is written, DESIGN CHOICE (log entry 5). -/
def State.evtSlot (s : State) (f : FuncId) (slot : Nat) : Bytes :=
  match tget (s.func f).mbx.evtSlots slot with
  | some r => r.toBytes
  | none => zeros 64

/-! ### BAR4 and configuration space (R61, R62, R82) -/

/-- A 32-bit aligned read of BAR4: the MSI-X table at 0, the pending-bit array at 0x8000 (R62, R82). -/
def State.regRead4 (s : State) (f : FuncId) (off : Nat) : Word32 :=
  let x := (s.func f).msix
  let e := x.entry (off / 16)
  BitVec.ofNat 32 (
    if off < 0x8000 ∧ off / 16 < s.vectors f then
      match off % 16 / 4 with
      | 0 => e.addr.toNat
      | 1 => e.addr.toNat / 2 ^ 32
      | 2 => e.data.toNat
      | _ => b2n e.masked
    else if 0x8000 ≤ off ∧ off < 0x8000 + 8 * ((s.vectors f + 63) / 64) then
      ((List.range 32).map (fun i => b2n (x.pba.contains ((off - 0x8000) * 8 + i)) * 2 ^ i)).sum
    else 0)

/-- A base address register (R62). -/
structure BarInfo where
  bar : Nat
  size : Nat
  wide : Bool
  prefetch : Bool
  deriving DecidableEq, Repr

/-- The BARs of every function (R62). -/
def bars : List BarInfo := [⟨0, 0x1000000, true, false⟩, ⟨2, 0x4000000, true, true⟩, ⟨4, 0x10000, false, false⟩]

/-- Device ID that a function reports (R61). -/
def deviceId (f : FuncId) : BitVec 16 := if isVf f then 0x7441 else 0x7440

/-- Class code that a function reports: processing accelerator (R61). -/
def classCode : BitVec 24 := 0x120000

/-- The identification words of a function's configuration header: vendor and device ID, and class code (R61). -/
def configIds (f : FuncId) : BitVec 16 × BitVec 16 × BitVec 24 := (Config.vendorId, deviceId f, classCode)

end Sys2Proof.Machine
end

