-- ==== Sys2Proof/Tests/Slice0.lean ====
section
/-! SUPPORT. Tests/Slice0.lean: states that meet the hypotheses of the statements, the checks of WellFormed that refuse an
ill-formed command, and worked examples of the manual. Every test is one step, or the hypotheses of one, on a small state. -/

namespace Sys2Proof.Tests

open Sys2Proof.Machine

set_option Elab.async false

/-! ### Small states -/

/-- A powered module whose firmware serves, with link 0 up; no stop. -/
def up : State := { State.reset with
  power := { Power.reset with input := true, good := true, on := true, served := true }
  fw := .running
  links := [(0, { Link.reset with up := true, rate := 6, width := 16 })] }

/-- A payload of `n` bytes with fields (offset, width, value). -/
def pay (n : Nat) (l : List (Nat × Nat × Nat)) : Bytes := l.foldl (fun b x => overlay b x.1 (leBytes x.2.1 x.2.2)) (zeros n)

/-- Function 0's mailbox holding a posted command, laid out as R37 says: OPCODE, TOKEN, LENGTH, TIMEOUT_MS, flags, version 1. -/
def posted (s : State) (op : Nat) (p : Bytes) (flags : Nat := 0) : State :=
  let c := leBytes 2 op ++ leBytes 2 7 ++ leBytes 4 p.length ++ leBytes 4 1000 ++ leBytes 4 flags ++ leBytes 2 1 ++ zeros 14 ++ p
  s.modMbx 0 (fun m => { m with state := .posted, token := 7, cmd := (List.range c.length).zip c })

/-- A region of function 0, readable and writable by both sides. -/
def region (k : RegionKind) (base len : Nat) : Region :=
  { gen := 0, func := 0, kind := k, viaRoot := false, access := 0x1F, pasid := 0, base := base, length := len, mirrorAddr := 0
    mirrorEntries := 16, mirrorPage := 2, remap := [], sealKeys := none, counters := [], weights := none, extents := [] }

/-- A native connection of function 0, in RESET. -/
def conn0 : Conn := Conn.fresh 0 .pinned false false 0 none none none none 4

/-- A program of function 0 on furrow 1, READY, started by counter 0. -/
def prog0 : Prog :=
  { func := 0, image := [], deterministic := false, keepWarm := false, cores := 1, tines := 1, furrows := [1], coreList := [16], descs := [], spoil := 0, counters := 0, rnd := 0, sat := 0
    schedule := 0, streams := 0, tilthBytes := 0, hbmBytes := 0, storage := [], bindings := [], cq := none, seed := 0, startKind := 1
    startInput := 0, startCounter := 0, errSource := 0, threshold := 1, step := 1, inputBase := 0, weightsKey := 0, latencyNs := 0
    state := .ready, run := 0, runs := 0, lastFlags := 0, detLate := 0, overrun := 0, short := 0, badInput := 0, pulseLost := 0
    pending := 0, frames := [], warmHold := 1000000, current := none, glean := ⟨0, 0, 0, 0, 0, 0, 0, 0⟩, waitSince := 0
    loading := false, unloading := false }

/-- Function 0 with shares and one of each object. -/
def func0 : Func := { Func.fresh .active with
  hbm := [1, 2, 3, 4], furrows := 0xF, shares := (lrange 3 13).map (fun k => (k, 2048)), cfg := { Cfg.reset with ats := true }
  rings := [(0, Ring.fresh .copy false 4 1 1 0 none 1 0), (1, Ring.fresh .send false 4 1 1 0 none 1 0),
    (2, Ring.fresh .coll false 4 1 1 0 none 1 0), (3, { Ring.fresh .copy false 4 1 1 0 none 1 0 with error := true })]
  cqs := [(0, Cq.fresh 4 0 0 1 0)], trigs := [(0, ⟨5, 0, 0, false⟩), (1, ⟨0, 0, 0, false⟩)]
  shapers := [(0, ⟨0, ⟨100, 1000, 0, none⟩, [], [], false⟩), (1, ⟨0, ⟨100, 1000, 0, none⟩, [2], [1], false⟩)]
  comms := [(0, ⟨1, 1, 0, 1, true, 0, 0, 0, 0, 0, [], false, 0, [], false, []⟩)] }

/-- A module in use: the functions, regions, connections, keys and programs that the commands below name. Function 1 is ACTIVE, 2 FENCED,
64 UNPROVISIONED, 128 ACTIVE. -/
def rig : State := { up with
  funcs := [(0, func0), (1, Func.fresh .active), (2, Func.fresh .fenced), (128, Func.fresh .active)]
  regions := [(1, region .module 0x200000 0x1000), (2, region .hostAts 0 0x400000), (3, region .hostMirror 0 0x400000)]
  regionSeries := Series.from 4
  conns := [(1, conn0), (2, { conn0 with state := .ready, txKey := some 7, rxKey := some 8, sendRing := some 1, shapers := [1] }),
    (3, { conn0 with state := .error })]
  connSeries := Series.from 4
  keys := [(1, ⟨0, .connTx, zeros 4, zeros 32, 0, false, none⟩), (2, ⟨0, .connRx, zeros 4, zeros 32, 0, false, none⟩),
    (3, ⟨0, .copy, zeros 4, zeros 32, 0, false, none⟩)]
  keySeries := Series.from 4
  progs := [(1, prog0), (2, { prog0 with furrows := [2], coreList := [32], glean := ⟨1, 0, 0, 0, 0, 1, 0, 8⟩ })]
  progSeries := Series.from 3
  policers := [(0, ⟨none, none, false, 0, false, 1000, 1000, 2000, 2000, [], 0, 0, 0, 0, 0, 0⟩)]
  policerSeries := Series.from 1 }

/-- The commands listed, each as opcode, plan and payload, pass every check of R45 in state `s`. -/
def acceptsAll (s : State) (l : List (Nat × (Cmd → State → Plan) × Bytes)) : Bool :=
  l.all (fun x => (posted s x.1 x.2.2).accepts 0 x.1 x.2.1)

/-! ### Mailbox commands: each accepted somewhere (the hypotheses of the statements on what they answer) -/

theorem test_information_accepted : acceptsAll up [(0x0000, nopPlan, []), (0x0001, moduleInfoPlan, [])] = true := by decide +kernel

theorem test_undefined_opcode_taken : let s := posted up 0x0002 []
    s.canTake 0 = true ∧ opcodeDefined (s.cmd 0).opcode = false ∧ (headerChecks (s.cmd 0)).all (fun k => !k.bad) = true ∧
    (s.func 0).state.isFenced = false ∧ (s.cmd 0).behalf = false := by decide +kernel

theorem test_factory_test_taken : let s := posted up 0x0B80 []
    let z := posted { up with mram := { up.mram with lc := 0 } } 0x0BFF []
    (s.canTake 0 = true ∧ (s.cmd 0).opcode = 0x0B80 ∧ (headerChecks (s.cmd 0)).all (fun k => !k.bad) = true ∧ (s.func 0).state = .active ∧
      (s.cmd 0).behalf = false ∧ 0 = s.manager ∧ s.fw = .running ∧ s.mram.lc ≠ 0 ∧ s.mram.lc ≠ 3) ∧
    z.canTake 0 = true ∧ (z.cmd 0).opcode = 0x0BFF ∧ (headerChecks (z.cmd 0)).all (fun k => !k.bad) = true ∧ (z.func 0).state = .active ∧
      (z.cmd 0).behalf = false ∧ 0 = z.manager ∧ z.fw = .running ∧ z.mram.lc = 0 := by decide +kernel

theorem test_function_commands_accepted : acceptsAll rig
    [(0x0100, funcQueryPlan, pay 8 []), (0x0101, funcCreatePlan, pay 8 [(0, 2, 64), (2, 1, 1), (4, 4, 10)]),
     (0x0102, funcDestroyPlan, pay 8 [(0, 2, 1)]), (0x0103, funcShareSetPlan, pay 16 [(2, 2, 15), (8, 8, 2048)]),
     (0x0103, funcShareSetPlan, pay 16 [(2, 2, 15), (8, 8, 2049)]), (0x0103, funcShareSetPlan, pay 16 [(2, 2, 2), (8, 8, 0xFFFFFFFFFF)]),
     (0x0104, funcAttachPlan, pay 8 [(0, 2, 2)]), (0x0105, managerTransferPlan, pay 8 [(0, 2, 128)]),
     (0x0106, funcPolicySetPlan, pay 8 [(4, 4, 60000)])] = true := by decide +kernel

theorem test_share_clauses : rig.shareOf 0 15 = 2048 ∧ (posted rig 0x0103 (pay 16 [(2, 2, 15), (8, 8, 2048)])).shareOf 0 15 = 2048 := by
  decide +kernel

theorem test_region_commands_accepted : acceptsAll rig
    [(0x0200, regionCreatePlan, pay 40 [(0, 1, 2), (2, 2, 0x83), (8, 8, 0x400000), (16, 8, 0x200000)]), (0x0201, regionDestroyPlan, pay 8 [(0, 4, 2)]),
     (0x0202, regionQueryPlan, pay 8 [(0, 4, 1)]), (0x0203, regionRemapPlan, pay 24 [(0, 4, 2), (8, 8, 0x200000), (16, 8, 0x600000)]),
     (0x0210, mirrorInvalidatePlan, pay 24 [(0, 4, 3), (8, 8, 0x3FFFFF), (16, 8, 1)]),
     (0x0220, hotConfigPlan, pay 12 [(0, 4, 1000), (8, 2, 4094)]), (0x0221, hotReadPlan, pay 8 [(0, 4, 253)])] = true ∧
    (∃ r, rig.region 1 = some r) ∧ ∃ k q, rig.regionSeries.take 1048576 = some (k, q) :=
  ⟨by decide +kernel, ⟨_, rfl⟩, _, _, rfl⟩

theorem test_ring_commands_accepted : acceptsAll rig
    [(0x0300, ringCreatePlan, pay 32 [(2, 1, 5), (3, 1, 16), (4, 1, 64), (8, 4, 0xFFFFFFFF), (12, 4, 1), (16, 8, 0x800)]),
     (0x0703, collRingCreatePlan, pay 32 [(0, 1, 4), (1, 1, 1), (2, 1, 1), (8, 4, 0), (12, 4, 1), (16, 8, 0xC00)]),
     (0x0301, ringDestroyPlan, pay 8 [(0, 4, 0)]), (0x0302, ringQueryPlan, pay 8 [(0, 4, 3)]),
     (0x0303, ringModifyPlan, pay 8 [(4, 1, 16), (5, 1, 1)]), (0x0304, ringRestartPlan, pay 8 [(0, 4, 3)])] = true ∧
    (∃ k q, (rig.func 0).ringSeries.take 262144 = some (k, q)) ∧ ∃ g, rig.ring 0 3 = some g :=
  ⟨by decide +kernel, ⟨_, _, rfl⟩, _, rfl⟩

theorem test_completion_and_trigger_commands_accepted : acceptsAll rig
    [(0x0310, cqCreatePlan, pay 24 [(0, 1, 4), (4, 4, 1024), (8, 4, 1), (16, 8, 0xE00)]), (0x0311, cqDestroyPlan, pay 8 []),
     (0x0312, cqQueryPlan, pay 8 []), (0x0330, trigAllocPlan, pay 16 [(0, 2, 16), (8, 8, 9)]), (0x0331, trigFreePlan, pay 8 [(0, 2, 1)]),
     (0x0332, trigSetPlan, pay 16 [(8, 8, max64)]), (0x0333, trigQueryPlan, pay 8 []), (0x0334, trigAddPlan, pay 16 [(8, 8, max64)])] = true ∧
    (∃ k q, (rig.func 0).cqSeries.take 65536 = some (k, q)) ∧ (∃ k q, (rig.func 0).trigSeries.take 65536 = some (k, q)) ∧
    ∃ q, rig.cq 0 0 = some q :=
  ⟨by decide +kernel, ⟨_, _, rfl⟩, ⟨_, _, rfl⟩, _, rfl⟩

theorem test_connection_commands_accepted : acceptsAll rig
    [(0x0320, connCreatePlan, pay 32 [(0, 1, 1), (1, 1, 3), (4, 4, 1), (8, 4, 0xFFFFFFFF), (12, 4, 0), (16, 4, 0x80000000), (20, 1, 16)]),
     (0x0321, connConnectPlan, pay 48 [(0, 4, 1), (4, 4, 0xFFFFFF), (9, 1, 5), (10, 1, 64), (11, 1, 63), (22, 1, 24)]),
     (0x0322, connDestroyPlan, pay 8 [(0, 4, 2), (4, 4, 1)]), (0x0323, connQueryPlan, pay 8 [(0, 4, 2)]),
     (0x0324, connResetPlan, pay 8 [(0, 4, 3)])] = true ∧
    (∃ k q, rig.connSeries.take 0x1000000 = some (k, q)) ∧ ∃ c, rig.conn 1 = some c :=
  ⟨by decide +kernel, ⟨_, _, rfl⟩, _, rfl⟩

theorem test_key_and_transport_commands_accepted : acceptsAll rig
    [(0x0400, keyCreatePlan, pay 40 [(0, 1, 0), (4, 4, 1)]), (0x0401, keyDestroyPlan, pay 8 [(0, 4, 3)]),
     (0x0410, connSetKeysPlan, pay 16 [(0, 4, 1), (4, 4, 1), (8, 4, 2)]), (0x0411, connRotateKeysPlan, pay 16 [(0, 4, 2), (4, 4, 1), (8, 4, 2)]),
     (0x0420, xportSetPlan, pay 32 [(0, 4, 1), (4, 4, 5), (8, 4, 10000), (12, 1, 64), (13, 1, 1), (14, 1, 8), (15, 1, 1), (16, 1, 64),
       (20, 4, 250), (24, 4, 10000), (28, 4, 64)]), (0x0421, xportQueryPlan, pay 8 [(0, 4, 2)]),
     (0x0500, ccSetPlan, pay 40 [(0, 4, 1), (4, 2, 4096), (6, 2, 64), (8, 4, 65536), (12, 1, 1), (13, 1, 8), (14, 1, 100), (16, 4, 500),
       (20, 4, 1000), (24, 2, 1000), (26, 2, 1), (28, 2, 5), (30, 1, 16), (32, 4, 1), (36, 4, 100000)]),
     (0x0501, ccQueryPlan, pay 8 [(0, 4, 2)])] = true ∧ ∃ k q, rig.keySeries.take 0x100000000 = some (k, q) :=
  ⟨by decide +kernel, _, _, rfl⟩

theorem test_scheduling_commands_accepted : acceptsAll rig
    [(0x0510, shaperAllocPlan, pay 16 [(0, 1, 24), (4, 4, 1600000), (8, 4, 0x1000000)]), (0x0511, shaperSetPlan, pay 16 [(4, 4, 1)]),
     (0x0512, shaperBindPlan, pay 8 [(4, 4, 1)]), (0x0512, shaperBindPlan, pay 8 [(2, 1, 1), (4, 4, 1)]),
     (0x0512, shaperBindPlan, pay 8 [(0, 2, 1), (2, 1, 2), (4, 4, 2)]), (0x0513, shaperFreePlan, pay 8 []),
     (0x0520, schedFuncSetPlan, pay 16 [(2, 2, 0xFFFF), (4, 4, 1600000), (8, 4, 1600000)]),
     (0x0521, schedClassSetPlan, pay 84 [(1, 1, 7), (3, 1, 64), (4, 4, 0x800000), (8, 4, 5), (12, 4, 6), (16, 2, 65535), (83, 1, 7)]),
     (0x0530, policerSetPlan, pay 44 [(5, 1, 7), (12, 4, 0), (16, 4, 1600000), (20, 4, 1518), (24, 4, 0x1000000)]),
     (0x0530, policerSetPlan, pay 44 [(0, 2, 0xFFFF), (2, 1, 1), (3, 1, 15 - 4), (8, 4, 1), (20, 4, 1518), (24, 4, 1518)]),
     (0x0531, policerQueryPlan, pay 8 []), (0x0532, policerFreePlan, pay 8 []),
     (0x0540, gateSetPlan, pay 32 [(1, 2, 1), (8, 4, 1000), (24, 4, 1000), (31, 1, 0xFF)]), (0x0540, gateSetPlan, pay 24 []),
     (0x0541, gateQueryPlan, pay 8 [(1, 1, 1)])] = true ∧
    (∃ k q, (rig.func 0).shaperSeries.take 16384 = some (k, q)) ∧ (∃ k q, rig.policerSeries.take 4096 = some (k, q)) ∧
    ∃ q, tget rig.policers 0 = some q :=
  ⟨by decide +kernel, ⟨_, _, rfl⟩, ⟨_, _, rfl⟩, _, rfl⟩

theorem test_ring_unbind_accepted :
    acceptsAll (rig.modRing 0 1 (fun g => { g with shapers := [1] })) [(0x0512, shaperBindPlan, pay 8 [(0, 2, 1), (2, 1, 3), (4, 4, 1)])] = true := by
  decide +kernel

theorem test_port_commands_accepted : acceptsAll rig
    [(0x0600, portQueryPlan, pay 8 [(0, 1, 24)]), (0x0601, portSetPlan, pay 32 [(1, 1, 2), (2, 2, 9216), (10, 1, 0x3F), (12, 1, 7), (13, 1, 3)]),
     (0x0602, portBreakoutPlan, pay 8 [(0, 1, 3), (1, 1, 3)]), (0x0603, portResetPlan, pay 8 []), (0x0604, portStatsPlan, pay 8 []),
     (0x0610, portMgmtSetPlan, pay 16 [(1, 1, 15), (2, 1, 1), (3, 1, 15), (4, 6, 1)]),
     (0x0611, portFilterSetPlan, pay 20 [(1, 1, 31), (2, 1, 3), (3, 1, 2), (4, 1, 15), (16, 4, 1)]),
     (0x0612, portQueueBindPlan, pay 12 [(1, 1, 0x8F), (4, 4, 0xFFFFFFFF), (8, 4, 0xFFFFFFFF)])] = true ∧
    acceptsAll up [(0x0605, portGlobalSetPlan, pay 8 [(0, 2, 0xFFFF)])] = true ∧
    acceptsAll { up with phys := [(0, { PhysSt.reset with breakout := 3 })] } [(0x0604, portStatsPlan, pay 8 [(0, 1, 7)])] = true := by
  decide +kernel

theorem test_time_and_relay_commands_accepted : acceptsAll rig
    [(0x0620, ptpAdjustPlan, pay 16 [(0, 1, 2), (8, 8, 500000 * 65536)]), (0x0620, ptpAdjustPlan, pay 16 [(8, 8, max64)]),
     (0x0620, ptpAdjustPlan, pay 16 [(0, 1, 1), (8, 8, max64)]), (0x0621, ptpReadPlan, []), (0x0622, portTsBindPlan, pay 8 [(0, 1, 3)]),
     (0x0630, relaySetPlan, pay 20 [(0, 4, 0xFFFFF), (4, 1, 255), (8, 4, 1000), (12, 4, 100)]),
     (0x0631, relayTableWritePlan, pay 20 [(0, 1, 1), (2, 2, 4095), (8, 1, 20), (9, 1, 1), (12, 8, 0xFFFFFFFFFFFFFF18)]),
     (0x0632, relayEpochSwitchPlan, pay 8 [(0, 1, 1), (4, 4, 100)]), (0x0632, relayEpochSwitchPlan, pay 8 [(4, 4, 1000000)]),
     (0x0633, relayQueryPlan, [])] = true := by decide +kernel

theorem test_communicator_commands_accepted : acceptsAll rig
    [(0x0700, commCreatePlan, pay 52 [(4, 4, 2), (12, 2, 1), (14, 1, 1), (15, 1, 1), (40, 4, 1), (44, 4, 1), (48, 4, 1)]),
     (0x0701, commDestroyPlan, pay 8 []), (0x0702, commQueryPlan, pay 8 []), (0x0710, collSlotsQueryPlan, [])] = true ∧
    (∃ k q, (rig.func 0).commSeries.take 65536 = some (k, q)) ∧ ∃ m, rig.comm 0 0 = some m :=
  ⟨by decide +kernel, ⟨_, _, rfl⟩, _, rfl⟩

theorem test_memory_commands_accepted : acceptsAll rig
    [(0x0900, memLayoutQueryPlan, []), (0x0920, shareScrubPlan, pay 16 [(0, 8, 0x800000), (8, 8, 0x200000)]),
     (0x0930, scrubSetPlan, pay 8 [(0, 4, 3600), (4, 4, 300)]), (0x0931, scrubQueryPlan, []),
     (0x0910, granuleGrantPlan, pay 24 [(0, 2, 1), (8, 8, 0xA00000), (16, 8, 0x200000)]),
     (0x0911, granuleRevokePlan, pay 24 [(8, 8, 0x400000), (16, 8, 0x600000)]), (0x0912, granuleQueryPlan, pay 16 []),
     (0x0A00, spareQueryPlan, []), (0x0A01, repairPlan, pay 16 [(0, 1, 9), (4, 4, 0x31F)]), (0x0A02, holdupTestPlan 1699, [])] = true ∧
    acceptsAll up [(0x0901, memLayoutSetPlan, pay 56 [(0, 4, 4096), (4, 4, 1024), (8, 4, 8192)])] = true := by decide +kernel

theorem test_reset_and_image_commands_accepted :
    acceptsAll rig
    [(0x0B00, moduleResetPlan, []), (0x0B01, fwRestartPlan, pay 8 [(0, 1, 255)]), (0x0B02, tineResetPlan, pay 8 [(0, 8, 2 ^ 40 - 1)]),
     (0x0B10, imageQueryPlan, []), (0x0B11, imageProgramPlan ⟨true, 0, 1, true⟩, pay 24 [(0, 4, 2), (16, 4, 0x400000)]),
     (0x0B12, imageSelectPlan, pay 8 [(0, 1, 1), (1, 1, 1)]), (0x0B20, bootLogReadPlan, pay 8 []), (0x0B21, bootLogClearPlan, [])] = true ∧
    acceptsAll up [(0x0B03, moduleFallowPlan, pay 8 []), (0x0B04, moduleWipePlan, [])] = true ∧
    acceptsAll { up with fallow := true } [(0x0B03, moduleFallowPlan, pay 8 [(0, 1, 1)])] = true := by decide +kernel

theorem test_observation_commands_accepted : acceptsAll rig
    [(0x0C00, cntGlobalReadPlan, pay 8 [(0, 1, 5), (2, 2, 255)]), (0x0C10, traceConfigPlan, pay 16 [(1, 1, 100), (8, 2, 0xFFFF), (10, 1, 15), (11, 1, 8)]),
     (0x0C11, traceControlPlan, pay 8 []), (0x0C12, traceQueryPlan, []),
     (0x0C13, traceReadPlan, pay 24 [(0, 1, 1), (4, 4, 1), (8, 8, 0xFE0), (16, 8, 32)]), (0x0C20, faultReadPlan, pay 8 []),
     (0x0C20, faultReadPlan, pay 8 [(0, 1, 1)]), (0x0C30, hangGraphPlan, pay 24 [(0, 4, 1), (16, 8, 32)])] = true ∧
    acceptsAll { rig with trace := { Trace.reset with state := .active } }
      [(0x0C11, traceControlPlan, pay 8 [(0, 1, 1)]), (0x0C11, traceControlPlan, pay 8 [(0, 1, 2)])] = true := by decide +kernel

theorem test_glean_and_stop_commands_accepted :
    acceptsAll rig
    [(0x0C40, gleanArmPlan (some 8), pay 40 [(0, 4, 1), (12, 4, 0xFFFFFFFF), (16, 4, 1), (24, 8, 0xFF8), (32, 8, 8)]),
     (0x0C41, gleanQueryPlan, pay 8 [(0, 4, 1)]), (0x0C42, gleanCancelPlan, pay 8 [(0, 4, 2)]), (0x0C50, globalStopPlan, []),
     (0x0C51, globalResumePlan, []), (0x0C52, stopReadPlan, pay 8 [(0, 2, 235)])] = true ∧
    (∃ p, rig.prog 1 = some p) ∧
    acceptsAll { rig with stop := { rig.stop with stopped := true } } [(0x0C51, globalResumePlan, [])] = true :=
  ⟨by decide +kernel, ⟨_, rfl⟩, by decide +kernel⟩

/-- A small program image (R314): one core of one furrow, a code section of 24 bytes and one region input of 8 bytes. -/
def image0 : Bytes :=
  let b := overlay (pay 128 [(4, 2, 1), (8, 1, 1), (9, 1, 1), (10, 1, 1), (48, 2, 2), (64, 1, 1), (68, 4, 104), (72, 8, 24), (80, 1, 6), (84, 4, 96),
    (88, 8, 8), (100, 4, 8)]) 0 (ascii "DRIL")
  overlay b 56 (leBytes 8 (crc64 b))

/-- A DRILL_LOAD of it, started by counter 0, its input bound to region 1. -/
def load0 : Bytes := pay 80 [(0, 4, 2), (4, 4, 128), (16, 4, 0xFFFFFFFF), (24, 1, 1), (30, 1, 1), (40, 8, 0xFFFFFFFF), (60, 4, 1), (64, 8, 0xFF8)]

theorem test_program_commands_accepted : acceptsAll rig
    [(0x0800, drillLoadPlan image0 none [], load0), (0x0801, drillUnloadPlan, pay 8 [(0, 4, 1)]), (0x0802, drillQueryPlan, pay 8 [(0, 4, 1)]),
     (0x0803, drillControlPlan, pay 16 [(0, 4, 2), (4, 1, 3), (8, 8, 1000000000)]), (0x0810, furrowQueryPlan, pay 8 [(0, 1, 39)])] = true ∧
    (∃ k q, rig.progSeries.take 0xFFFFFFFF = some (k, q)) ∧ (∃ p, rig.prog 1 = some p) :=
  ⟨by decide +kernel, ⟨_, _, rfl⟩, _, rfl⟩

theorem test_drill_load_numbers :
    let s := posted rig 0x0800 load0
    let c := s.cmd 0
    (s.take 0).inputBaseFor c.obj (cmdBindings c (s.loadImage c image0).1) = some 0 ∧ (s.take 0).progSeries.take 0xFFFFFFFF = some (3, Series.from 4) := by
  decide +kernel

theorem test_drill_check_only :
    let s := posted rig 0x0800 load0 1
    let p := drillLoadPlan image0 none [] (s.cmd 0) s
    s.canTake 0 = true ∧ (s.cmd 0).opcode = 0x0800 ∧ (s.cmd 0).checkOnly = true ∧
    firstFailing (commonChecks s (s.cmd 0) 0x0800 p.managerOnly p.size ++ p.checks) = none := by decide +kernel

/-- An LC_TRANSITION token of this module for 2 (DEPLOYED) to 3 (RETURNED), signed by the owner, with the nonce of bytes 0. -/
def lcToken : Bytes := overlay (pay 192 [(4, 2, 1), (6, 1, 2), (7, 1, 3), (40, 1, 1)]) 0 (ascii "LCTK" ++ [1, 0, 2, 3] ++ serialBytes)

/-- The module that gave that nonce. -/
def lcState : State := posted { up with nonce := some (zeros 16) } 0x0B32 lcToken

theorem test_life_cycle_commands_accepted : acceptsAll up [(0x0B30, lcQueryPlan, []), (0x0B31, lcChallengePlan, [])] = true := by decide +kernel

set_option maxRecDepth 8000 in
theorem test_transition_serial : (lcState.cmd 0).bytes 8 16 = serialBytes := rfl

theorem test_transition_accepted : lcState.accepts 0 0x0B32 (lcTransitionPlan true) = true := by
  have h : ((lcState.cmd 0).bytes 8 16 != serialBytes) = false := by rw [test_transition_serial]; simp
  simp only [State.accepts, lcTransitionPlan, h]
  decide +kernel

/-! ### Events: each due somewhere (the hypotheses of the statements on what they do) -/

/-- `s` with a long command of function 0 running. -/
def longState (s : State) (job : LongJob) (b : Bool) : State := s.modMbx 0 (fun m => { m with state := .running, timeoutMs := 1, long := some (job, b) })

theorem test_long_commands_due : (∀ job b, let s := longState rig job b
      s.serving = true ∧ (s.func 0).mbx.long = some (job, b)) ∧
    (let s := longState (rig.modFunc 1 (fun v => { v with state := .destroying, tearing := true })) (.funcDestroy 1) true
     ((s.teardownDone 1).func 1).state ≠ .destroying) ∧
    (∃ v, (longState rig (.ringRestart 0 3) false).ring 0 3 = some v ∧ v.jobs = [] ∧ v.posts = [] ∧ v.postWait = none) ∧
    (longState rig (.drillUnload 1) false).progD 1 (fun p => p.current.isSome) = false ∧
    (longState rig (.repair 9 256 0) false).mem.rehashing.contains (256 / 256) = false ∧
    (longState rig (.repair 8 0 0x40) false).mem.rehashing.contains (stackOf 0x40) = false :=
  ⟨fun _ _ => ⟨rfl, rfl⟩, by decide +kernel, ⟨_, rfl, rfl, rfl, rfl⟩, by decide +kernel, by decide +kernel, by decide +kernel⟩

theorem test_mailbox_events_due :
    (let s := longState up .moduleWipe false
     (s.func 0).mbx.state = .running ∧ s.serving = true ∧ (s.func 0).mbx.long = some (.moduleWipe, false) ∧ (s.func 0).mbx.timeoutMs ≠ 0) ∧
    (up.reachable 0 = true ∧ bit (1#32).toNat 0 = true ∧ (up.func 0).mbx.state ≠ .posted ∧ (up.func 0).mbx.state ≠ .running ∧ up.serving = true) ∧
    (let s := posted up 0 []
     s.reachable 0 = true ∧ (s.func 0).mbx.state = .posted) ∧
    (let s : State := { up with fw := .restarting }
     s.reachable 0 = true ∧ (s.func 0).mbx.state ≠ .posted ∧ (s.func 0).mbx.state ≠ .running ∧ s.serving = false) ∧
    (let s := up.modMbx 0 (fun m => { m with evtProd := 3, evtCons := 1 })
     let m := (s.func 0).mbx
     s.reachable 0 = true ∧ (BitVec.ofNat 7 (3#32).toNat - m.evtCons).toNat ≤ m.occupied ∧ (BitVec.ofNat 7 (4#32).toNat - m.evtCons).toNat > m.occupied) := by
  decide +kernel

theorem test_register_accesses_due : up.reachable 0 = true ∧ badAccess .bar0 true 0x1000 8 = false ∧ badAccess .bar0 true 0x1FFC 4 = false ∧
    0 < up.vectors 0 ∧ badAccess .bar0 true 0x2000 4 = true ∧ badAccess .bar4 true 4 8 = true ∧ badAccess .bar0 false 2 4 = true := by decide +kernel

/-- `rig` with function 0's window open on its first granule. -/
def window0 : State := rig.modFunc 0 (fun v => { v with win := ⟨1, true, true, false⟩ })

theorem test_window_accesses_due : window0.served 0 = true ∧ window0.winRefused 0 false (1 * 0x200000 + 0) 64 = false ∧
    window0.winRefused 0 true (1 * 0x200000 + 0x7FFFFF) 1 = false ∧ up.served 0 = true ∧ up.winRefused 0 false 0 4 = true ∧
    window0.winRefused 0 true (1 * 0x200000 + 0x7FFFFF) 2 = true := by decide +kernel

theorem test_window_write_reads_back : Memory.wf window0.mem.bytes = true ∧ window0.winAddr 0 0x7FFFFF = 0x9FFFFF ∧
    window0.mem.fallowAt 0x9FFFFF = false ∧ (let s := window0
      let t : State := { s with mem := { s.mem with hbmFallow := [4] } }
      t.winRefused 0 true 0x9FFFFF 1 = false ∧ t.mem.fallowAt 0x9FFFFF = true) ∧
    window0.mem.poison.contains (0x9FFFFF / 64) = false ∧ window0.mem.fallowAt (0x9FFFFF / 64 * 64) = false ∧
    inRanges window0.pendingWrites 0x9FFFFF = false := by decide +kernel

/-- A function whose sources 16 and 4,094 are pending with PRIO 1, and whose source 17 is active. -/
def evc0 : Evc := { Evc.reset with pending := [16, 4094], active := [17], route := [(16, 0x81000000), (4094, 0x81000000)] }

/-- `up` with it. -/
def events0 : State := up.modFunc 0 (fun v => { v with evc := evc0 })

theorem test_event_controller_due : events0.reachable 0 = true ∧ (events0.func 0).evc.best = some 16 ∧ (up.func 0).evc.best = none ∧
    bits (17#32).toNat 11 0 ≠ 0xFFF ∧ (events0.func 0).evc.active.contains (bits (17#32).toNat 11 0) = true ∧
    (events0.func 0).evc.active.contains (bits (16#32).toNat 11 0) = false ∧
    validSource 3 = true ∧ validSource 16 = true ∧ validSource 4094 = true ∧ bit (0x80000010#32).toNat 31 = true ∧ bit (16#32).toNat 31 = false ∧
    (events0.func 0).evc.msgEn = false ∧ bit (1#32).toNat 0 = true ∧ (0x80000000#32) &&& 0x8F0007FF#32 ≠ 0 ∧ events0.fenced 0 = false := by
  decide +kernel

theorem test_claims_due : (∀ x, (up.func 0).evc.eligible x = false) ∧ (events0.func 0).evc.eligible 4094 = true ∧ bits (0xFFF#32).toNat 11 0 = 0xFFF :=
  ⟨fun _ => rfl, by decide +kernel, by decide +kernel⟩

theorem test_message_and_counter_events_due : up.reachable 0 = true ∧ 0 < up.vectors 0 ∧ (up.func 0).msix.enable = false ∧
    bit (1#32).toNat 0 = true ∧ (up.func 0).cnt.snap = false := by decide +kernel

theorem test_doorbells_due : rig.served 0 = true ∧ rig.dblRefused true = false ∧ rig.ring 0 4 = none ∧
    (∃ g, rig.ring 0 0 = some g ∧ bits (0x10000#64).toNat 15 0 < g.n ∧ ringDist g.n g.prod g.cons ≤ ringDist g.n (linearOf g.n (0x10000#64).toNat) g.cons ∧
      ringDist g.n (linearOf g.n (0x10000#64).toNat) g.cons ≤ g.n) ∧
    rig.dblCqOk 0 0 0 = true ∧ bit (0#64).toNat 31 = false ∧ rig.dblCqOk 0 0 0x80000000 = true ∧ bit (0x80000000#64).toNat 31 = true ∧
    rig.dblCqOk 0 0 1 = false :=
  ⟨by decide +kernel, by decide +kernel, by decide +kernel, ⟨_, rfl, by decide +kernel⟩, by decide +kernel⟩

/-- An entry of opcode `op` with OWNER, LAST and the CTRL bits `ctrl` (R103), for connection `n`. -/
def entry (op ctrl n : Nat) : Bytes := pay 64 [(0, 1, op), (1, 1, 0x82 + ctrl), (16, 4, n)]

/-- `rig` with ring 1 of kind `k` holding a whole request, serving connection 2 in the direction `recv` and, if `raw`, a raw queue. -/
def ready (k : RingKind) (op : Nat) (exts : List Bytes) (recv raw : Bool) : State :=
  let s := rig.modRing 0 1 (fun g => { g with
    kind := k, prod := 1 + exts.length, held := (if exts.isEmpty then entry op 1 2 else pay 64 [(0, 1, op), (1, 1, 0x81), (16, 4, 2)]) :: exts
    rawq := if raw then some 0 else none })
  let s1 := if raw then s.modRing 0 1 (fun g => { g with held := [entry op 1 0] }) else s
  s1.modConn 2 (fun c => { c with recvRing := if recv then some 1 else none, sendRing := if recv || raw then none else some 1 })

/-- Every hypothesis of a start of ring 1's request: the ring is there, not in ERROR, its request whole and fit, and its die's arbiter
picks it. -/
def picks (s : State) : Bool :=
  let s0 := s.judgeHeld 0 1
  s.runs && (match s.ring 0 1, s0.ring 0 1 with
    | some g0, some g =>
      let e := g.held.headD []
      let s1 := match (if g.kind = RingKind.send ∧ !isRaw g e then s0.boundConn 0 1 e else none) with
        | some (n, c) => if c.ctx = CtxState.cached then s0 else s0.fetchContext n
        | none => s0
      let d := s1.arbiter (dieOf 0)
      !g0.error && chainOf g.held == .complete && d.2 == some ((0 : FuncId), 1) && (d.1.ring 0 1).isSome
    | _, _ => false)

/-- What the row of the request names. -/
def named (s : State) (g : Ring → Bytes → List Bytes → Bool) : Bool :=
  match s.ring 0 1 with | some r => g r (r.held.headD []) (r.held.drop 1) | none => false

theorem test_requests_picked :
    ([ready .copy 1 [] false false, ready .send 0x13 [] true false, ready .send 0x10 [] false true,
      ready .send 0x11 [pay 64 [(0, 1, 3), (1, 1, 0x82), (8, 8, 5)]] false false] ++
     [0x10, 0x11, 0x12, 0x14, 0x15, 0x16].map (fun op => ready .send op [] false false) ++
     [0x80, 0x81, 0x82, 0x83, 0x84].map (fun op => ready .coll op [] false false)).all picks = true := by decide +kernel

theorem test_requests_named : named (ready .copy 1 [] false false) (fun g _ _ => g.kind == .copy) = true ∧
    [0x10, 0x11, 0x12, 0x14, 0x15, 0x16].all (fun op =>
      named (ready .send op [] false false) (fun g e _ => g.kind == .send && entOp e == op && !isRaw g e)) = true ∧
    named (ready .send 0x13 [] true false) (fun g e _ => g.kind == .send && entOp e == 0x13) = true ∧
    named (ready .send 0x10 [] false true) (fun g e _ => g.kind == .send && isRaw g e && entOp e != 0x13) = true ∧
    [0x80, 0x81, 0x82, 0x83, 0x84].all (fun op => named (ready .coll op [] false false) (fun g e _ => g.kind == .coll && entOp e == op)) = true ∧
    named (ready .send 0x11 [pay 64 [(0, 1, 3), (1, 1, 0x82), (8, 8, 5)]] false false) (fun _ _ x => (waitOf x).isSome) = true := by decide +kernel

/-- `rig` with an entry read of ring 1 due, the ring in host memory, `n` rereads made. -/
def reading (n : Nat) : State := rig.modRing 0 1 (fun g => { g with key := 2, prod := 1, fetching := some n })

theorem test_entry_reads_due : (reading 3).stop.stopped = false ∧ (reading 3).fenced 0 = false ∧
    (∃ g, (reading 3).ring 0 1 = some g ∧ g.wantsRead = true ∧ g.fetching.getD 0 < 4 ∧ entLap (fit 64 (entry 0x10 1 2)) = g.nextRead / g.n % 2 ∧
      ∃ q, (reading 3).region g.key = some q ∧ q.kind ≠ .module ∧ tget q.remap ((g.offset + 64 * (g.nextRead % g.n)) / 0x200000) = none) ∧
    entOwner (fit 64 (entry 0x10 1 2)) = true ∧ entOwner (fit 64 []) = false :=
  ⟨by decide +kernel, by decide +kernel,
   ⟨_, rfl, by decide +kernel, by decide +kernel, by decide +kernel, _, rfl, by decide +kernel, by decide +kernel⟩, by decide +kernel⟩

/-- The same with the ring in module memory, the entry there, and its block poisoned or not. -/
def readingModule (bad : Bool) : State :=
  let s := rig.modRing 0 1 (fun g => { g with prod := 1, fetching := some 0 })
  { s with mem := { s.mem with bytes := mwrite s.mem.bytes 0x200000 (entry 0x10 1 2), poison := if bad then [0x8000] else [] } }

theorem test_module_entry_reads_due : [false, true].all (fun bad =>
    let s := readingModule bad
    match s.ring 0 1 with
    | some g => (match s.region g.key with
      | some q =>
        let off := g.offset + 64 * (g.nextRead % g.n)
        let m := s.regionRead q off (q.place off).1 64 []
        g.wantsRead && q.kind == .module && !s.fenced 0 && !s.stop.stopped &&
        (if bad then m.2.2.1 else !m.2.2.1 && entOwner m.2.1 && entLap m.2.1 == g.nextRead / g.n % 2)
      | none => false)
    | none => false) = true := by decide +kernel

/-- A transfer of region 1 with one piece, `host` or in module memory. -/
def xfer0 (write host : Bool) (p : Purpose) : Xfer :=
  ⟨0, 1, [(0, 64)], write, zeros 64, p, .issued, [⟨host, 0x200000, 64, 0, false, zeros 64⟩], 0, false, [], 0, false⟩

/-- `rig` with it outstanding. -/
def moving (write host : Bool) (p : Purpose) : State := { rig with xfers := [(0, xfer0 write host p)] }

theorem test_transfers_due : [moving false true (.copySrc 0 0 0), moving false true (.mirrorEntry 3 0), moving false false (.copySrc 0 0 0),
      moving true false (.copyDst 0 0 0)].all (fun s => s.runs && (match tget s.xfers 0 with
        | some t => t.phase == .issued && t.pieces.any (fun p => !p.done) && (tget s.regions t.region).isSome
        | none => false)) = true ∧
    (∃ t, tget (moving false true (.copySrc 0 0 0)).xfers 0 = some t ∧ t.write = false ∧ t.pieces.any (fun p => p.host && !p.done) = true ∧
      ∀ slot page, t.purpose ≠ .mirrorEntry slot page) ∧
    (∃ t, tget (moving false false (.copySrc 0 0 0)).xfers 0 = some t ∧ t.write = false ∧ t.pieces.any (fun p => !p.host && !p.done) = true ∧
      (moving false false (.copySrc 0 0 0)).memBehind t = false) ∧
    (∃ t, tget (moving true false (.copyDst 0 0 0)).xfers 0 = some t ∧ t.write = true ∧ t.pieces.any (fun p => !p.host && !p.done) = true ∧
      (moving true false (.copyDst 0 0 0)).memBehind t = false) :=
  ⟨by decide +kernel, ⟨_, rfl, rfl, rfl, fun _ _ h => by cases h⟩, ⟨_, rfl, rfl, rfl, by decide +kernel⟩, _, rfl, rfl, rfl, by decide +kernel⟩

/-- `rig` with a flush outstanding on function 0's direct path, which has failed `n` times. -/
def flushing (probe : Bool) (n : Nat) : State :=
  { rig with flushes := [(0, ⟨0, 0, false, [], probe, false⟩)], paths := [⟨0, 0, false, n, false, 0⟩] }

theorem test_flushes_due : (flushing true 0).runs = true ∧ (∃ l, tget (flushing true 0).flushes 0 = some l ∧ l.probe = true) ∧
    (∃ l, tget (flushing false 2).flushes 0 = some l ∧ l.probe = false ∧ ((flushing false 2).pathOf l.func l.link l.viaRoot).fails + 1 ≥ 3) :=
  ⟨rfl, ⟨_, rfl, rfl⟩, _, rfl, rfl, by decide +kernel⟩

theorem test_translations_due :
    let s : State := { rig with
      xlates := [(0, ⟨0, 0, 0, 0, false, false, false, false⟩), (1, ⟨0, 0, 0, 0, false, true, true, false⟩)], invals := [(0, ⟨[], 0, true, false, 0, none, false⟩)] }
    s.runs = true ∧ (∃ q, tget s.xlates 0 = some q ∧ q.paging = false) ∧ (∃ q, tget s.xlates 1 = some q ∧ q.paging = true) ∧
    linkOf 63 = 0 ∧ (s.link 0).up = true ∧ ∃ v, tget s.invals 0 = some v :=
  ⟨rfl, ⟨_, rfl, rfl⟩, ⟨_, rfl, rfl⟩, rfl, rfl, _, rfl⟩

/-- A packet record of ring 1's slot 0. -/
def rec0 : SendRec := ⟨0, 1, 1, 0, 0, 0, 0, 0, 1, 4, true, true, false, false, 0, none, false, 1, 0⟩

/-- `rig` with connection 2 to send: a packet again, or the first packet of a READ. -/
def sending (again : Bool) : State :=
  let s := rig.modRing 0 1 (fun g => { g with jobs := [jobOf 0 (entry 0x11 1 2) []] })
  s.modConn 2 (fun c => { c with tx := if again then { c.tx with records := [rec0], resend := [0], next := 1 } else { c.tx with queue := [(1, 0)] } })

theorem test_packets_due :
    (let s := sending true
     ∃ c c1, s.conn 2 = some c ∧ s.fenced c.func = false ∧ (s.func c.func).cfg.d3hot = false ∧ (s.failUnroutable 2 true).conn 2 = some c1 ∧
      c1.state = .ready ∧ c1.ctx = .cached ∧ c1.tx.held = [] ∧ c1.nextResend = some rec0 ∧ rec0.sacked = false) ∧
    (let s := sending false
     let s1 := ((s.failUnroutable 2 true).rereadAll 2).beginWork 2
     ∃ c1 j, (s.failUnroutable 2 true).conn 2 = some c1 ∧ c1.state = .ready ∧ c1.ctx = .cached ∧ c1.tx.held = [] ∧
      c1.tx.resend = [] ∧ c1.tx.coll = [] ∧ c1.tx.queue = (1, 0) :: [] ∧ s1.job c1.func 1 0 = some j ∧ s1.nextReady c1.func 1 c1 j = true) :=
  ⟨⟨_, _, rfl, rfl, rfl, rfl, rfl, rfl, rfl, rfl, rfl⟩, _, _, rfl, rfl, rfl, rfl, rfl, rfl, rfl, rfl, rfl⟩

/-- A frame in a class queue, and the port up with it waiting or being sent; and with gate lists. -/
def qframe0 : QFrame := ⟨.raw (zeros 60), 64, none, none, false, false⟩

/-- `up` with port 0 up and changed. -/
def port0 (g : PortSt → PortSt) : State := up.modPort 0 (fun v => g { v with up := true })

theorem test_frames_due :
    (let s := port0 (fun v => v.modCls 7 (fun c => { c with queue := [qframe0] }))
     (s.dropOversize 0).runs = true ∧ (s.dropOversize 0).portUp 0 = true ∧ ((s.dropOversize 0).port 0).paused = false ∧
     ((s.dropOversize 0).port 0).sending = none ∧ ((s.dropOversize 0).port 0).suspended = none ∧
     (((s.dropOversize 0).pinHeads 0 (fun _ => true)).pickClass 0 (fun _ => true)).isSome = true) ∧
    (let s := port0 (fun v => { v with sending := some (qframe0, 7, 64) })
     (s.port 0).sending = some (qframe0, 7, 64) ∧ qframe0.badFcs = false ∧ qframe0.raw = none) ∧
    (let s := port0 (fun v => { v with oper := some ⟨[(1, 1000)], 1000, 0⟩, pend := some ⟨[(2, 1000)], 1000, 0⟩ })
     s.runs = true ∧ (s.port 0).oper = some ⟨[(1, 1000)], 1000, 0⟩ ∧ (s.port 0).pend = some ⟨[(2, 1000)], 1000, 0⟩) := by decide +kernel

/-- `rig` with connection 2 changed. -/
def timed (g : Conn → Conn) : State := rig.modConn 2 g

/-- The conditions of every timer row, and `h` of the connection. -/
def due (s : State) (h : Conn → Bool) : Bool := s.runs && (match s.conn 2 with | some c => c.state == .ready && h c | none => false)

theorem test_connection_timers_due :
    due (timed (fun c => { c with rx := { c.rx with sinceAck := 1 } })) (fun c => decide (0 < c.rx.sinceAck)) = true ∧
    (let s := timed (fun c => { c with tx := { c.tx with records := [{ rec0 with tries := 16 }] } })
     due s (fun c => c.tx.records.find? (fun r => !r.sacked) == some { rec0 with tries := 16 } &&
      decide (16 + 1 > (s.ruleOf c { rec0 with tries := 16 }).1.retryLimit))) = true ∧
    (let r := { rec0 with tries := 15 }
     let s := timed (fun c => { c with tx := { c.tx with records := [r], paths := [(0, { c.pathCc 0 with timeouts := 0 })] } })
     due s (fun c => c.tx.records.find? (fun r => !r.sacked) == some r && decide (15 + 1 ≤ (s.ruleOf c r).1.retryLimit))) = true ∧
    due rig (fun c => c.native) = true ∧
    due (timed (fun c => { c with tx := { c.tx with rnrPause := true } })) (fun c => c.tx.rnrPause) = true ∧
    due (timed (fun c => c.setPath 0 { c.pathCc 0 with draining := true })) (fun c => (c.pathCc 0).draining) = true ∧
    due (timed (fun c => { c with mode := .roce, tx := { c.tx with cnpSeen := true } })) (fun c => c.mode == .roce && c.tx.cnpSeen) = true ∧
    due (timed (fun c => { c with mode := .roce })) (fun c => c.mode == .roce && !c.tx.cnpSeen) = true ∧
    due (timed (fun c => { c with ctx := .fetching })) (fun c => c.ctx == .fetching) = true := by decide +kernel

/-- `up` with link 0 changed. -/
def linked (g : Link → Link) : State := up.modLink 0 g

theorem test_link_events_due : up.runs = true ∧
    (let k := (linked (fun v => { v with retain := false })).link 0; k.up = true ∧ k.retain = false) ∧
    (let k := up.link 0; k.up = true ∧ k.retain = true ∧ k.l1 = false ∧ up.flushes.any (fun q => q.2.link == 0) = false) ∧
    (let k := (linked (fun v => { v with up := false })).link 0; k.up = false ∧ k.downAt = none) ∧
    (let k := (linked (fun v => { v with up := false, downAt := some 0 })).link 0; k.up = false ∧ k.downAt ≠ none ∧ k.cfgTouched = false) ∧
    (let s := linked (fun v => { v with up := false, downAt := some 0, cfgTouched := true })
     (s.link 0).up = false ∧ (s.link 0).downAt ≠ none ∧ (s.link 0).cfgTouched = true ∧ ((s.hotReset 0).link 0).up = false ∧
     ((s.hotReset 0).link 0).downAt = none) ∧
    (let s := linked (fun v => { v with replaying := true })
     (s.link 0).replaying = true ∧ s.replayRereads 0 = false) := by decide +kernel

theorem test_function_events_due : rig.runs = true ∧ (rig.func 2).state = .fenced ∧ rig.vfsAllowed = true ∧
    62 < ((linked (fun v => { v with numVfs := 63 })).link 0).numVfs ∧ (rig.func 64).state ≠ .disabled ∧
    ((rig.modFunc 0 (fun v => { v with cfg := { v.cfg with d3hot := true } })).func 0).cfg.d3hot = true := by decide +kernel

theorem test_lane_and_port_events_due : up.power.on = true ∧
    (let s := up.modPort 0 (fun v => { v with peer7440 := true })
     (s.physPort 0).dark = false ∧ s.spareReady 0 7 = true ∧ (s.physPort 0).laneServes 7 = true) ∧
    (let s := up.modPhys 0 (fun h => { h with spareUsed := true })
     (s.physPort 0).dark = false ∧ s.spareReady 0 7 = false ∧ (s.physPort 0).swap = none) ∧
    ((port0 id).port 0).up = true ∧ (up.port 0).up = false := by decide +kernel

/-- `rig` with program 1 changed. -/
def program (g : Prog → Prog) : State := rig.modProg 1 g

/-- The same with a run in phase `ph`. -/
def running (ph : RunPhase) (g : Prog → Prog) (h : Run → Run) : State :=
  program (fun p => g { p with state := .running, current := some (h { Run.fresh p [] with phase := ph }) })

/-- What a row asks of program 1 and its run. -/
def runs1 (s : State) (h : Prog → Run → Bool) : Bool :=
  s.runs && (match s.prog 1 with | some p => (match p.current with | some r => h p r | none => false) | none => false)

theorem test_run_events_due :
    (let s := program id
     s.runs = true ∧ (match s.prog 1 with
       | some p => p.state == .ready && !p.loading && !p.unloading && p.current.isNone && s.runDue p && [⟨0, 0, ⟨1, 0, 0, false, 0⟩, 8⟩].all p.canMove
       | none => false) = true) ∧
    runs1 (running .waiting (fun p => { p with deterministic := true }) id) (fun p r => p.deterministic && !r.scheduleEnded && r.phase == .waiting) = true ∧
    (let ops : List TineOp := [.put ⟨1, 0, 0, false, 0⟩ [1]]
     let ends := fun (s : State) (ops : List TineOp) (h : Prog → Run → Option (Option Loc × Bool) → Bool) =>
       runs1 s (fun p r => r.phase == .computing && ops.all p.can && [⟨0, 0, ⟨1, 0, 0, false, 0⟩, 64⟩].all p.canMove && h p r (s.tineOps 1 p r ops).2)
     ends (running .computing id id) (ops ++ [.memFailed (some ⟨1, 0, 0, false, 0⟩) true]) (fun _ _ e => e == some (some ⟨1, 0, 0, false, 0⟩, true)) &&
     ends (running .computing id id) ops (fun p _ e => e.isNone && !p.deterministic) &&
     ends (running .computing (fun p => { p with deterministic := true, schedule := 9 }) id) ops
       (fun p r e => e.isNone && p.deterministic && !r.scheduleEnded && decide (9 ≤ p.schedule))) = true ∧
    (let s := running .computing (fun p => { p with glean := ⟨1, 0, 0, 0xFFFFFFFF, 0, 1, 0xFF8, 8⟩ }) id
     runs1 s (fun p r => r.phase == .computing && p.glean.state == 1 && p.glean.run == r.num && p.glean.step == (0xFFFFFFFF#32).toNat &&
      ((s.modRun 1 (fun q => { q with phase := .gleaning })).accessOk p.func p.glean.key accLocalWrite p.glean.offset p.glean.bytes).isSome) = true) ∧
    (let s0 := running .ramping id id
     let s : State := { s0 with tines := { s0.tines with ramps := [1] }, power := { s0.power with reading := { s0.power.reading with storeMv := 54000 } } }
     runs1 s (fun _ r => r.phase == .ramping && s.tines.ramps.head? == some 1 && decide (s.power.reading.storeMv ≥ 54000)) = true) ∧ rig.mayCool 39 = true ∧
    runs1 (running .computing id (fun r => { r with frame := some ⟨⟨0, 0, none, none, 64, true, false, 0, 0⟩, 0, none, none, false, zeros 60⟩ }))
      (fun _ r => r.unjudged && r.phase != .reserving && r.phase != .verdict) = true ∧
    (let s := longState (running .computing id id) (.drillUnload 1) false
     (s.func 0).mbx.long = some (.drillUnload 1, false) ∧ s.progD 1 (fun p => p.current.isSome) = true) := by decide +kernel

theorem test_tine_events_due :
    (let s : State := { up with tines := { up.tines with drawn := [(639, 3)] } }
     thas s.tines.drawn ((39 : FurrowId).val * 16 + (15 : Fin 16).val) = true) ∧
    (let s : State := { up with tines := { up.tines with storeErrors := [(tineNo 0 0 0, List.replicate 64 0)] } }
     thas s.tines.drawn ((0 : FurrowId).val * 16 + (0 : Fin 16).val) = false ∧
     (lastDay s.uptime (tgetD s.tines.storeErrors (tineNo 0 0 0) [])).length ≥ 64) := by decide +kernel

theorem test_upkeep_events_due : up.runs = true ∧ up.fallow = false ∧
    (let s := up.modFunc 0 (fun v => { v with faultCounts := [(1, 1)], faultFirst := some 0 })
     s.serving = true ∧ (s.func 0).state ≠ .disabled ∧ (s.func 0).faultCounts ≠ [] ∧ (s.func 0).faultPostedAt = none) := by decide +kernel

theorem test_firmware_and_stop_events_due : up.power.on = true ∧ up.serving = true ∧ up.power.served = true ∧
    (({ up with restart := some (1, 0, 0) } : State).restart = some (1, 0, 0)) ∧
    (let s : State := { up with stop := { up.stop with stopped := true, byPin := true } }
     s.stop.stopped = true ∧ s.stop.byPin = true) := by decide +kernel

theorem test_power_events_due : (State.reset.power.good = false ∧ State.reset.power.flushing = false ∧ State.reset.power.latched = false) ∧
    (let s : State := { up with resetAt := some 0 }
     s.power.good = true ∧ s.power.flushing = false ∧ s.power.latched = false ∧ s.resetAt ≠ none) ∧
    ({ Power.reset with flushing := true } : Power).flushing = true ∧ up.power.on = true ∧
    tempsShut ⟨List.replicate 40 109, List.replicate 4 104, List.replicate 4 79, 109⟩ = false ∧ State.reset.power.input = false := by decide +kernel

theorem test_time_events_due : up.power.on = true ∧ up.ppsInAt = none ∧ up.ppsOutAt = none ∧
    (let s : State := { up with time := 500000000, ppsInAt := some 400000000, ppsOutAt := some 0 }
     (∀ t ∈ s.ppsInAt, s.time - t ≥ 100000000) ∧ ∀ t ∈ s.ppsOutAt, s.time - t ≥ 500000000) ∧
    up.power.input = true ∧ up.power.flushing = false ∧
    ({ up.mram with bootLog := [⟨1, 2, 255, 0, 1, 1, 5⟩] } : Mram).bootLog.getLast? = some ⟨1, 2, 255, 0, 1, 1, 5⟩ := by
  decide +kernel

/-! ### Frames: each reaches where the statements take it up -/

/-- `rig` with port 0 up under the address 2, and connection 2 changed. -/
def listening (g : Conn → Conn) : State :=
  (rig.modPort 0 (fun v => { v with up := true, mac := 2 })).modConn 2 (fun c => g { c with sendRing := none })

/-- A native frame of type `ty` for connection 2 on port 0, good, with `imm` and an acknowledgement body where its type has them. -/
def frame0 (ty : Nat) : NFrame :=
  let fr : NFrame := { l2 := .built 2 0 none, ip := ⟨false, 0, 2, 0, 0, 64, true⟩, udpSrc := 0, udpDst := 50722, udpSum := 0, version := 1, type := BitVec.ofNat 8 ty, flags := 0
                       hopLimit := 16, route := 0, dstConn := 2, srcConn := 0, psn := 0, key := 1, offset := 0, imm := none
                       ack := if 0x10 ≤ ty ∧ ty ≤ 0x14 then some ⟨0, 0, 0, none⟩ else none, payload := [], tag := [] }
  { fr with l2 := { fr.l2 with length := fr.wireLen } }

/-- HandsOn and Reaches, and what more a row asks of the connection. -/
def arrives (s : State) (fr : NFrame) (h : Conn → Bool) : Bool :=
  let d := s.rxLink 0 fr.l2 (s.ipClass 0 fr.ip)
  let q := d.1.police 0 fr.l2 fr.ip fr.ipLen
    (if (d.1.conn (fr.dstConn.toNat % 2 ^ 24)).isSome then some (fr.dstConn.toNat % 2 ^ 24) else none)
  s.runs && s.portUp 0 && s.addressed 0 fr.l2.da && s.forMe fr && fr.udpDst == s.nativePort && (s.port 0).knowsTags fr.l2 && fr.version == 1 && decide (78 ≤ fr.l2.length) && fr.l2.length == fr.wireLen &&
  d.2 == some true && q.2.1 && fr.dstConn.toNat % 2 ^ 24 == 2 &&
  (match q.1.conn 2 with
    | some c => c.mode != .roce && c.ctx == .cached && c.state == .ready && fr.srcConn.toNat % 2 ^ 24 == c.peer && c.sourceOk fr.ip.src && h c &&
        !q.1.fenced c.func && !(q.1.func c.func).cfg.d3hot
    | none => false)

theorem test_reports_arrive : [0x10, 0x11, 0x12, 0x13, 0x14, 0x20, 0x21].all (fun ty => arrives (listening id) (frame0 ty) (fun _ => true)) = true := by
  decide +kernel

theorem test_packets_arrive :
    [0x01, 0x02, 0x03, 0x04, 0x05, 0x06, 0x07].all (fun ty => arrives (listening id) (frame0 ty) (fun c =>
      ((listening id).openFrame c (frame0 ty)).2.1)) = true ∧
    [0x40, 0x41, 0x42, 0x43, 0x44, 0x45].all (fun ty => arrives (listening (fun c => { c with edge := some 0 })) (frame0 ty) (fun c =>
      c.edge.isSome && ((listening id).openFrame c (frame0 ty)).2.1)) = true := by decide +kernel

/-- A RoCE v2 packet for connection 2 on port 0, good. -/
def roce0 (op : RoceOp) : RFrame :=
  let fr : RFrame := { l2 := .built 2 0 none, ip := ⟨false, 0, 2, 0, 0, 64, true⟩, udpSrc := 0, op := op, dqp := 2, psn := 0, pkey := 0xFFFF, va := 0, rkey := 1
                       dlen := 0, operand := 0, compare := 0, imm := 0, syndrome := .ack, payload := [], icrcOk := true }
  { fr with l2 := { fr.l2 with length := fr.wireLen } }

theorem test_roce_packets_arrive : ([(RoceOp.writeOnly, false), (.ack, false), (.cnp, false), (.writeOnly, true), (.ack, true)]).all (fun (w : RoceOp × Bool) =>
    let op := w.1
    let s := (listening (fun c => { c with mode := .roce })).modFunc 0 (fun v => { v with cfg := { v.cfg with d3hot := w.2 } })
    let fr := roce0 op
    let d := s.rxLink 0 { fr.l2 with fcsOk := fr.l2.fcsOk && fr.icrcOk } (s.ipClass 0 fr.ip)
    let q := d.1.police 0 fr.l2 fr.ip fr.wireLen (if (d.1.conn fr.dqp.toNat).isSome then some fr.dqp.toNat else none)
    s.runs && s.portUp 0 && s.addressed 0 fr.l2.da && (s.port 0).knowsTags fr.l2 && fr.l2.length == fr.wireLen && d.2 == some true && q.2.1 &&
    (match q.1.conn 2 with
      | some c => c.mode == .roce && c.ctx == .cached && c.state == .ready && fr.pkey == c.pkey && c.sourceOk fr.ip.src && !q.1.fenced c.func &&
          (q.1.func c.func).cfg.d3hot == w.2
      | none => false)) = true ∧ roceRequest .writeOnly = true ∧ roceRequest .ack = false := by decide +kernel

/-- Any other frame on port 0: `da` its destination, `n` its length. -/
def eframe0 (da : BitVec 48) (n : Nat) : EFrame := ⟨⟨da, 0, none, none, n, true, false, 0, 0⟩, 0x0800, none, none, false, zeros (n - 4)⟩

theorem test_port_frames_arrive :
    (let s := listening id
     let w := fun (n : Nat) (da : BitVec 48) => (s.port 0).sees (eframe0 da n)
     s.runs = true ∧ s.portUp 0 = true ∧ (eframe0 2 63).l2.length ≤ 63 ∧ (s.rxOther 0 (w 64 3)).2 = some (true, eframe0 3 64) ∧
     s.dispatch 0 (w 64 3) = .daDrop ∧ (s.rxOther 0 (w 64 2)).2 = some (true, eframe0 2 64) ∧ s.dispatch 0 (w 64 2) = .noMatch) ∧
    (let s := (listening id).modPort 0 (fun v => { v with defaultQ := some 15, rawqs := [(15, ⟨0, some 1, none⟩)] })
     let s1 := (s.modRing 0 1 (fun g => { g with jobs := [{ jobOf 0 (overlay (entry 0x13 1 0) 20 (leBytes 4 1 ++ leBytes 8 0 ++ leBytes 4 81)) [] with phase := .posted }] }))
     let w := (s1.port 0).sees (eframe0 2 64)
     let d := s1.rxOther 0 w
     let b := d.1.rawBytes 0 w 0xFF false
     d.2 = some (true, w) ∧ s1.dispatch 0 w = .raw 15 0xFF false ∧ tget (d.1.port 0).rawqs 15 = some ⟨0, some 1, none⟩ ∧
     (match d.1.ring 0 1 with
       | some v => (match v.jobs.find? (fun j => j.phase == .posted && entOp j.ent == 0x13) with
         | some j => decide (b.length ≤ netLen j.ent) && d.1.rawRoom (dieOf 0) b.length &&
             ((d.1.modJob 0 1 0 (fun w => { w with phase := .writing })).accessOk 0 (netKey j.ent) accLocalWrite (netOff j.ent) b.length).isSome
         | none => false)
       | none => false) = true ∧ d.1.fenced 0 = false) ∧
    (let s := ((listening id).modPort 0 (fun v => { v with filters := [(0, ⟨false, 2, 0, 0, 0, 0, 0, 0, 1⟩)] })).modProg 1 (fun p => { p with
       startKind := 2, bindings := [⟨false, 0, 1, 0, 0x1002C0014, 0, 44⟩] })
     let w := (s.port 0).sees (eframe0 2 64)
     let d := s.rxOther 0 w
     d.2 = some (true, w) ∧ s.dispatch 0 w = .drill 1 ∧
     (match d.1.prog 1 with
       | some q => (match q.inputOn 0 with
         | some b => !q.loading && !q.unloading && decide (bits b.b 15 0 + bits b.b 31 16 ≤ w.bytes.length + 4) &&
             decide (q.frames.countP (fun e => e.1 == b.index) <
               bits b.b 39 32 + b2n (q.startKind == 2 && b.index == q.startInput && q.current.isNone && q.state == .ready))
         | none => false)
       | none => false) = true) := by decide +kernel

/-- Two ports up, relaying, with a route to node 5 by port 8 in the table of epoch 0. -/
def relaying : State :=
  let s := (listening id).modPort 8 (fun v => { v with up := true, mac := 3 })
  { s with relay := { s.relay with
    nodeId := 1, ports := 0x101, table0 := [(0, ⟨5, 20, [8]⟩)], flows := [⟨0, 5, 2, 0, 8⟩] } }

theorem test_relay_events_due :
    (let s := relaying
     let fr : NFrame := { frame0 0x01 with route := 5 }
     let d := s.rxLink 0 fr.l2 (s.ipClass 0 fr.ip)
     let q := d.1.police 0 fr.l2 fr.ip fr.ipLen none
     let r := q.1.routeFlow (dieOfPort 0) fr.node (fr.dstConn.toNat % 2 ^ 24) fr.path (frameEpoch fr) fr.ip.dscp.toNat
     s.runs = true ∧ s.portUp 0 = true ∧ (s.port 0).knowsTags fr.l2 = true ∧ fr.udpDst = s.nativePort ∧ s.addressed 0 fr.l2.da = true ∧ s.forMe fr = false ∧ fr.type ≠ 0x22 ∧ d.2 = some true ∧ fr.version = 1 ∧
     78 ≤ fr.l2.length ∧ fr.l2.length = fr.wireLen ∧ q.2 = (true, false) ∧ bit q.1.relay.ports.toNat (0 : LPort).val = true ∧ fr.hopLimit ≠ 0 ∧ r.2 = some 8 ∧
     max 64 fr.ipLen ≤ (r.1.port 8).maxFrame ∧ r.1.rawRoom (dieOfPort 0) (min fr.l2.length (r.1.port 0).maxFrame) = true ∧ r.1.canEnqueue 8 ((r.1.port 8).classOf fr.ip.dscp.toNat) = true) ∧
    (let s := relaying
     let fr : NFrame := { frame0 0x22 with route := 5 }
     let d := s.rxLink 0 fr.l2 (s.ipClass 0 fr.ip)
     fr.type = 0x22 ∧ s.addressed 0 fr.l2.da = true ∧ 78 ≤ fr.l2.length ∧ fr.udpDst = s.nativePort ∧ d.2 = some true ∧ fr.version = 1 ∧ (d.1.police 0 fr.l2 fr.ip fr.ipLen none).2 = (true, false) ∧
     fr.l2.length = fr.wireLen ∧ (d.1.relay.lookup (frameEpoch fr) fr.node).isSome = true ∧
     d.1.relay.heldOut.contains (frameEpoch fr, 0, (0 : LPort).val) = false) ∧
    relaying.livePorts.any (fun p => (relaying.port p).classes.any (fun (c : Nat × ClassCfg) => c.2.queue.any (fun q => q.ofFlow 5 2 0))) = false := by
  decide +kernel

theorem test_port_control_due : up.power.on = true ∧
    [(port0 (fun v => { v with flow := 1 })), port0 (fun v => { v with flow := 2 })].all (fun s => s.power.on && s.portUp 0) = true ∧
    ((port0 (fun v => { v with flow := 1 })).port 0).flow = 1 ∧ ((port0 (fun v => { v with flow := 2 })).port 0).flow = 2 ∧
    (let s := port0 (fun v => ({ v with flow := 2, pfcClasses := 0x80 } : PortSt).modCls 7 (fun c => { c with xoffSent := true, rxBytes := 65536 }))
     s.stop.stopped = false ∧ (s.port 0).pfcOn 7 = true ∧ ((s.port 0).cls 7).xoffSent = true ∧ ((s.port 0).cls 7).rxBytes ≥ (s.port 0).xon) ∧
    (let s : State := { port0 (fun v => { v with flow := 1 }) with stop := { up.stop with stopped := true } }
     s.portUp 0 = true ∧ s.stop.stopped = true ∧ (s.port 0).flow = 1) ∧
    (let v := (port0 (fun v => { v with preempt := true, verifySent := 1 })).port 0
     v.preempt = true ∧ v.preemptActive = false ∧ 1 ≤ v.verifySent ∧ v.verifySent ≤ 2) ∧
    (let v := (port0 (fun v => { v with preempt := true, verifySent := 3 })).port 0
     v.preempt = true ∧ v.preemptActive = false ∧ v.verifySent = 3) := by decide +kernel

/-! ### The statements about the whole machine -/

theorem test_whole_machine_hypotheses : Memory.wf State.reset.mem.bytes = true ∧ ∃ t, exec .stopRefLatch State.reset = .next t :=
  ⟨rfl, _, rfl⟩

/-- A request for what safe mode forbids, one that fails a check, and one that only asks. -/
theorem test_requests_not_accepted :
    (∃ q, mailRequest (.nop 0) = some q ∧ q.due up = false) ∧
    (let s := posted up 0x0000 (zeros 4)
     ∃ q k, mailRequest (.nop 0) = some q ∧ q.due s = true ∧ firstFailing (q.checks s) = some k) ∧
    (let s := posted up 0x0000 [] 1
     ∃ q, mailRequest (.nop 0) = some q ∧ q.due s = true ∧ firstFailing (q.checks s) = none ∧ (s.cmd q.f).checkOnly = true) ∧
    (let s : State := posted { up with fw := .safeMode } 0x0100 (zeros 8)
     ∃ q, mailRequest (.funcQuery 0) = some q ∧ s.fw = .safeMode ∧ q.op / 256 ≠ 0x00 ∧ q.op / 256 ≠ 0x0B ∧ q.op / 256 ≠ 0x0C ∧ q.due s = true ∧
       ∀ k ∈ q.checks s, k.order < 5 → k.bad = false) ∧
    (let s : State := { up with fw := .safeMode }
     ∃ q, mailRequest (.stopRead 0) = some q ∧ q.op / 256 = 0x0C ∧ s.fw = .safeMode ∧ s.mram.stuck 3 255 = false ∧ s.mram.lc ≠ 3 ∧ s.mram.lc ≠ 4) :=
  ⟨⟨_, rfl, by decide +kernel⟩, ⟨_, _, rfl, by decide +kernel, rfl⟩, ⟨_, rfl, by decide +kernel, by decide +kernel, by decide +kernel⟩,
   ⟨_, rfl, rfl, by decide +kernel, by decide +kernel, by decide +kernel, by decide +kernel, by decide +kernel⟩,
   _, rfl, by decide +kernel, rfl, by decide +kernel, by decide +kernel, by decide +kernel⟩

theorem test_stopped : (let s : State := { up with stop := { up.stop with stopped := true } }
    s.power.on = true ∧ s.stop.stopped = true ∧ s.reachable 0 = true) ∧ ownWork .shaperRefill = true ∧ arrivesOnLink (.linkDown 0) = true := by
  decide +kernel

theorem test_policer_times : ((0 : Nat) :: [(0, 100, 0), (5, 100, 1), (5, 64, 2)].map (fun x => x.1)).IsChain (· ≤ ·) := by decide


/-! ### WellFormed: what each check refuses -/

/-- WellFormed's rule of a bad access is the machine's (R9, R34). -/
theorem test_bad_access : oddAccess = badAccess := rfl

/-- A native frame of a type, plain. -/
def plain (ty : Nat) : NFrame :=
  { l2 := ⟨2, 0, none, none, 100, true, false, 0, 0⟩, ip := ⟨false, 0, 2, 0, 0, 64, true⟩, udpSrc := 0, udpDst := 50722, udpSum := 0, version := 1, type := BitVec.ofNat 8 ty, flags := 0, hopLimit := 16
    route := 0, dstConn := 2, srcConn := 0, psn := 0, key := 1, offset := 0, imm := none, ack := none, payload := [], tag := [] }

/-- An Ethernet frame of 64 bytes that carries `n`. -/
def ether (n : Nat) : EFrame := ⟨⟨2, 0, none, none, 64, true, false, 0, 0⟩, 0x0800, none, none, false, zeros n⟩

/-- A RoCE v2 packet. -/
def roce (op : RoceOp) : RFrame :=
  { l2 := ⟨2, 0, none, none, 64, true, false, 0, 0⟩, ip := ⟨false, 0, 2, 0, 0, 64, true⟩, udpSrc := 0, op := op, dqp := 2, psn := 0, pkey := 0xFFFF, va := 0, rkey := 1, dlen := 0
    operand := 0, compare := 0, imm := 0, syndrome := .ack, payload := [], icrcOk := true }

/-- Local-store byte `a` of tine 0, and exchange-buffer byte `a`. -/
def ls (a : Nat) : Loc := ⟨0, 0, 0, false, a⟩
def xb (a : Nat) : Loc := ⟨0, 0, 0, true, a⟩

/-- Accesses, numbers and register values outside their ranges. -/
theorem test_ill_formed_accesses : [Instr.regWrite 0 .bar0 2 4 0, .regWrite 0 .bar0 0x1004 8 0, .regWrite 0 .bar0 0x3000 8 0, .regWrite 0 .bar0 0x2000 4 0,
    .regWrite 0 .bar4 0x10000 4 0, .badRegAccess 0 .bar0 false 0 4, .badRegAccess 0 .bar0 false 2 0, .badRegAccess 0 .bar4 false 0x10001 1, .badRegAccess 0 .bar0 true 0x100000 8,
    .bar2Read 0 0 0 [], .bar2Read 0 0x3FFFFFF 2 [], .bar2Read 0 0 1 [.unchanged []], .bar2Write 0 0 [] [], .bar2Write 0 0x4000000 [1] [],
    .bar2Write 0 0 [1] [.miscorrected (zeros 63)], .evcRaiseSignal 0 0x80000010, .evcRaiseWithdraw 0 16, .evcRouteWrite 0 4096 0, .evcSourceSignal 0 4,
    .evcSourceWithdraw 0 4095, .msixVectorUnmask 0 2048, .dblWork 0 262144 0 true, .dblCq 0 65536 0 true [], .dblCqArm 0 65536 0x80000000 true,
    .dblCqArm 0 0 0 true].all (fun i => !i.wf) = true := by decide +kernel

/-- Rings, connections and transfers. -/
theorem test_ill_formed_work : ([(Instr.copy 0 : Nat → Instr), .write 0, .read 0, .send 0, .recv 0, .fetchAdd 0, .cmpSwap 0, .swap 0, .rawSend 0, .allreduce 0, .reduce 0,
    .broadcast 0, .reduceScatter 0, .allgather 0, .triggeredStart 0].map (fun (i : Nat → Instr) => i 262144) ++ [Instr.entryReadDone 0 262144 ⟨zeros 64, .good⟩ false,
    .entryReadDone 0 0 ⟨zeros 63, .good⟩ false, .entryReadFault 0 262144 .memory, .packetSend 16777216, .rpTimerExpiry 16777216, .contextFetchDone 16777216 .good,
    .contextFetchDone 0 (.unchanged []), .ackDelayExpiry 16777216, .rtoExpiry 16777216, .probeIntervalExpiry 16777216, .rnrRetryExpiry 16777216,
    .contextWriteBackDone 16777216, .memWriteResponse 0 [.unchanged []], .memReadResponse 0 [.unchanged []], .flowIdleExpiry 0 1048576 0 0,
    .flowIdleExpiry 0 0 16777216 0, .flowIdleExpiry 0 0 0 64, .unreachHoldExpiry false 4096 0, .drainMaxExpiry 16777216 0, .drainMaxExpiry 0 64,
    .atsTranslationDone 0 (.translated 0 11 true), .invalidateRequest 0 0 0 0 4095, .invalidateRequest 0 0 0 1 4096]).all (fun i => !i.wf) = true := by
  decide +kernel

/-- Frames: another row's type, an immediate or a tag that the flags do not announce, a body where none belongs, lengths that differ. -/
theorem test_ill_formed_frames : ([(0x01, Instr.rxWrite 0), (0x02, .rxWriteFlag 0), (0x03, .rxSend 0), (0x04, .rxReadReq 0), (0x05, .rxReadResp 0),
    (0x06, .rxAtomicReq 0), (0x07, .rxAtomicResp 0), (0x10, .rxAck 0), (0x11, .rxNakRnr 0), (0x12, .rxNakAccess 0), (0x13, .rxNakSeq 0),
    (0x14, .rxNakClosed 0), (0x20, .rxProbe 0), (0x21, .rxProbeReply 0), (0x22, .rxUnreach 0), (0x40, .rxCollUp 0), (0x41, .rxCollDown 0),
    (0x42, .rxCollReport 0), (0x43, .rxCollSeal 0), (0x44, .rxCollRepair 0), (0x45, .rxCollGrant 0)]).all (fun x =>
      (x.2 (plain x.1)).wf && !(x.2 (plain 0x30)).wf && !(x.2 { plain x.1 with imm := some 0 }).wf &&
      !(x.2 (if 0x10 ≤ x.1 ∧ x.1 ≤ 0x22 then { plain x.1 with payload := [0] } else { plain x.1 with tag := [0] })).wf) = true ∧
    [Instr.relayFrame 0 (plain 0x22), .rxWrite 0 { plain 1 with ack := some ⟨0, 0, 0, none⟩ }, .rxFrameDiscard 0 (ether 61), .rxRawFrame 0 (ether 59),
    .rxDrillFrame 0 (ether 64), .rxRocePacket 0 (roce .cnp), .rxCnp 0 (roce .ack), .rxPfc 0 0 []].all (fun i => !i.wf) = true := by decide +kernel

/-- Links, runs, boot and sensors. -/
theorem test_ill_formed_rest : [Instr.linkUp 0 4 16, .linkUp 0 7 2, .vfEnable 0 0, .vfEnable 0 64, .vfDisable 0 63, .runStart 0 [⟨0, 0, ls 0, 0⟩],
    .runStart 0 [⟨0, 0, xb 65535, 2⟩], .runEnd 0 [] [⟨0, 0, ls 32767, 2⟩] [] 0, .runEnd 0 [.fma .rne (ls 32768) (ls 0) (ls 0) (ls 0)] [] [] 0,
    .runEnd 0 [.dot .rne .fp16 .fp16 0 (ls 0) (ls 0) (ls 0) (ls 0)] [] [] 0, .runEnd 0 [.idot .fp16 1 (ls 0) (ls 0) (ls 0) (ls 0)] [] [] 0,
    .runEnd 0 [.mxDot .rne .e2m1 .e2m1 (ls 0) (xb 65536) (ls 0) (ls 0) (ls 0) (ls 0)] [] [] 0, .runEnd 0 [.convert .rne .on .fp32 .e4m3 1 0 0 (ls 0) (ls 32768)] [] [] 0,
    .runEnd 0 [.mxConvert .rne .e2m1 0 0 (ls 0) (ls 0) (ls 32768)] [] [] 0, .runEnd 0 [.toGrid 0 (ls 32768) (ls 0)] [] [] 0,
    .runEnd 0 [.gridAdd (ls 0) (ls 32768) (ls 0)] [] [] 0, .runEnd 0 [.fromGrid 0 .rne .fp32 1 0 0 (xb 65536) (ls 0)] [] [] 0,
    .runEnd 0 [.put (ls 32767) [1, 2]] [] [] 0, .runEnd 0 [.memCorrected (ls 32768)] [] [] 0, .patrolScrub true (.miscorrected []),
    .powerOn [⟨[⟨0, 255, false⟩], [], 0, none⟩], .moduleResetStart [⟨[⟨12, 255, false⟩], [], 0, none⟩], .mrstAssert [⟨[⟨1, 256, false⟩], [], 0, none⟩],
    .powerOn [⟨[], [], 0, some (0, 255)⟩], .powerOn [⟨[], [], 0, some (11, 256)⟩],
    .runEnd 0 [.dot .rne .fp16 .bf16 2 (ls 0) (ls 0) (ls 0) (ls 0)] [] [] 0, .runEnd 0 [.idot .int8 8 (ls 0) (ls 0) (ls 0) (ls 0)] [] [] 0,
    .runEnd 0 [.convert .rne .on .bf16 .e4m3 1 0 0 (ls 0) (ls 0)] [] [] 0, .runEnd 0 [.convert .rne .on .fp32 .e2m1 1 0 0 (ls 0) (ls 0)] [] [] 0,
    .runEnd 0 [.mxToFp32 .rne .on .fp32 1 0 0 (ls 0) (ls 0) (ls 0)] [] [] 0, .runEnd 0 [.mxConvert .rne .fp32 0 0 (ls 0) (ls 0) (ls 0)] [] [] 0,
    .runEnd 0 [.fromGrid 0 .rne .int8 1 0 0 (ls 0) (ls 0)] [] [] 0, .runEnd 0 [.fma .rne (ls 32765) (ls 0) (ls 0) (ls 0)] [] [] 0,
    .runEnd 0 [.streamIn (.tilth 0) (ls 32) 64 []] [] [] 0, .runEnd 0 [.streamOut (ls 0) (.hbm 0) 63] [] [] 0, .runEnd 0 [.puts [(ls 0, [1]), (xb 65535, [1, 2])]] [] [] 0,
    .thermalSample ⟨[], [0, 0, 0, 0], [], 0⟩, .thermalSample ⟨List.replicate 40 0, [], [], 0⟩].all (fun i => !i.wf) = true := by decide +kernel

/-- Commands in their ranges, at the ends of them. -/
theorem test_well_formed : [Instr.regWrite 0 .bar0 0x1008 8 0, .regWrite 0 .bar4 0xFFFC 4 0, .badRegAccess 0 .bar0 true 0x2000 4, .bar2Read 0 0x3FFFFFF 1 [.good],
    .bar2Write 0 0x3FFFFFF [1] [.unchanged (zeros 64)], .evcRaiseSignal 0 16, .evcRaiseWithdraw 0 0x80000010, .evcRouteWrite 0 4095 0, .evcSourceSignal 0 3,
    .evcSourceWithdraw 0 4094, .msixVectorUnmask 0 2047, .dblWork 0 262143 0 true, .dblCqArm 0 65535 0x80000000 true, .entryReadDone 0 262143 ⟨zeros 64, .good⟩ true,
    .packetSend 16777215, .unreachHoldExpiry true 4095 31, .drainMaxExpiry 16777215 63, .atsTranslationDone 0 .noAccess, .invalidateRequest 0 0 0 0x1000 4096,
    .linkUp 0 7 16, .vfEnable 0 63, .vfDisable 0 0, .rxRawFrame 0 (ether 60), .rxRocePacket 0 (roce .ack), .rxPfc 0 0 (List.replicate 8 0),
    .relayFrame 0 (plain 0x01), .runStart 0 [⟨0, 0, xb 65472, 64⟩], .runEnd 0 [.put (ls 32767) [1]] [⟨0, 0, ls 0, 32768⟩] [] 0,
    .runEnd 0 [.convert .rne .on .fp32 .e2m1 2 0 0 (ls 0) (ls 8), .mxToFp32 .rne .on .e2m1 32 0 0 (ls 0) (ls 16) (ls 128), .streamIn (.tilth 0) (ls 64) 64 []] [] [] 0,
    .powerOn [⟨[⟨11, 255, true⟩], [], 0, some (11, 255)⟩], .badRegAccess 0 .bar0 true 0x100000 2, .runEnd 0 [.puts [(ls 32767, [1])], .coreBarrier 0 0] [] [] 0].all Instr.wf = true := by decide +kernel

/-! ### Worked examples of the manual -/

/-- R49's example (02): 64 records fill the ring at PROD 0x45 and CONS 0x05; one more CONS frees a slot. -/
theorem test_event_ring :
    let m : Mbx := { Mbx.reset with evtProd := 0x45, evtCons := 0x05 }
    m.full = true ∧ m.occupied = 64 ∧ ({ m with evtCons := 0x06 } : Mbx).occupied = 63 := by decide +kernel

/-- R101's example (05): 16 entries, producer (1, 1), consumer (0, 14): 3 occupied; producer (1, 14): full. -/
theorem test_ring_indices : linearOf 16 0x10001 = 17 ∧ ringDist 16 (linearOf 16 0x10001) 14 = 3 ∧ ringDist 16 (linearOf 16 0x1000E) 14 = 16 := by
  decide +kernel

/-- R69's example (03): WIN_BASE 0x321 and offset 0x300000. -/
theorem test_window_address :
    (up.modFunc 0 (fun v => { v with win := ⟨0x321, false, false, false⟩ })).winAddr 0 0x300000 = 0x64200000 + 0x300000 := by decide +kernel

/-- R79's example (03): sources 40 (PRIO 6) and 900 (PRIO 9), both of vector 3. -/
def evc1 : State := up.modFunc 0 (fun v => { v with
  evc := { Evc.reset with msgEn := true, route := [(40, 0x86000003), (900, 0x89000003)] }
  shares := [(14, 8)]
  msix := { v.msix with enable := true, table := [(3, ⟨0xFEE00000, 0x41, false⟩)] } })

/-- The messages sent so far. -/
def messages (s : State) : Nat := s.out.countP (fun o => match o with | .msix _ _ _ _ => true | _ => false)

/-- What is claimed, and the messages sent, step by step. -/
theorem test_claim_sequence :
    let s1 := evc1.signal 0 40
    let s2 := s1.signal 0 900
    let s3 := s2.evcClaim 0
    let s4 := s3.evcClaim 0
    messages s1 = 1 ∧ messages s2 = 1 ∧ (s2.func 0).evc.best = some 900 ∧ (s3.func 0).evc.running = 9 ∧ (s3.func 0).evc.best = none ∧
    (s4.func 0).evc.active = [900] ∧
    (match execEvcEoiWrite 0 900 s4 with
      | .next s5 => messages s5 == 2 && (s5.func 0).evc.running == 0 && ((s5.withdraw 0 40).func 0).evc.best == none
      | _ => false) = true := by decide +kernel

/-- R220's example (08): frames of 4,174 bytes every 21 ns; frames 0, 3, 7 and 15. -/
def meter (n : Nat) : Policer × Nat :=
  (List.range n).foldl (fun (q : Policer × Nat) i => q.1.judge (21 * i) 4174 0)
    (⟨none, none, false, 0, false, 8000, 16000, 16384, 32768, [], 16384 * 8000, 32768 * 8000, 0, 0, 0, 0⟩, 0)

/-- Colours and buckets after frames 0, 3, 7 and 15. -/
theorem test_policer : ((meter 1).2, (meter 1).1.tp, (meter 1).1.tc) = (0, 28594 * 8000, 12210 * 8000) ∧
    ((meter 4).2, (meter 4).1.tp, (meter 4).1.tc) = (1, 16198 * 8000, 3925 * 8000) ∧ (meter 8).2 = 2 ∧
    ((meter 16).2, (meter 16).1.tp, (meter 16).1.tc) = (0, 6 * 8000, 3 * 8000) ∧ (meter 16).1.red = 8 := by decide +kernel

/-- R217's example (08): 15 refills of 80 bytes from −4,194, one of 160 after SHAPER_SET to 20,000 Mb/s, 18 more to +46. -/
def shaper0 : Shaper := ⟨0, ⟨10000, 65536, -4194 * 65536, none⟩, [], [], true⟩

theorem test_shaper : (Shaper.refill^[15] shaper0).meter.credit = -2994 * 65536 ∧
    (let h := Shaper.refill^[15] shaper0
     let p : Shaper := { h with meter := { h.meter with pend := some (20000, 65536) } }
     p.refill.meter.credit = -2834 * 65536 ∧ (Shaper.refill^[19] p).meter.credit = 46 * 65536) := by decide +kernel

/-- R309's example (11): conversions of FP32 values to E4M3 with SAT ON, and 500.0 and −∞ with it OFF. -/
theorem test_convert_e4m3 :
    convertTo .e4m3 .rne true (decodeF .fp32 0x3EA80000) = (0x2A, fInexact) ∧
    convertTo .e4m3 (.sr 0x7FFFFFFF) true (decodeF .fp32 0x3EA80000) = (0x2B, fInexact) ∧
    convertTo .e4m3 (.sr 0x80000000) true (decodeF .fp32 0x3EA80000) = (0x2A, fInexact) ∧
    convertTo .e4m3 .rtz true (decodeF .fp32 0x43FA0000) = (0x7E, fOverflow + fInexact) ∧
    convertTo .e4m3 .rne true (decodeF .fp32 0x39800000) = (0x00, fUnderflow + fInexact) ∧
    convertTo .e4m3 (.sr 0x1FFFFFFF) true (decodeF .fp32 0x39800000) = (0x01, fUnderflow + fInexact) ∧
    convertTo .e4m3 .rne true (decodeF .fp32 0xFF800000) = (0xFE, fOverflow) ∧
    convertTo .e4m3 .rne true (decodeF .fp32 0x7FC00000) = (0x7F, fNanIn) ∧
    convertTo .e4m3 .rne false (decodeF .fp32 0x43FA0000) = (0x7F, fOverflow) ∧
    convertTo .e4m3 .rne false (decodeF .fp32 0xFF800000) = (0x7F, fInvalid) := by decide +kernel

/-- R310's example (11): a block of MXFP4 holding 20.0, −2.8, 5.0 and zeros. -/
theorem test_mx_block :
    mxConvertBlock .e2m1 (fun _ => .rne) ([0x41A00000, 0xC0333333, 0x40A00000].map (decodeF .fp32) ++ List.replicate 29 (decodeF .fp32 0)) =
      ([0x6, 0x9, 0x2] ++ List.replicate 29 0, 0x81, fInexact) := by decide +kernel

/-- R275's example (10): the four summands, and their sum rounded to BF16. -/
theorem test_grid_sum : (gridOf 0 (decodeF .fp32 0x3F800000)).1 = 2 ^ 120 ∧ (gridOf 0 (decodeF .fp32 0x3B800000)).1 = 2 ^ 112 ∧
    (gridOf 0 (.fin true 1 (-130))).1 = 0 ∧ (gridOf 0 (.fin false 3 (-9))).1 = 3 * 2 ^ 111 ∧
    gridRound .bf16 .rne 0 (2 ^ 120 + 5 * 2 ^ 111) = (0x3F81, false) ∧
    gridRound .bf16 (.sr 0x3FFFFFFF) 0 (2 ^ 120 + 5 * 2 ^ 111) = (0x3F82, false) ∧
    gridRound .bf16 (.sr 0x40000000) 0 (2 ^ 120 + 5 * 2 ^ 111) = (0x3F81, false) := by decide +kernel

/-- R336's example (13): stack 0's pool with the defaults ends at 0x0F_9BFF_FFFF, 63,936 MiB. -/
theorem test_hbm_layout : State.reset.mem.layout.hbmReservedMib = 1600 ∧ State.reset.mem.layout.hbmPoolEnd 0 = 63936 * 2 ^ 20 ∧
    State.reset.mem.layout.hbmPoolEnd 0 = 0x0F9BFFFFFF + 1 := by decide +kernel

/-- R48's example (02): SEQ 1,000 to 1,299 with no reader: 64 in the ring, 192 in the backlog, 44 lost. -/
theorem test_lost_records :
    let m := (List.range 300).foldl (fun (m : Mbx) _ => m.add ⟨2, 0, 0, 0, []⟩) Mbx.reset
    m.occupied = 64 ∧ m.lost = 44 := by decide +kernel

end Sys2Proof.Tests
end

/-! PROOFS. Which check decides a request's answer (R45), and what safe mode forbids (R54). -/

namespace Sys2Proof.Machine

/-! ### The first check that fails (R45) -/

/-- A check that reads no payload field is made whatever fields are bad. -/
theorem Check.skippedBy_of_deps_nil {c : Check} (h : c.deps = []) (e : Check) : c.skippedBy e = false := by
  simp [Check.skippedBy, h]

/-- Outside order 6, only a check of a lower order is reported before another. -/
theorem Check.before_eq_false {a b : Check} (h : b.order ≤ a.order) (h6 : b.order ≠ 6) : a.before b = false := by
  have hlt : ¬ a.order < b.order := by omega
  have heq : ¬ (a.order = b.order ∧ a.order = 6) := by omega
  simp [Check.before, hlt, heq]

/-- Folding over elements none of which changes the value leaves it as it was. -/
theorem foldl_eq_self_of_mem {α β : Type} {g : β → α → β} {b : β} {l : List α} (h : ∀ a ∈ l, g b a = b) : l.foldl g b = b := by
  induction l with
  | nil => rfl
  | cons a r ih => rw [List.foldl_cons, h a (by simp), ih fun x hx => h x (by simp [hx])]

/-- A failing check that reads no field is the first one, where the checks listed ahead of it pass and none that fails after it is
reported before it. -/
theorem firstFailing_append_cons {pre post : List Check} {k : Check} (hbad : k.bad = true) (hdeps : k.deps = [])
    (hpre : ∀ e ∈ pre, e.bad = false) (hpost : ∀ e ∈ post, e.bad = true → e.before k = false) :
    firstFailing (pre ++ k :: post) = some k := by
  simp only [firstFailing]
  rw [List.filter_append, (List.filter_eq_nil_iff (l := pre)).mpr, List.nil_append, List.filter_cons_of_pos, List.foldl_cons]
  · refine foldl_eq_self_of_mem fun e he => ?_
    obtain ⟨hmem, hlive⟩ := List.mem_filter.mp he
    simp [hpost e hmem (Bool.and_eq_true_iff.mp hlive).1]
  · simp [hbad, Check.skippedBy_of_deps_nil hdeps]
  · intro e he
    simp [hpre e he]

/-- The checks listed ahead of the one that asks whether the module's state forbids the opcode: of the header, of fences and of who may
issue (R45). -/
def State.checksAhead (s : State) (c : Cmd) (managerOnly : Bool) : List Check :=
  headerChecks c ++
  [plainCheck 2 rcFenced (s.func c.f).state.isFenced,
   plainCheck 2 rcFenced (c.behalf && (s.func c.obj).state.isFenced),
   plainCheck 4 rcDenied (c.behalf && !(c.f == s.manager)),
   plainCheck 4 rcDenied (managerOnly && !(c.f == s.manager))]

/-- They are made before any check of the module's state, which is of order 5 (R45). -/
theorem State.checksAhead_order (s : State) (c : Cmd) (managerOnly : Bool) : ∀ e ∈ s.checksAhead c managerOnly, e.order < 5 := by
  simp [State.checksAhead, headerChecks, plainCheck]

/-- A request's checks split at the one that asks whether the module's state forbids the opcode. -/
theorem Request.checks_split (q : Request) (s : State) : ∃ post, q.checks s =
    s.checksAhead (s.cmd q.f) (q.plan (s.cmd q.f) s).managerOnly ++ plainCheck 5 rcBadState (s.forbids q.op) :: post := by
  simp only [Request.checks, commonChecks, State.checksAhead, List.append_assoc, List.cons_append, List.nil_append]
  exact ⟨_, rfl⟩

/-- A forbidden opcode's request fails first by BAD_STATE, once the checks of a lower order pass (R45, R54). -/
theorem Request.firstFailing_of_forbids {q : Request} {s : State} (hforbids : s.forbids q.op = true)
    (hlow : ∀ k ∈ q.checks s, k.order < 5 → k.bad = false) :
    firstFailing (q.checks s) = some (plainCheck 5 rcBadState true) := by
  obtain ⟨post, hsplit⟩ := q.checks_split s
  rw [hforbids] at hsplit
  rw [hsplit] at hlow ⊢
  refine firstFailing_append_cons rfl rfl (fun e he => hlow e (by simp [he]) (s.checksAhead_order _ _ e he)) fun e he hbad => ?_
  have hhigh : 5 ≤ e.order := by
    by_contra hlt
    simp [hlow e (by simp [he]) (by omega)] at hbad
  exact Check.before_eq_false hhigh (show (5 : Nat) ≠ 6 by decide)

/-- A request that is due and fails a check is answered with that check's RESULT, DETAIL and payload (R45). -/
theorem request_refused {i : Instr} {q : Request} {s : State} {k : Check} (h : mailRequest i = some q) (hdue : q.due s = true)
    (hfail : firstFailing (q.checks s) = some k) :
    exec i s = .next (q.last ((s.take q.f).answer q.f ⟨k.code, k.detail, k.body⟩)).settle := by
  obtain ⟨htake, hop⟩ := Bool.and_eq_true_iff.mp hdue
  have hthere : (!s.canTake q.f || (s.cmd q.f).opcode != q.op) = false := by simp [htake, beq_iff_eq.mp hop]
  have hrun : s.runCommandC q.f q.op q.dry q.plan = (s.take q.f).answer q.f ⟨k.code, k.detail, k.body⟩ := by
    rw [Request.checks] at hfail
    simp only [State.runCommandC, hthere, hfail, Bool.false_eq_true, if_false]
  rw [request_exec h s, if_pos hdue, hrun]

/-! ### What safe mode forbids (R54) -/

/-- The ranges of safe mode, 0x00xx, 0x0Bxx and 0x0Cxx (R54). -/
theorem safeRange_iff (op : Nat) : safeRange op = true ↔ op / 256 = 0x00 ∨ op / 256 = 0x0B ∨ op / 256 = 0x0C := by
  simp [safeRange]

/-- Safe mode forbids what lies outside its ranges. -/
theorem State.forbids_of_safeMode {s : State} {op : Nat} (hsafe : s.fw = .safeMode) (hop : safeRange op = false) :
    s.forbids op = true := by
  simp [State.forbids, hsafe, hop]

/-- Inside the ranges of safe mode only a step 3 that failed and DECOMMISSIONED forbid an opcode (R410, R424). -/
theorem State.forbids_of_safeRange {s : State} {op : Nat} (hop : safeRange op = true) (hboot : s.mram.stuck 3 255 = false)
    (hlc : s.mram.lc ≠ 4) : s.forbids op = false := by
  simp [State.forbids, hop, hboot, hlc]

/-- Settles O52: of the checks of order 5, the one that asks what the module's state forbids is listed first, and it reads no field. -/
theorem safeModeAnswersBadState : Obligations.SafeModeAnswersBadState := by
  unfold Obligations.SafeModeAnswersBadState
  intro i q s hreq hsafe
  refine ⟨fun h00 h0B h0C hdue hlow => ?_, fun hop hboot hlc => ?_⟩
  · have hout : safeRange q.op = false := by
      rw [Bool.eq_false_iff, ne_eq, safeRange_iff]
      simp [h00, h0B, h0C]
    have hfail := Request.firstFailing_of_forbids (State.forbids_of_safeMode hsafe hout) hlow
    exact request_refused (k := plainCheck 5 rcBadState true) hreq hdue hfail
  · exact State.forbids_of_safeRange ((safeRange_iff q.op).mpr hop) hboot hlc

end Sys2Proof.Machine

/-! PROOFS. What a write of EVC_EOI does (R78). -/

namespace Sys2Proof.Machine

/-- What a list without `n` holds. -/
@[simp] theorem contains_lerase (l : List Nat) (n x : Nat) : (lerase l n).contains x = (l.contains x && x != n) := by
  rw [Bool.eq_iff_iff]
  simp [lerase]

/-- At a served function the EOI acts once its packet has crossed to the event controller (R61, R357). -/
theorem exec_evcEoiWrite_of_served {s : State} {f : FuncId} (hserved : s.served f = true) (v : Word32) :
    exec (.evcEoiWrite f v) s = .next ((s.regSent f).evcEoi f v) :=
  congrArg Host.Outcome.next (regAccess_served hserved)

/-- An EOI of 0xFFF names no source and is ignored (R78). -/
theorem State.evcEoi_of_none {s : State} {f : FuncId} {v : Word32} (hnone : bits v.toNat 11 0 = 0xFFF) :
    s.evcEoi f v = s := by
  simp [State.evcEoi, hnone]

/-- An EOI for a source that is not active is counted and does nothing else (R78). -/
theorem State.evcEoi_of_inactive {s : State} {f : FuncId} {v : Word32} (hsrc : bits v.toNat 11 0 ≠ 0xFFF)
    (hidle : (s.func f).evc.active.contains (bits v.toNat 11 0) = false) : s.evcEoi f v = s.count f cntProtocol 1 := by
  simp only [State.evcEoi, hsrc, hidle, Bool.false_eq_true, if_false]

/-- An EOI for an active source takes it out of the active ones (R78). -/
theorem State.evcEoi_of_active {s : State} {f : FuncId} {v : Word32} (hsrc : bits v.toNat 11 0 ≠ 0xFFF)
    (hactive : (s.func f).evc.active.contains (bits v.toNat 11 0) = true) :
    s.evcEoi f v = s.setEvc f { (s.func f).evc with active := lerase (s.func f).evc.active (bits v.toNat 11 0) } := by
  simp only [State.evcEoi, hsrc, hactive, if_false, if_true]

/-- The event controller after `setEvc` is the one set, whatever messages that sends (R79). -/
@[simp] theorem State.setEvc_evc (s : State) (f : FuncId) (e : Evc) : ((s.setEvc f e).func f).evc = e :=
  (setEvc_mbx s f e).2

/-- Settles O57: the write splits as `evcEoi` does, on 0xFFF and on whether the source is active; of an active one only its bit
leaves `active`, and the messages that its group may then send stay beside `f`. -/
theorem endOfInterruptClearsActive : Obligations.EndOfInterruptClearsActive := by
  unfold Obligations.EndOfInterruptClearsActive
  intro f v s hserved
  simp only [exec_evcEoiWrite_of_served hserved]
  refine ⟨fun hnone => ?_, fun hsrc hidle => ?_, fun hsrc hactive => ?_⟩
  · rw [State.evcEoi_of_none hnone]
  · rw [State.evcEoi_of_inactive hsrc (by rwa [regSent_func])]
  · have hbeside : s.Beside f ((s.regSent f).evcEoi f v) :=
      (State.Beside.fabSend f s _ _ _ _).trans (State.Beside.evcWrites f _ v 0).1
    have hevc : (((s.regSent f).evcEoi f v).func f).evc =
        { (s.func f).evc with active := lerase (s.func f).evc.active (bits v.toNat 11 0) } := by
      rw [State.evcEoi_of_active hsrc (by rwa [regSent_func]), State.setEvc_evc, regSent_func]
    refine ⟨_, rfl, fun x => ?_, ?_, hbeside⟩
    · rw [hevc, contains_lerase]
    · rw [hevc]

end Sys2Proof.Machine

/-! PROOFS. What an integer dot gives, and how many of INT8 stay exact (R304). -/

namespace Sys2Proof.Machine

/-- The exact sum of a dot's products, as no width limits it (R304). -/
def exactDot (pairs : List (Int × Int)) : Int := (pairs.map (fun p => p.1 * p.2)).sum

/-- One more dot into an accumulator and its sticky flags (R304, R311). -/
def idotInto (acc : Int × Nat) (pairs : List (Int × Int)) : Int × Nat :=
  ((idotSum pairs acc.1).1, acc.2 ||| (idotSum pairs acc.1).2)

/-- Above INT32 the accumulator takes the upper limit (R304). -/
theorem idotSum_of_above {pairs : List (Int × Int)} {c : Int} (habove : c + exactDot pairs > 2 ^ 31 - 1) :
    idotSum pairs c = (2 ^ 31 - 1, fOverflow + fInexact) := by
  have hover : exactDot pairs + c > 2147483647 := by omega
  exact if_pos hover

/-- Below INT32 the accumulator takes the lower limit (R304). -/
theorem idotSum_of_below {pairs : List (Int × Int)} {c : Int} (hbelow : c + exactDot pairs < -2 ^ 31) :
    idotSum pairs c = (-2 ^ 31, fOverflow + fInexact) := by
  have hnotOver : ¬ exactDot pairs + c > 2147483647 := by omega
  have hunder : exactDot pairs + c < -2147483648 := by omega
  exact (if_neg hnotOver).trans (if_pos hunder)

/-- Within INT32 the dot is exact and sets no flag (R304). -/
theorem idotSum_of_fits {pairs : List (Int × Int)} {c : Int} (hlow : -2 ^ 31 ≤ c + exactDot pairs)
    (hhigh : c + exactDot pairs ≤ 2 ^ 31 - 1) : idotSum pairs c = (c + exactDot pairs, 0) := by
  have hnotOver : ¬ exactDot pairs + c > 2147483647 := by omega
  have hnotUnder : ¬ exactDot pairs + c < -2147483648 := by omega
  rw [Int.add_comm c]
  exact (if_neg hnotOver).trans (if_neg hnotUnder)

/-- A product of two INT8 values is at most 128 × 128 in magnitude. -/
theorem abs_mul_le_of_int8 {a b : Int} (ha : -128 ≤ a ∧ a ≤ 127) (hb : -128 ≤ b ∧ b ≤ 127) : |a * b| ≤ 2 ^ 14 := by
  have hmagA : |a| ≤ 128 := abs_le.mpr ⟨ha.1, by omega⟩
  have hmagB : |b| ≤ 128 := abs_le.mpr ⟨hb.1, by omega⟩
  calc |a * b| = |a| * |b| := abs_mul a b
    _ ≤ 128 * 128 := mul_le_mul hmagA hmagB (abs_nonneg b) (by norm_num)
    _ = 2 ^ 14 := by norm_num

/-- A dot grows by no more than the bound on one product for each pair. -/
theorem abs_exactDot_le {bound : Int} {pairs : List (Int × Int)} (hbound : ∀ p ∈ pairs, |p.1 * p.2| ≤ bound) :
    |exactDot pairs| ≤ pairs.length * bound := by
  have hprod : ∀ v ∈ pairs.map (fun p => p.1 * p.2), |v| ≤ bound := List.forall_mem_map.mpr hbound
  have hhigh := List.sum_le_card_nsmul _ bound fun v hv => (abs_le.mp (hprod v hv)).2
  have hlow := List.card_nsmul_le_sum _ (-bound) fun v hv => (abs_le.mp (hprod v hv)).1
  rw [List.length_map, nsmul_eq_mul] at hhigh hlow
  exact abs_le.mpr ⟨by rwa [← mul_neg], hhigh⟩

/-- "the largest magnitude of one 4-way dot is 4 × 128 × 128 = 2^16" (R304). -/
theorem abs_exactDot_le_of_int8 {pairs : List (Int × Int)} (hways : pairs.length ≤ 4)
    (hint8 : ∀ p ∈ pairs, -128 ≤ p.1 ∧ p.1 ≤ 127 ∧ -128 ≤ p.2 ∧ p.2 ≤ 127) : |exactDot pairs| ≤ 2 ^ 16 := by
  have hprod : ∀ p ∈ pairs, |p.1 * p.2| ≤ 2 ^ 14 := fun p hp => by
    obtain ⟨ha, ha', hb, hb'⟩ := hint8 p hp
    exact abs_mul_le_of_int8 ⟨ha, ha'⟩ ⟨hb, hb'⟩
  have hsum := abs_exactDot_le hprod
  omega

/-- Dots of at most 2^16 each stay exact, with no flag set, while the accumulator has room for every one left. -/
theorem foldl_idotInto_exact {dots : List (List (Int × Int))} (hdots : ∀ d ∈ dots, |exactDot d| ≤ 2 ^ 16) {c : Int}
    (hroom : |c| + dots.length * 2 ^ 16 ≤ 2 ^ 31 - 1) :
    dots.foldl idotInto (c, 0) = (c + (dots.map exactDot).sum, 0) := by
  induction dots generalizing c with
  | nil => simp
  | cons d rest ih =>
    obtain ⟨hhead, hrest⟩ := List.forall_mem_cons.mp hdots
    have hnext : |c + exactDot d| ≤ |c| + 2 ^ 16 := (abs_add_le _ _).trans (by omega)
    have hroom' : |c + exactDot d| + rest.length * 2 ^ 16 ≤ 2 ^ 31 - 1 := by
      push_cast [List.length_cons] at hroom
      omega
    obtain ⟨hlow, hhigh⟩ := abs_le.mp (show |c + exactDot d| ≤ 2 ^ 31 - 1 by omega)
    have hexact : idotInto (c, 0) d = (c + exactDot d, 0) := by
      simp [idotInto, idotSum_of_fits (by omega) hhigh]
    rw [List.foldl_cons, hexact, ih hrest hroom', List.map_cons, List.sum_cons, add_assoc]

/-- Settles O59: `idotSum` by where the exact sum lies, and the dots of INT8 by induction on how many are left, each of which takes at
most 2^16 of the accumulator's room: 32,767 × 2^16 = 2^31 − 2^16 fits. -/
theorem integerDotsSaturate : Obligations.IntegerDotsSaturate := by
  unfold Obligations.IntegerDotsSaturate
  refine ⟨fun pairs c => ⟨idotSum_of_above, idotSum_of_below, idotSum_of_fits⟩, fun dots hcount hint8 => ?_⟩
  have hdots : ∀ d ∈ dots, |exactDot d| ≤ 2 ^ 16 := fun d hd =>
    abs_exactDot_le_of_int8 (hint8 d hd).1 (hint8 d hd).2
  have hroom : |(0 : Int)| + dots.length * 2 ^ 16 ≤ 2 ^ 31 - 1 := by
    rw [abs_zero]
    omega
  exact (foldl_idotInto_exact hdots hroom).trans (by rw [zero_add]; rfl)

end Sys2Proof.Machine

/-! PROOFS. What every step keeps: the queue, the canonical form of memory, and what only moves one way (R422, R425, R427). -/

namespace Sys2Proof.Machine

/-- A command keeps what the state it finds keeps: the arms of `exec`, one by one. -/
theorem exec_keeps {g : Pledge} (c : Instr) (s : State) (h : s.Keeps g) : ∀ t, exec c s = .next t → t.Keeps g :=
  match c with
  | .nop f => execNop_keeps f s h
  | .moduleInfo f => execModuleInfo_keeps f s h
  | .undefinedOpcode f => execUndefinedOpcode_keeps f s h
  | .funcQuery f => execFuncQuery_keeps f s h
  | .funcCreate f => execFuncCreate_keeps f s h
  | .funcDestroy f => execFuncDestroy_keeps f s h
  | .funcShareSet f => execFuncShareSet_keeps f s h
  | .funcAttach f => execFuncAttach_keeps f s h
  | .managerTransfer f => execManagerTransfer_keeps f s h
  | .funcPolicySet f => execFuncPolicySet_keeps f s h
  | .regionCreate f => execRegionCreate_keeps f s h
  | .regionDestroy f => execRegionDestroy_keeps f s h
  | .regionQuery f => execRegionQuery_keeps f s h
  | .regionRemap f => execRegionRemap_keeps f s h
  | .mirrorInvalidate f => execMirrorInvalidate_keeps f s h
  | .hotConfig f => execHotConfig_keeps f s h
  | .hotRead f => execHotRead_keeps f s h
  | .ringCreate f => execRingCreate_keeps f s h
  | .ringDestroy f => execRingDestroy_keeps f s h
  | .ringQuery f => execRingQuery_keeps f s h
  | .ringModify f => execRingModify_keeps f s h
  | .ringRestart f => execRingRestart_keeps f s h
  | .cqCreate f => execCqCreate_keeps f s h
  | .cqDestroy f => execCqDestroy_keeps f s h
  | .cqQuery f => execCqQuery_keeps f s h
  | .connCreate f => execConnCreate_keeps f s h
  | .connConnect f => execConnConnect_keeps f s h
  | .connDestroy f => execConnDestroy_keeps f s h
  | .connQuery f => execConnQuery_keeps f s h
  | .connReset f => execConnReset_keeps f s h
  | .trigAlloc f => execTrigAlloc_keeps f s h
  | .trigFree f => execTrigFree_keeps f s h
  | .trigSet f => execTrigSet_keeps f s h
  | .trigQuery f => execTrigQuery_keeps f s h
  | .trigAdd f => execTrigAdd_keeps f s h
  | .keyCreate f => execKeyCreate_keeps f s h
  | .keyDestroy f => execKeyDestroy_keeps f s h
  | .connSetKeys f => execConnSetKeys_keeps f s h
  | .connRotateKeys f => execConnRotateKeys_keeps f s h
  | .xportSet f => execXportSet_keeps f s h
  | .xportQuery f => execXportQuery_keeps f s h
  | .ccSet f => execCcSet_keeps f s h
  | .ccQuery f => execCcQuery_keeps f s h
  | .shaperAlloc f => execShaperAlloc_keeps f s h
  | .shaperSet f => execShaperSet_keeps f s h
  | .shaperBind f => execShaperBind_keeps f s h
  | .shaperFree f => execShaperFree_keeps f s h
  | .schedFuncSet f => execSchedFuncSet_keeps f s h
  | .schedClassSet f => execSchedClassSet_keeps f s h
  | .policerSet f => execPolicerSet_keeps f s h
  | .policerQuery f => execPolicerQuery_keeps f s h
  | .policerFree f => execPolicerFree_keeps f s h
  | .gateSet f => execGateSet_keeps f s h
  | .gateQuery f => execGateQuery_keeps f s h
  | .portQuery f => execPortQuery_keeps f s h
  | .portSet f => execPortSet_keeps f s h
  | .portBreakout f => execPortBreakout_keeps f s h
  | .portReset f => execPortReset_keeps f s h
  | .portStats f => execPortStats_keeps f s h
  | .portGlobalSet f => execPortGlobalSet_keeps f s h
  | .portMgmtSet f => execPortMgmtSet_keeps f s h
  | .portFilterSet f => execPortFilterSet_keeps f s h
  | .portQueueBind f => execPortQueueBind_keeps f s h
  | .ptpAdjust f => execPtpAdjust_keeps f s h
  | .ptpRead f => execPtpRead_keeps f s h
  | .portTsBind f => execPortTsBind_keeps f s h
  | .relaySet f => execRelaySet_keeps f s h
  | .relayTableWrite f => execRelayTableWrite_keeps f s h
  | .relayEpochSwitch f => execRelayEpochSwitch_keeps f s h
  | .relayQuery f => execRelayQuery_keeps f s h
  | .commCreate f => execCommCreate_keeps f s h
  | .commDestroy f => execCommDestroy_keeps f s h
  | .commQuery f => execCommQuery_keeps f s h
  | .collRingCreate f => execCollRingCreate_keeps f s h
  | .collSlotsQuery f => execCollSlotsQuery_keeps f s h
  | .drillLoad f img code => execDrillLoad_keeps f img code s h
  | .drillUnload f => execDrillUnload_keeps f s h
  | .drillQuery f => execDrillQuery_keeps f s h
  | .drillControl f => execDrillControl_keeps f s h
  | .furrowQuery f => execFurrowQuery_keeps f s h
  | .memLayoutQuery f => execMemLayoutQuery_keeps f s h
  | .memLayoutSet f => execMemLayoutSet_keeps f s h
  | .shareScrub f => execShareScrub_keeps f s h
  | .scrubSet f => execScrubSet_keeps f s h
  | .scrubQuery f => execScrubQuery_keeps f s h
  | .granuleGrant f => execGranuleGrant_keeps f s h
  | .granuleRevoke f => execGranuleRevoke_keeps f s h
  | .granuleQuery f => execGranuleQuery_keeps f s h
  | .spareQuery f => execSpareQuery_keeps f s h
  | .repair f => execRepair_keeps f s h
  | .holdupTest f mj => execHoldupTest_keeps f mj s h
  | .moduleReset f => execModuleReset_keeps f s h
  | .fwRestart f => execFwRestart_keeps f s h
  | .tineReset f => execTineReset_keeps f s h
  | .moduleFallow f => execModuleFallow_keeps f s h
  | .moduleWipe f => execModuleWipe_keeps f s h
  | .imageQuery f => execImageQuery_keeps f s h
  | .imageProgram f img => execImageProgram_keeps f img s h
  | .imageSelect f => execImageSelect_keeps f s h
  | .bootLogRead f => execBootLogRead_keeps f s h
  | .bootLogClear f => execBootLogClear_keeps f s h
  | .lcQuery f => execLcQuery_keeps f s h
  | .lcChallenge f => execLcChallenge_keeps f s h
  | .lcTransition f signatureGood => execLcTransition_keeps f signatureGood s h
  | .factoryTest f => execFactoryTest_keeps f s h
  | .cntGlobalRead f => execCntGlobalRead_keeps f s h
  | .traceConfig f => execTraceConfig_keeps f s h
  | .traceControl f => execTraceControl_keeps f s h
  | .traceQuery f => execTraceQuery_keeps f s h
  | .traceRead f => execTraceRead_keeps f s h
  | .faultRead f => execFaultRead_keeps f s h
  | .hangGraph f => execHangGraph_keeps f s h
  | .gleanArm f size => execGleanArm_keeps f size s h
  | .gleanQuery f => execGleanQuery_keeps f s h
  | .gleanCancel f => execGleanCancel_keeps f s h
  | .globalStop f => execGlobalStop_keeps f s h
  | .globalResume f => execGlobalResume_keeps f s h
  | .stopRead f => execStopRead_keeps f s h
  | .longCommandDone f => execLongCommandDone_keeps f s h
  | .progressRecord f stage doneUnits totalUnits remainingMs => execProgressRecord_keeps f stage doneUnits totalUnits remainingMs s h
  | .commandTimeout f => execCommandTimeout_keeps f s h
  | .mbxGo f value => execMbxGo_keeps f value s h
  | .mbxEvtConsWrite f value => execMbxEvtConsWrite_keeps f value s h
  | .mbxEvtLostRead f => execMbxEvtLostRead_keeps f s h
  | .regWrite f bar off size value => execRegWrite_keeps f bar off size value s h
  | .badRegAccess f bar write off size => execBadRegAccess_keeps f bar write off size s h
  | .idTimeLoRead f => execIdTimeLoRead_keeps f s h
  | .winSet f reg value => execWinSet_keeps f reg value s h
  | .bar2Read f off len obs => execBar2Read_keeps f off len obs s h
  | .bar2Write f off data obs => execBar2Write_keeps f off data obs s h
  | .evcClaimRead f => execEvcClaimRead_keeps f s h
  | .evcEoiWrite f value => execEvcEoiWrite_keeps f value s h
  | .evcThresholdWrite f value => execEvcThresholdWrite_keeps f value s h
  | .evcRaiseSignal f value => execEvcRaiseSignal_keeps f value s h
  | .evcRaiseWithdraw f value => execEvcRaiseWithdraw_keeps f value s h
  | .evcCtrlWrite f value => execEvcCtrlWrite_keeps f value s h
  | .evcRouteWrite f source value => execEvcRouteWrite_keeps f source value s h
  | .evcSourceSignal f source => execEvcSourceSignal_keeps f source s h
  | .evcSourceWithdraw f source => execEvcSourceWithdraw_keeps f source s h
  | .msixVectorUnmask f vector => execMsixVectorUnmask_keeps f vector s h
  | .msixFunctionUnmask f => execMsixFunctionUnmask_keeps f s h
  | .msixEnableSet f => execMsixEnableSet_keeps f s h
  | .cntSnap f value => execCntSnap_keeps f value s h
  | .cntSnapDone f => execCntSnapDone_keeps f s h
  | .dblWork f ring value whole => execDblWork_keeps f ring value whole s h
  | .dblCq f cq value whole obs => execDblCq_keeps f cq value whole obs s h
  | .dblCqArm f cq value whole => execDblCqArm_keeps f cq value whole s h
  | .copy f ring => execCopy_keeps f ring s h
  | .write f ring => execWrite_keeps f ring s h
  | .read f ring => execRead_keeps f ring s h
  | .send f ring => execSend_keeps f ring s h
  | .recv f ring => execRecv_keeps f ring s h
  | .fetchAdd f ring => execFetchAdd_keeps f ring s h
  | .cmpSwap f ring => execCmpSwap_keeps f ring s h
  | .swap f ring => execSwap_keeps f ring s h
  | .rawSend f ring => execRawSend_keeps f ring s h
  | .allreduce f ring => execAllreduce_keeps f ring s h
  | .reduce f ring => execReduce_keeps f ring s h
  | .broadcast f ring => execBroadcast_keeps f ring s h
  | .reduceScatter f ring => execReduceScatter_keeps f ring s h
  | .allgather f ring => execAllgather_keeps f ring s h
  | .entryReadDone f ring got lastReread => execEntryReadDone_keeps f ring got lastReread s h
  | .entryReadFault f ring cause => execEntryReadFault_keeps f ring cause s h
  | .triggeredStart f ring => execTriggeredStart_keeps f ring s h
  | .dmaReadCompletion x bytes => execDmaReadCompletion_keeps x bytes s h
  | .packetSend conn => execPacketSend_keeps conn s h
  | .egressFrameStart p => execEgressFrameStart_keeps p s h
  | .shaperRefill => execShaperRefill_keeps s h
  | .gateIntervalEnd p => execGateIntervalEnd_keeps p s h
  | .gateListSwitch p => execGateListSwitch_keeps p s h
  | .rxFrameDiscard p fr => execRxFrameDiscard_keeps p fr s h
  | .rxWrite p fr => execRxWrite_keeps p fr s h
  | .rxWriteFlag p fr => execRxWriteFlag_keeps p fr s h
  | .rxSend p fr => execRxSend_keeps p fr s h
  | .rxReadReq p fr => execRxReadReq_keeps p fr s h
  | .rxReadResp p fr => execRxReadResp_keeps p fr s h
  | .rxAtomicReq p fr => execRxAtomicReq_keeps p fr s h
  | .rxAtomicResp p fr => execRxAtomicResp_keeps p fr s h
  | .rxAck p fr => execRxAck_keeps p fr s h
  | .rxNakRnr p fr => execRxNakRnr_keeps p fr s h
  | .rxNakAccess p fr => execRxNakAccess_keeps p fr s h
  | .rxNakSeq p fr => execRxNakSeq_keeps p fr s h
  | .rxNakClosed p fr => execRxNakClosed_keeps p fr s h
  | .rxProbe p fr => execRxProbe_keeps p fr s h
  | .rxProbeReply p fr => execRxProbeReply_keeps p fr s h
  | .rxUnreach p fr => execRxUnreach_keeps p fr s h
  | .relayFrame p fr => execRelayFrame_keeps p fr s h
  | .rxRocePacket p fr => execRxRocePacket_keeps p fr s h
  | .rxCnp p fr => execRxCnp_keeps p fr s h
  | .rpTimerExpiry conn => execRpTimerExpiry_keeps conn s h
  | .rxCollUp p fr => execRxCollUp_keeps p fr s h
  | .rxCollDown p fr => execRxCollDown_keeps p fr s h
  | .rxCollReport p fr => execRxCollReport_keeps p fr s h
  | .rxCollSeal p fr => execRxCollSeal_keeps p fr s h
  | .rxCollRepair p fr => execRxCollRepair_keeps p fr s h
  | .rxCollGrant p fr => execRxCollGrant_keeps p fr s h
  | .rxPause p quanta => execRxPause_keeps p quanta s h
  | .rxPfc p enables quanta => execRxPfc_keeps p enables quanta s h
  | .pauseQuantaExpiry p cls => execPauseQuantaExpiry_keeps p cls s h
  | .pfcXoffRefresh p cls => execPfcXoffRefresh_keeps p cls s h
  | .rxPreemptVerify p respond => execRxPreemptVerify_keeps p respond s h
  | .preemptVerifyTimeout p => execPreemptVerifyTimeout_keeps p s h
  | .rxRawFrame p fr => execRxRawFrame_keeps p fr s h
  | .rxDrillFrame p fr => execRxDrillFrame_keeps p fr s h
  | .drillFrameVerdict prog good => execDrillFrameVerdict_keeps prog good s h
  | .contextFetchDone conn obs => execContextFetchDone_keeps conn obs s h
  | .memWriteResponse x obs => execMemWriteResponse_keeps x obs s h
  | .flushComplete id => execFlushComplete_keeps id s h
  | .flushFailed id => execFlushFailed_keeps id s h
  | .probeFlushTimer => execProbeFlushTimer_keeps s h
  | .ackDelayExpiry conn => execAckDelayExpiry_keeps conn s h
  | .rtoExpiry conn => execRtoExpiry_keeps conn s h
  | .probeIntervalExpiry conn => execProbeIntervalExpiry_keeps conn s h
  | .rnrRetryExpiry conn => execRnrRetryExpiry_keeps conn s h
  | .flowIdleExpiry die node conn path => execFlowIdleExpiry_keeps die node conn path s h
  | .unreachHoldExpiry epoch index p => execUnreachHoldExpiry_keeps epoch index p s h
  | .drainMaxExpiry conn path => execDrainMaxExpiry_keeps conn path s h
  | .atsTranslationDone x ans => execAtsTranslationDone_keeps x ans s h
  | .pageRequestResponse x ans => execPageRequestResponse_keeps x ans s h
  | .pageRequestTimeout x => execPageRequestTimeout_keeps x s h
  | .invalidateRequest l f pasid base len => execInvalidateRequest_keeps l f pasid base len s h
  | .invalidateReadTimeout id => execInvalidateReadTimeout_keeps id s h
  | .atsDisable f => execAtsDisable_keeps f s h
  | .priReenable f => execPriReenable_keeps f s h
  | .linkDown l => execLinkDown_keeps l s h
  | .linkUp l rate width => execLinkUp_keeps l rate width s h
  | .replayDone l => execReplayDone_keeps l s h
  | .retrainWindowExpiry l => execRetrainWindowExpiry_keeps l s h
  | .linkHotReset l => execLinkHotReset_keeps l s h
  | .functionLevelReset f => execFunctionLevelReset_keeps f s h
  | .configResetDone f => execConfigResetDone_keeps f s h
  | .attachMsExpiry f => execAttachMsExpiry_keeps f s h
  | .teardownDone f => execTeardownDone_keeps f s h
  | .vfEnable l numVfs => execVfEnable_keeps l numVfs s h
  | .vfDisable l numVfs => execVfDisable_keeps l numVfs s h
  | .d3hotEntry f => execD3hotEntry_keeps f s h
  | .d0Return f => execD0Return_keeps f s h
  | .l1IdleEntry l => execL1IdleEntry_keeps l s h
  | .l0pNarrow l => execL0pNarrow_keeps l s h
  | .laneSerExceeded ph lane => execLaneSerExceeded_keeps ph lane s h
  | .laneSignalLoss ph lane => execLaneSignalLoss_keeps ph lane s h
  | .laneSwapDone ph => execLaneSwapDone_keeps ph s h
  | .portLinkDown p => execPortLinkDown_keeps p s h
  | .portLinkUp p peer7440 reversed => execPortLinkUp_keeps p peer7440 reversed s h
  | .runStart prog feed => execRunStart_keeps prog feed s h
  | .runScheduleEnd prog => execRunScheduleEnd_keeps prog s h
  | .runEnd prog ops outs added cycles => execRunEnd_keeps prog ops outs added cycles s h
  | .gleanStepReached prog step data => execGleanStepReached_keeps prog step data s h
  | .rampGranted prog => execRampGranted_keeps prog s h
  | .warmHoldExpiry fur => execWarmHoldExpiry_keeps fur s h
  | .tineFault fur core tine => execTineFault_keeps fur core tine s h
  | .tineThresholdDraw fur core tine => execTineThresholdDraw_keeps fur core tine s h
  | .patrolScrub tilth obs => execPatrolScrub_keeps tilth obs s h
  | .rehashDone stack => execRehashDone_keeps stack s h
  | .hotIntervalEnd f => execHotIntervalEnd_keeps f s h
  | .faultSummaryPost f => execFaultSummaryPost_keeps f s h
  | .fwWatchdogExpiry => execFwWatchdogExpiry_keeps s h
  | .fwFault => execFwFault_keeps s h
  | .fwRestartDone => execFwRestartDone_keeps s h
  | .stopRefLatch => execStopRefLatch_keeps s h
  | .freezeAssert => execFreezeAssert_keeps s h
  | .freezeRelease => execFreezeRelease_keeps s h
  | .powerOn boots => execPowerOn_keeps boots s h
  | .moduleResetStart boots => execModuleResetStart_keeps boots s h
  | .mrstAssert boots => execMrstAssert_keeps boots s h
  | .powerLoss => execPowerLoss_keeps s h
  | .powerLossFlushDone => execPowerLossFlushDone_keeps s h
  | .holdupMeasure mj => execHoldupMeasure_keeps mj s h
  | .powerSample r => execPowerSample_keeps r s h
  | .thermalSample t => execThermalSample_keeps t s h
  | .overcurrent milliamps held50us => execOvercurrent_keeps milliamps held50us s h
  | .ppsInEdge => execPpsInEdge_keeps s h
  | .ppsOutSecond => execPpsOutSecond_keeps s h
  | .refLock => execRefLock_keeps s h
  | .refLost => execRefLost_keeps s h
  | .smbusId => execSmbusId_keeps s h
  | .smbusStatus => execSmbusStatus_keeps s h
  | .smbusBoot => execSmbusBoot_keeps s h
  | .smbusVin => execSmbusVin_keeps s h
  | .smbusIin => execSmbusIin_keeps s h
  | .smbusPin => execSmbusPin_keeps s h
  | .smbusTemp => execSmbusTemp_keeps s h
  | .smbusHoldup => execSmbusHoldup_keeps s h
  | .smbusShutdownCause => execSmbusShutdownCause_keeps s h
  | .smbusWrite code data => execSmbusWrite_keeps code data s h
  | .msixFunctionMaskSet f => execMsixFunctionMaskSet_keeps f s h
  | .msixEnableClear f => execMsixEnableClear_keeps f s h
  | .atsEnableSet f => execAtsEnableSet_keeps f s h
  | .memReadResponse x obs => execMemReadResponse_keeps x obs s h
  | .contextWriteBackDone conn => execContextWriteBackDone_keeps conn s h
  | .txFrameEnd p => execTxFrameEnd_keeps p s h
  | .unloadRunTimeout f => execUnloadRunTimeout_keeps f s h
  | .inputInsertion millivolts => execInputInsertion_keeps millivolts s h

/-- A step keeps the pledge of its state but for the command it takes from the queue; on an empty queue, all of it. -/
theorem step_keeps {s : State} (hw : Memory.wf s.mem.bytes = true) :
    ∀ t, step s = .next t → t.Keeps { s.pledge with queue := s.pending.tail } := by
  cases hq : s.pending with
  | nil =>
    have hsame : ({ s.pledge with queue := [] } : Pledge) = s.pledge := by simp [State.pledge, hq]
    simp only [step, hq, List.tail_nil, hsame]
    exact keeps_next (State.tick_keeps s (State.keeps_pledge hw))
  | cons c rest =>
    simp only [step, hq, List.tail_cons]
    exact exec_keeps c { s with pending := rest } (State.keeps_pledge hw)

/-- Settles O49: each arm of `exec` keeps whatever pledge its state keeps, and a state with canonical memory keeps its own. -/
theorem everyStepKeepsThePledge : Obligations.EveryStepKeepsThePledge := by
  unfold Obligations.EveryStepKeepsThePledge
  exact ⟨fun c s t hw => exec_keeps c s (State.keeps_pledge hw) t, fun s t hw => step_keeps hw t⟩

end Sys2Proof.Machine

/-! PROOFS. No run stops: every command has a next state. -/

namespace Sys2Proof.Machine

/-- A guarded choice between next states is a next state. -/
theorem exists_next_ite {c : Prop} [Decidable c] {a b : Out} (ha : ∃ t, a = .next t) (hb : ∃ t, b = .next t) :
    ∃ t, (if c then a else b) = .next t := by
  split
  · exact ha
  · exact hb

/-- Every command has a next state: the rows that first ask for their opcode or frame type have one either way, every other row is written
as one. -/
theorem exec_next (c : Instr) (s : State) : ∃ t, exec c s = .next t := by
  cases c
  case factoryTest | rxWrite | rxWriteFlag | rxSend | rxReadReq | rxReadResp | rxAtomicReq | rxAtomicResp | rxAck | rxNakRnr | rxNakAccess
    | rxNakSeq | rxNakClosed | rxProbe | rxProbeReply | rxCollUp | rxCollDown | rxCollReport | rxCollSeal | rxCollRepair | rxCollGrant
    | rxRocePacket | rxCnp =>
    exact exists_next_ite ⟨_, rfl⟩ ⟨_, rfl⟩
  all_goals exact ⟨_, rfl⟩

/-- Every step has a next state, with commands waiting or without (log entry 1). -/
theorem step_next (s : State) : ∃ t, step s = .next t := by
  unfold step
  split
  · exact ⟨_, rfl⟩
  · exact exec_next _ _

/-- Settles O50: by induction on the number of steps, as each has a next state. -/
theorem noRunEverStops : Obligations.NoRunEverStops := by
  unfold Obligations.NoRunEverStops
  intro s n
  induction n generalizing s with
  | zero => rfl
  | succ k ih =>
    obtain ⟨t, hstep⟩ := step_next s
    simpa only [State.after, hstep] using ih t

end Sys2Proof.Machine

/-! PROOFS. What a request that is not accepted changes (R42, R45). -/

namespace Sys2Proof.Machine

/-- A request that is due, passes its checks and only asks for them is answered OK (R42). -/
theorem request_checkOnly {i : Instr} {q : Request} {s : State} (h : mailRequest i = some q) (hdue : q.due s = true)
    (hpass : firstFailing (q.checks s) = none) (honly : (s.cmd q.f).checkOnly = true) :
    exec i s = .next (q.last ((s.take q.f).answer q.f (Reply.ok (q.dry (s.cmd q.f) s)))).settle := by
  obtain ⟨htake, hop⟩ := Bool.and_eq_true_iff.mp hdue
  have hthere : (!s.canTake q.f || (s.cmd q.f).opcode != q.op) = false := by simp [htake, beq_iff_eq.mp hop]
  have hrun : s.runCommandC q.f q.op q.dry q.plan = (s.take q.f).answer q.f (Reply.ok (q.dry (s.cmd q.f) s)) := by
    rw [Request.checks] at hpass
    simp only [State.runCommandC, hthere, hpass, honly, Bool.false_eq_true, if_false, if_true]
  rw [request_exec h s, if_pos hdue, hrun]

/-- A request taken and answered without its effect touches nothing beside its function, and its mailbox is DONE with the answer's RESULT. -/
theorem request_answered {i : Instr} {q : Request} (h : mailRequest i = some q) (s : State) (r : Reply) :
    let t := q.last ((s.take q.f).answer q.f r)
    s.Beside q.f t ∧ (t.func q.f).mbx.state = .done ∧ (t.func q.f).mbx.result = BitVec.ofNat 8 r.code := by
  obtain ⟨hlast, hstate, hresult⟩ := request_last h ((s.take q.f).answer q.f r)
  obtain ⟨hdone, hcode⟩ := answer_done (s.take q.f) q.f r
  exact ⟨((State.Beside.take q.f s).trans (State.Beside.answer q.f _ r)).trans hlast, hstate.trans hdone, hresult.trans hcode⟩

/-- Settles O51: a request that is not due runs nothing; one refused or only checked is taken and answered, and no more. -/
theorem commandsNotAcceptedChangeNothing : Obligations.CommandsNotAcceptedChangeNothing := by
  unfold Obligations.CommandsNotAcceptedChangeNothing
  intro i q s h
  refine ⟨fun hdue => ?_, fun hdue k hfail => ?_, fun hdue hpass honly => ?_⟩
  · rw [request_exec h s, if_neg (by simp [hdue])]
  · exact ⟨_, request_refused h hdue hfail, request_answered h s _⟩
  · exact ⟨_, request_checkOnly h hdue hpass honly, request_answered h s (Reply.ok _)⟩

end Sys2Proof.Machine

/-! PROOFS. The frame of a function's register accesses (R61, R445). -/

namespace Sys2Proof.Machine

/-- What a register access of `f` may come to: a change that stays with `f`, or, in a global stop, its wait for the end of the stop. -/
def State.Accessed (s : State) (f : FuncId) (i : Instr) (t : State) : Prop :=
  s.Beside f t ∨ s.stop.stopped = true ∧ t = { s with held := s.held ++ [(s.ptp, s.ptpFrac, i)] }

/-- An access crosses the fabric and then takes effect. -/
theorem State.Beside.regSent {f : FuncId} {s : State} {g : State → State} (hg : ∀ st : State, st.Beside f (g st)) :
    s.Beside f (g (s.regSent f)) := (State.Beside.fabSend f s _ _ _ _).trans (hg _)

/-- An access that a stop serves stays with its function when its effect does. -/
theorem State.Beside.hostAccess {f : FuncId} {s : State} {g : State → State} (hg : ∀ st : State, st.Beside f (g st)) :
    s.Beside f (s.hostAccess f g) := .ite (.regSent hg) (.refl f s)

/-- An access that a stop holds stays with its function when its effect does, or waits. -/
theorem State.Accessed.regAccess {f : FuncId} {s : State} {c : Instr} {g : State → State} (hg : ∀ st : State, st.Beside f (g st)) :
    s.Accessed f c (s.regAccess f c g) := by
  cases hreach : s.reachable f
  · exact .inl (by simpa [State.regAccess, State.barAccess, hreach] using State.Beside.refl f s)
  · cases hstop : s.stop.stopped
    · rw [regAccess_served (served_iff.mpr ⟨hreach, hstop⟩)]
      exact .inl (.regSent hg)
    · exact .inr ⟨hstop, barAccess_stopped hreach hstop⟩

/-- Either branch of an access. -/
theorem State.Accessed.ite {f : FuncId} {s t u : State} {i : Instr} {c : Prop} [Decidable c] (h1 : s.Accessed f i t)
    (h2 : s.Accessed f i u) : s.Accessed f i (if c then t else u) := by
  split
  · exact h1
  · exact h2

/-- Bytes are written into the command mailbox (R40). -/
theorem State.Beside.mailWrite (f : FuncId) (s : State) (off : Nat) (data : Bytes) : s.Beside f (s.mailWrite f off data) :=
  (State.Beside.fresh f s).trans (State.Beside.modMbx f _ _)

/-- A register of any BAR is written (R9, R34, R63). -/
theorem State.Beside.regWrite (f : FuncId) (s : State) (bar : Bar) (off size : Nat) (v : Word64) :
    s.Beside f (s.regWrite f bar off size v) := by
  refine .ite (.count f s _ _) ?_
  cases bar with
  | bar0 => exact .ite (.mailWrite f s _ _) (.regWrite0 f s _ _)
  | bar4 => exact .regWrite4 f s _ _

/-- An access of the wrong size or alignment is counted and a read of it answered (R9). -/
theorem State.Beside.badAccessed (f : FuncId) (s : State) (bar : Bar) (w : Bool) (off size : Nat) :
    s.Beside f (s.badAccessed f bar w off size) :=
  .ite (.count f s _ _) ((State.Beside.count f s _ _).trans (.regReturns f _ _))

/-- The Function Mask is cleared (R79). -/
theorem State.Beside.unmaskFunction (f : FuncId) (s : State) : s.Beside f (s.unmaskFunction f) :=
  (State.Beside.modFunc f s _).trans (.forEach _ _ _ (State.Beside.unmasked f))

/-- MSI-X is enabled (R79). -/
theorem State.Beside.enableMsix (f : FuncId) (s : State) : s.Beside f (s.enableMsix f) :=
  .ite (.refl f s) ((State.Beside.modFunc f s _).trans (.sendAllGroups f _))

/-- The low word of module time is read, which latches the high (R64). -/
theorem State.Beside.timeRead (f : FuncId) (s : State) :
    s.Beside f ((s.modFunc f (fun v => { v with timeHi := s.time / 2 ^ 32 % 2 ^ 32 })).regReturns f (leBytes 4 (s.time % 2 ^ 32))) :=
  (State.Beside.modFunc f s _).trans (.regReturns f _ _)

/-- MBX_EVT_LOST is read and cleared (R35). -/
theorem State.Beside.evtLostRead (f : FuncId) (s : State) :
    s.Beside f ((s.modMbx f (fun v => { v with lost := 0 })).regReturns f (leBytes 4 (s.func f).mbx.lost)) :=
  (State.Beside.modMbx f s _).trans (.regReturns f _ _)

/-- Settles O54: each row is an access that a stop serves or holds, or an event of `f`'s own, and each effect stays with `f`. -/
theorem registerAccessesStayWithTheirFunction : Obligations.RegisterAccessesStayWithTheirFunction := by
  unfold Obligations.RegisterAccessesStayWithTheirFunction
  intro f s bar off size n w v v64 reg
  show ∀ i ∈ _, ∃ t, exec i s = .next t ∧ s.Accessed f i t
  obtain ⟨eoi, raise, ctrl, route, snap, claim⟩ := by
    simpa only [forall_and] using fun st : State => State.Beside.evcWrites f st v n
  have self := State.Beside.refl f s
  simp only [List.forall_mem_cons, List.not_mem_nil, false_imp_iff, implies_true, and_true]
  exact ⟨⟨_, rfl, .ite (.inl (.hostAccess fun st => .regWrite f st _ _ _ _)) (.regAccess fun st => .regWrite f st _ _ _ _)⟩,
    ⟨_, rfl, .ite (.inl self)
      (.ite (.inl (.hostAccess fun st => .badAccessed f st _ _ _ _)) (.regAccess fun st => .badAccessed f st _ _ _ _))⟩,
    ⟨_, rfl, .inl (.hostAccess (State.Beside.timeRead f))⟩,
    ⟨_, rfl, .regAccess fun st => .winSet f st _ _⟩,
    ⟨_, rfl, .inl (.hostAccess fun st => .go f st _)⟩,
    ⟨_, rfl, .inl (.hostAccess fun st => .evtCons f st _)⟩,
    ⟨_, rfl, .inl (.hostAccess (State.Beside.evtLostRead f))⟩,
    ⟨_, rfl, .regAccess claim⟩,
    ⟨_, rfl, .regAccess eoi⟩,
    ⟨_, rfl, .regAccess fun st => .setEvc f st _⟩,
    ⟨_, rfl, .ite (.inl self) (.regAccess raise)⟩,
    ⟨_, rfl, .ite (.regAccess raise) (.inl self)⟩,
    ⟨_, rfl, .regAccess ctrl⟩,
    ⟨_, rfl, .regAccess route⟩,
    ⟨_, rfl, .inl (.signal f s _)⟩,
    ⟨_, rfl, .inl (.withdraw f s _)⟩,
    ⟨_, rfl, .regAccess fun st => .unmaskVector f st _⟩,
    ⟨_, rfl, .inl (.hostAccess (State.Beside.unmaskFunction f))⟩,
    ⟨_, rfl, .inl (.hostAccess (State.Beside.enableMsix f))⟩,
    ⟨_, rfl, .inl (.hostAccess fun st => .modFunc f st _)⟩,
    ⟨_, rfl, .inl (.hostAccess fun st => .modFunc f st _)⟩,
    ⟨_, rfl, .regAccess snap⟩,
    ⟨_, rfl, .inl (.modFunc f s _)⟩⟩

end Sys2Proof.Machine

/-! PROOFS. Which source a claim takes (R77). -/

namespace Sys2Proof.Machine

/-- A list holds what it held and the number put into it. -/
@[simp] theorem mem_linsert {l : List Nat} {n x : Nat} : x ∈ linsert l n ↔ x ∈ l ∨ x = n := by
  induction l with
  | nil => simp [linsert]
  | cons j r ih =>
    simp only [linsert]
    split_ifs <;> grind

theorem contains_linsert (l : List Nat) (n x : Nat) : (linsert l n).contains x = (l.contains x || x == n) := by
  rw [Bool.eq_iff_iff]
  simp

/-- Of two sources a claim would rather take the first: higher PRIO, or the same and no higher number (R77). -/
def Evc.outranks (e : Evc) (a b : Nat) : Prop := e.prio b < e.prio a ∨ (e.prio b = e.prio a ∧ a ≤ b)

theorem Evc.outranks_refl (e : Evc) (a : Nat) : e.outranks a a := .inr ⟨rfl, le_rfl⟩

theorem Evc.outranks_trans {e : Evc} {a b c : Nat} (hab : e.outranks a b) (hbc : e.outranks b c) : e.outranks a c := by
  unfold Evc.outranks at *
  omega

/-- The better of the source picked so far and the next one. -/
def Evc.pick (e : Evc) (b : Option Nat) (src : Nat) : Option Nat :=
  match b with
  | none => some src
  | some c => if e.prio src > e.prio c || (e.prio src == e.prio c && decide (src < c)) then some src else some c

/-- `best` picks its way through the eligible sources. -/
theorem Evc.best_eq_foldl_pick (e : Evc) : e.best = e.eligibles.foldl e.pick none := rfl

/-- Between two sources, the one picked is one of them and outranks both. -/
theorem Evc.pick_some (e : Evc) (c src : Nat) : ∃ b, e.pick (some c) src = some b ∧ (b = c ∨ b = src) ∧ e.outranks b c ∧ e.outranks b src := by
  simp only [Evc.pick]
  split
  · rename_i hbetter
    refine ⟨src, rfl, .inr rfl, ?_, e.outranks_refl src⟩
    simp only [Bool.or_eq_true, Bool.and_eq_true, decide_eq_true_eq, beq_iff_eq] at hbetter
    unfold Evc.outranks
    omega
  · rename_i hworse
    refine ⟨c, rfl, .inl rfl, e.outranks_refl c, ?_⟩
    simp only [Bool.or_eq_true, Bool.and_eq_true, decide_eq_true_eq, beq_iff_eq] at hworse
    unfold Evc.outranks
    omega

/-- From a source picked already, the one picked in the end is that one or one of the list, and outranks them all. -/
theorem Evc.foldl_pick_some (e : Evc) (l : List Nat) (c : Nat) :
    ∃ b, l.foldl e.pick (some c) = some b ∧ b ∈ c :: l ∧ ∀ x ∈ c :: l, e.outranks b x := by
  induction l generalizing c with
  | nil => exact ⟨c, rfl, by simp, by simpa using e.outranks_refl c⟩
  | cons src r ih =>
    obtain ⟨d, hpick, hd, hdc, hdsrc⟩ := e.pick_some c src
    obtain ⟨b, hfold, hb, hall⟩ := ih d
    have hbd := hall d (by simp)
    refine ⟨b, by rw [List.foldl_cons, hpick, hfold], ?_, ?_⟩
    · rcases List.mem_cons.mp hb with rfl | hb
      · rcases hd with rfl | rfl <;> simp
      · simp [hb]
    · simp only [List.forall_mem_cons]
      exact ⟨Evc.outranks_trans hbd hdc, Evc.outranks_trans hbd hdsrc, fun x hx => hall x (by simp [hx])⟩

/-- The eligible sources are those of the pending ones that are eligible, which all of them are. -/
theorem Evc.mem_eligibles {e : Evc} {x : Nat} : x ∈ e.eligibles ↔ e.eligible x = true := by
  simp only [Evc.eligibles, List.mem_filter, and_iff_right_iff_imp]
  intro h
  simp only [Evc.eligible, Bool.and_eq_true, List.contains_iff_mem] at h
  exact h.1.1.1

/-- With no source eligible there is none to claim. -/
theorem Evc.best_eq_none {e : Evc} (h : ∀ x, e.eligible x = false) : e.best = none := by
  have hnil : e.eligibles = [] := List.eq_nil_iff_forall_not_mem.mpr fun x hx => by simp [Evc.mem_eligibles, h] at hx
  rw [Evc.best_eq_foldl_pick, hnil, List.foldl_nil]

/-- With one eligible, the best is eligible and outranks every eligible source. -/
theorem Evc.best_eq_some {e : Evc} (h : ∃ x, e.eligible x = true) :
    ∃ src, e.best = some src ∧ e.eligible src = true ∧ ∀ x, e.eligible x = true → e.outranks src x := by
  obtain ⟨c, r, hlist⟩ : ∃ c r, e.eligibles = c :: r := by
    obtain ⟨x, hx⟩ := h
    exact List.exists_cons_of_ne_nil (List.ne_nil_of_mem (Evc.mem_eligibles.mpr hx))
  obtain ⟨src, hfold, hmem, hall⟩ := e.foldl_pick_some r c
  rw [← hlist] at hmem hall
  exact ⟨src, by rw [Evc.best_eq_foldl_pick, hlist, List.foldl_cons]; exact hfold, Evc.mem_eligibles.mp hmem,
    fun x hx => hall x (Evc.mem_eligibles.mpr hx)⟩

/-- At a served function the claim acts once its packet has crossed to the event controller (R61, R357). -/
theorem exec_evcClaimRead_of_served {s : State} {f : FuncId} (hserved : s.served f = true) :
    exec (.evcClaimRead f) s = .next ((s.regSent f).evcClaim f) :=
  congrArg Host.Outcome.next (regAccess_served hserved)

/-- A claim with no source to take returns 0xFFF (R77). -/
theorem State.evcClaim_of_none {s : State} {f : FuncId} (hbest : (s.func f).evc.best = none) :
    s.evcClaim f = s.regReturns f (leBytes 4 0xFFF) := by
  simp only [State.evcClaim, hbest]

/-- A claim moves the best source from pending to active and returns its number (R77). -/
theorem State.evcClaim_of_some {s : State} {f : FuncId} {src : Nat} (hbest : (s.func f).evc.best = some src) :
    s.evcClaim f = (s.setEvc f { (s.func f).evc with
      pending := lerase (s.func f).evc.pending src, active := linsert (s.func f).evc.active src }).regReturns f (leBytes 4 src) := by
  simp only [State.evcClaim, hbest]

/-- What a register read returns leaves last. -/
theorem State.regReturns_out (s : State) (f : FuncId) (b : Bytes) : (s.regReturns f b).out.getLast? = some (.readData f b false) := by
  simp [State.regReturns, State.emit]

/-- Returning a register's value changes no function. -/
@[simp] theorem State.regReturns_func (s : State) (f g : FuncId) (b : Bytes) : (s.regReturns f b).func g = s.func g := rfl

/-- Settles O56: `best` folds the eligible sources to one that outranks them all, and the claim moves that one. -/
theorem claimsTakeTheBestSource : Obligations.ClaimsTakeTheBestSource := by
  unfold Obligations.ClaimsTakeTheBestSource
  intro f s hserved
  rw [exec_evcClaimRead_of_served hserved]
  refine ⟨fun hnone => ?_, fun hsome => ?_⟩
  · rw [State.evcClaim_of_none (by rw [regSent_func]; exact Evc.best_eq_none hnone)]
  · obtain ⟨src, hbest, heligible, houtranks⟩ := Evc.best_eq_some hsome
    have hclaim := State.evcClaim_of_some (s := s.regSent f) (f := f) hbest
    have hbeside : s.Beside f ((s.regSent f).evcClaim f) := by
      obtain ⟨-, -, -, -, -, hclaims⟩ := State.Beside.evcWrites f (s.regSent f) 0 0
      exact (State.Beside.fabSend f s _ _ _ _).trans hclaims
    refine ⟨src, _, heligible, houtranks, rfl, ?_, fun x => ?_, fun x => ?_, hbeside⟩
    · rw [hclaim, State.regReturns_out]
    · rw [hclaim, State.regReturns_func, State.setEvc_evc, regSent_func, contains_lerase]
    · rw [hclaim, State.regReturns_func, State.setEvc_evc, regSent_func, contains_linsert]

end Sys2Proof.Machine

/-! PROOFS. What a write through BAR2 places, and what a read there then returns (R68, R335). -/

namespace Sys2Proof.Machine

/-- Module memory once the bytes are placed over good blocks: those at fallow addresses are lost, the range is defined, and the good blocks
it covers whole lose their poison (R344, R391, R470). -/
def MemSt.placed (m : MemSt) (a : Nat) (data : Bytes) : MemSt := { m with
  bytes := ((data.zipIdx a).filter (fun (p : Byte × Nat) => !m.fallowAt p.2)).foldl (fun m (p : Byte × Nat) => mset m p.2 p.1) m.bytes
  undef := cutRanges m.undef a data.length
  poison := m.poison.filter (fun b => !(((blocksOf a data.length).filter (fun b =>
    decide (a ≤ b * 64) && decide (b * 64 + 64 ≤ a + data.length))).contains b && !m.fallowAt (b * 64))) }

/-- Bytes outside the range are left alone. -/
theorem MemSt.placed_outside {m : MemSt} (hw : Memory.wf m.bytes = true) (a : Nat) (data : Bytes) {x : Nat}
    (hx : x < a ∨ a + data.length ≤ x) : mget (m.placed a data).bytes x = mget m.bytes x :=
  (live_fold m.fallowAt data a m.bytes hw).1 x hx

/-- A byte of the range is placed, but for one at a fallow address (R391). -/
theorem MemSt.placed_inside {m : MemSt} (hw : Memory.wf m.bytes = true) (a : Nat) (data : Bytes) {i : Nat} (hi : i < data.length) :
    mget (m.placed a data).bytes (a + i) = if m.fallowAt (a + i) then mget m.bytes (a + i) else data.getD i 0 :=
  (live_fold m.fallowAt data a m.bytes hw).2 i hi

/-- At a served function the write takes place at once (R61). -/
theorem exec_bar2Write_of_served {s : State} {f : FuncId} (hserved : s.served f = true) (off : Nat) (data : Bytes) (obs : List BlockObs) :
    exec (.bar2Write f off data obs) s = .next (s.bar2Write f off data obs) :=
  congrArg Host.Outcome.next (barAccess_served hserved)

/-- At a served function the read takes place at once (R61). -/
theorem exec_bar2Read_of_served {s : State} {f : FuncId} (hserved : s.served f = true) (off len : Nat) (obs : List BlockObs) :
    exec (.bar2Read f off len obs) s = .next (s.bar2Read f off len obs) :=
  congrArg Host.Outcome.next (barAccess_served hserved)

/-- The state after a write through BAR2 over good blocks. -/
def State.written (s : State) (f : FuncId) (a : Nat) (data : Bytes) : State :=
  ({ (s.winSends f a data.length).overwrite a data with mem := s.mem.placed a data } : State).countMem a data.length 1

/-- A write that the window allows, over good blocks (R68, R470). -/
theorem State.bar2Write_eq_written {s : State} {f : FuncId} {off : Nat} {data : Bytes} {obs : List BlockObs} (ho : ∀ o ∈ obs, o = .good)
    (hallowed : s.winRefused f true (s.winAddr f off) data.length = false) :
    s.bar2Write f off data obs = s.written f (s.winAddr f off) data := by
  simp only [State.bar2Write, hallowed, Bool.false_eq_true, if_false]
  exact memWrite_good _ _ _ _ ho

/-- A write changes memory, its counters, the fabric and what programs note, and nothing else. -/
theorem State.written_eq (s : State) (f : FuncId) (a : Nat) (data : Bytes) : ∃ g fb p,
    s.written f a data = { s with mem := s.mem.placed a data, globals := g, fabric := fb, progs := p } := by
  unfold State.written
  rw [countMem_eq]
  exact ⟨_, _, _, rfl⟩

/-- Memory after a write. -/
@[simp] theorem State.written_mem (s : State) (f : FuncId) (a : Nat) (data : Bytes) : (s.written f a data).mem = s.mem.placed a data := by
  obtain ⟨g, fb, p, ht⟩ := s.written_eq f a data
  rw [ht]

/-- The window lies where it lay. -/
@[simp] theorem State.written_winAddr (s : State) (f : FuncId) (a : Nat) (data : Bytes) (off : Nat) :
    (s.written f a data).winAddr f off = s.winAddr f off := by
  obtain ⟨g, fb, p, ht⟩ := s.written_eq f a data
  rw [ht]
  rfl

/-- The function is served as it was. -/
@[simp] theorem State.written_served (s : State) (f : FuncId) (a : Nat) (data : Bytes) : (s.written f a data).served f = s.served f := by
  obtain ⟨g, fb, p, ht⟩ := s.written_eq f a data
  rw [ht]
  rfl

/-- A write changes nothing of what the pending operations will write. -/
theorem State.written_pendingWrites (s : State) (f : FuncId) (a : Nat) (data : Bytes) :
    (s.written f a data).pendingWrites = s.pendingWrites := by
  unfold State.written
  rw [countMem_eq]
  calc _ = ((s.winSends f a data.length).overwrite a data).pendingWrites := rfl
    _ = (s.winSends f a data.length).pendingWrites := overwrite_pendingWrites _ a data
    _ = s.pendingWrites := by simp [State.winSends]

/-- What the window allows to write it allows to read (R67). -/
theorem State.winRefused_read {s : State} {f : FuncId} {a n : Nat} (h : s.winRefused f true a n = false) :
    s.winRefused f false a n = false := by
  unfold State.winRefused at *
  simp_all

/-- What the window refuses does not hang on what is written (R67). -/
@[simp] theorem State.written_winRefused (s : State) (f : FuncId) (a : Nat) (data : Bytes) (w : Bool) (b n : Nat) :
    (s.written f a data).winRefused f w b n = s.winRefused f w b n := by
  obtain ⟨g, fb, p, ht⟩ := s.written_eq f a data
  rw [ht]
  rfl

/-- A read of defined bytes over good blocks, none poisoned or fallow, returns what memory holds (R342, R343). -/
theorem State.memRead_good {s : State} {a n : Nat} {obs : List BlockObs} (ho : ∀ o ∈ obs, o = .good)
    (hsound : ∀ i, i < n → s.mem.poison.contains ((a + i) / 64) = false ∧ s.mem.fallowAt ((a + i) / 64 * 64) = false)
    (hdef : ∀ i, i < n → inRanges s.mem.undef (a + i) = false ∧ inRanges s.pendingWrites (a + i) = false) :
    (s.memRead a n obs).1.out = s.out ∧ (s.memRead a n obs).2.1 = mread s.mem.bytes a n ∧ (s.memRead a n obs).2.2.1 = false := by
  obtain ⟨hstate, hlist, hbad⟩ := decodeBlocks_good s (blocksOf a n) obs ho
  refine ⟨?_, ?_, hbad fun b hb => ?_⟩
  · simp only [State.memRead, hstate]
    rw [countMem_eq]
  · simp only [State.memRead, hstate, hlist, List.find?_nil, mread, lrange, List.map_map]
    refine List.map_congr_left fun i hi => ?_
    obtain ⟨hundef, hpending⟩ := hdef i (List.mem_range.mp hi)
    have hnot : inRanges (s.mem.undef ++ s.pendingWrites) (a + i) = false := by
      simpa only [inRanges, List.any_append, Bool.or_eq_false_iff] using And.intro hundef hpending
    simp [State.memByte, hnot]
  · obtain ⟨i, hi, rfl⟩ := blocks_mem a n b hb
    exact hsound i hi

/-- A read that the window allows emits what memory holds, where it is defined and its blocks are good (R68). -/
theorem State.bar2Read_good {s : State} {f : FuncId} {off n : Nat} {obs : List BlockObs} (ho : ∀ o ∈ obs, o = .good)
    (hallowed : s.winRefused f false (s.winAddr f off) n = false)
    (hsound : ∀ i, i < n → s.mem.poison.contains ((s.winAddr f off + i) / 64) = false ∧
      s.mem.fallowAt ((s.winAddr f off + i) / 64 * 64) = false)
    (hdef : ∀ i, i < n → inRanges s.mem.undef (s.winAddr f off + i) = false ∧ inRanges s.pendingWrites (s.winAddr f off + i) = false) :
    (s.bar2Read f off n obs).out = s.out ++ [.readData f (mread s.mem.bytes (s.winAddr f off) n) false] := by
  have hpending : (s.winAsks f (s.winAddr f off) n).pendingWrites = s.pendingWrites := by simp [State.winAsks]
  obtain ⟨hout, hbytes, hbad⟩ := State.memRead_good (s := s.winAsks f (s.winAddr f off) n) ho hsound
    (by rw [hpending]; exact hdef)
  simp only [State.bar2Read, hallowed, Bool.false_eq_true, if_false, State.emit, hout, hbytes, hbad]
  rfl

/-- Bytes that are all as given are read as given. -/
theorem mread_eq_of_mget {m : Mem} {a : Nat} {data : Bytes} (h : ∀ i, i < data.length → mget m (a + i) = data.getD i 0) :
    mread m a data.length = data := by
  refine List.ext_getElem (by simp [mread]) fun i hi hi' => ?_
  simp [mread, h i hi', hi']

/-- Settles O58: the write is `written`, whose memory is `placed`; a later read finds the range defined, as the write cut it out of the
undefined ranges and no pending write covers it. -/
theorem windowWritesReadBack : Obligations.WindowWritesReadBack := by
  unfold Obligations.WindowWritesReadBack
  rintro f off data obs s hserved ho hw a rfl hallowed
  rw [exec_bar2Write_of_served hserved, State.bar2Write_eq_written ho hallowed]
  refine ⟨_, rfl, ?_, fun x hx => ?_, fun i hi hlive => ?_, fun i hi hfallow => ?_, fun obs2 ho2 hlive hsound hpending => ?_⟩
  · obtain ⟨g, fb, p, ht⟩ := s.written_eq f (s.winAddr f off) data
    rw [ht]
  · rw [State.written_mem, MemSt.placed_outside hw _ _ hx]
  · simp [MemSt.placed_inside hw _ _ hi, hlive]
  · simp [MemSt.placed_inside hw _ _ hi, hfallow]
  · refine ⟨_, exec_bar2Read_of_served (by rw [State.written_served, hserved]) off data.length obs2, ?_⟩
    have hplaced : mread (s.mem.placed (s.winAddr f off) data).bytes (s.winAddr f off) data.length = data :=
      mread_eq_of_mget fun i hi => by simp [MemSt.placed_inside hw _ _ hi, hlive i hi]
    rw [State.bar2Read_good ho2, State.written_winAddr, State.written_mem, hplaced]
    · rw [State.written_winAddr, State.written_winRefused, State.winRefused_read hallowed]
    · intro i hi
      rw [State.written_winAddr]
      exact ⟨(hsound i hi).1, by rw [State.written_mem]; exact (hsound i hi).2⟩
    · intro i hi
      rw [State.written_winAddr, State.written_mem, State.written_pendingWrites]
      exact ⟨cut_out _ _ _ _ (by omega) (by omega), hpending i hi⟩

end Sys2Proof.Machine

/-! PROOFS. What a policer passes draws on its buckets (R219). -/

namespace Sys2Proof.Machine

/-- What one frame does: its rates stay, its clock is the frame's, and each bucket holds no more than it held and gained, less what the
frame drew from it. -/
theorem Policer.judge_draws (q : Policer) (now b pre : Nat) :
    let d := q.judge now b pre
    d.1.lastAt = now ∧ d.1.cir = q.cir ∧ d.1.pir = q.pir ∧
    8000 * (if d.2 = 0 then b else 0) + d.1.tc ≤ q.tc + q.cir * (now - q.lastAt) ∧
    8000 * (if d.2 = 2 then 0 else b) + d.1.tp ≤ q.tp + q.pir * (now - q.lastAt) := by
  simp only [Policer.judge]
  generalize q.cir * (now - q.lastAt) = gainC
  generalize q.pir * (now - q.lastAt) = gainP
  split
  · refine ⟨rfl, rfl, rfl, ?_, ?_⟩ <;> simp
  · split <;> refine ⟨rfl, rfl, rfl, ?_, ?_⟩ <;> simp <;> omega

/-- A policer and the bytes it has passed green and passed at all, after one more frame. -/
def Policer.tally (a : Policer × Nat × Nat) (x : Nat × Nat × Nat) : Policer × Nat × Nat :=
  let d := a.1.judge x.1 x.2.1 x.2.2
  (d.1, a.2.1 + (if d.2 = 0 then x.2.1 else 0), a.2.2 + (if d.2 = 2 then 0 else x.2.1))

/-- The bytes passed from one point to a later one draw no more than the buckets held and gained in between. -/
structure Policer.Draws (a r : Policer × Nat × Nat) : Prop where
  cir : r.1.cir = a.1.cir
  pir : r.1.pir = a.1.pir
  clock : a.1.lastAt ≤ r.1.lastAt
  green : 8000 * r.2.1 + r.1.tc ≤ 8000 * a.2.1 + a.1.tc + a.1.cir * (r.1.lastAt - a.1.lastAt)
  passed : 8000 * r.2.2 + r.1.tp ≤ 8000 * a.2.2 + a.1.tp + a.1.pir * (r.1.lastAt - a.1.lastAt)

theorem Policer.Draws.refl (a : Policer × Nat × Nat) : Policer.Draws a a := ⟨rfl, rfl, le_rfl, by simp, by simp⟩

/-- What a bucket gains over two spans is what it gains over the whole. -/
theorem gain_split (rate : Nat) {i j k : Nat} (hij : i ≤ j) (hjk : j ≤ k) : rate * (j - i) + rate * (k - j) = rate * (k - i) := by
  rw [← Nat.mul_add]
  congr 1
  omega

theorem Policer.Draws.trans {a b c : Policer × Nat × Nat} (hab : Policer.Draws a b) (hbc : Policer.Draws b c) : Policer.Draws a c := by
  have hgainC := gain_split a.1.cir hab.clock hbc.clock
  have hgainP := gain_split a.1.pir hab.clock hbc.clock
  have hgreen := hbc.green
  have hpassed := hbc.passed
  rw [hab.cir] at hgreen
  rw [hab.pir] at hpassed
  exact ⟨hbc.cir.trans hab.cir, hbc.pir.trans hab.pir, hab.clock.trans hbc.clock,
    by have := hab.green; omega, by have := hab.passed; omega⟩

/-- One frame that arrives in order draws so. -/
theorem Policer.draws_tally {a : Policer × Nat × Nat} {x : Nat × Nat × Nat} (h : a.1.lastAt ≤ x.1) :
    Policer.Draws a (Policer.tally a x) := by
  obtain ⟨hclock, hcir, hpir, hgreen, hpassed⟩ := a.1.judge_draws x.1 x.2.1 x.2.2
  refine ⟨hcir, hpir, by rw [Policer.tally, hclock]; exact h, ?_, ?_⟩
  · simp only [Policer.tally, hclock] at hgreen ⊢
    omega
  · simp only [Policer.tally, hclock] at hpassed ⊢
    omega

/-- Frames that arrive in order draw so together. -/
theorem Policer.draws_foldl (frames : List (Nat × Nat × Nat)) (a : Policer × Nat × Nat)
    (h : (a.1.lastAt :: frames.map (fun x => x.1)).IsChain (· ≤ ·)) : Policer.Draws a (frames.foldl Policer.tally a) := by
  induction frames generalizing a with
  | nil => exact Policer.Draws.refl a
  | cons x r ih =>
    obtain ⟨hx, hr⟩ := List.isChain_cons_cons.mp h
    obtain ⟨hclock, -⟩ := a.1.judge_draws x.1 x.2.1 x.2.2
    exact (Policer.draws_tally hx).trans (ih (Policer.tally a x) (by rw [Policer.tally, hclock]; exact hr))

/-- Settles O60: by induction on the frames, each of which draws what it passes from the buckets, which are never below 0. -/
theorem policersPassNoMoreThanTheirBuckets : Obligations.PolicersPassNoMoreThanTheirBuckets := by
  unfold Obligations.PolicersPassNoMoreThanTheirBuckets
  intro frames q h
  obtain ⟨-, -, -, hgreen, hpassed⟩ := Policer.draws_foldl frames (q, 0, 0) h
  dsimp only at hgreen hpassed
  change 8000 * (frames.foldl Policer.tally (q, 0, 0)).2.1 ≤ _ + q.cir * ((frames.foldl Policer.tally (q, 0, 0)).1.lastAt - q.lastAt) ∧
    8000 * (frames.foldl Policer.tally (q, 0, 0)).2.2 ≤ _ + q.pir * ((frames.foldl Policer.tally (q, 0, 0)).1.lastAt - q.lastAt)
  constructor <;> omega

end Sys2Proof.Machine

/-! PROOFS. How a mailbox command is answered: information commands, undefined opcodes and factory-test opcodes (R45, R55, R56, R471). -/

namespace Sys2Proof.Machine

/-! ### Accepted commands (R39, R42) -/

section

variable {i : Instr} {f : FuncId} {s t : State} {op : Nat} {plan : Cmd → State → Plan}

/-- A row that performs a plan answers what the plan's effect answers. -/
theorem answers_of_run {r : Reply} (hexec : exec i s = s.perform f op plan)
    (hrun : s.accepts f op plan = true → (plan (s.cmd f) s).run (s.take f) = (t, .answer r)) : Answers i f s op plan t r := by
  intro haccepts
  rw [hexec, perform_accepted haccepts, hrun haccepts]

/-- A row that performs a plan goes on running where the plan's effect does. -/
theorem goesOn_of_run {job : LongJob} {committed : Bool} (hexec : exec i s = s.perform f op plan)
    (hrun : s.accepts f op plan = true → (plan (s.cmd f) s).run (s.take f) = (t, .long job committed)) :
    GoesOn i f s op plan t job committed := by
  intro haccepts
  rw [hexec, perform_accepted haccepts, hrun haccepts]

end

/-- No check fails where each passes. -/
theorem firstFailing_eq_none {l : List Check} (h : ∀ k ∈ l, k.bad = false) : firstFailing l = none := by
  simp only [firstFailing]
  rw [List.filter_eq_nil_iff.mpr (fun k hk => by simp [h k hk]), List.foldl_nil]

/-- Where every check that fails is one and the same, and it reads no field, that is the first. -/
theorem firstFailing_eq_some {l : List Check} {k : Check} (hmem : k ∈ l) (hbad : k.bad = true) (hdeps : k.deps = []) (horder : k.order ≠ 6)
    (hall : ∀ e ∈ l, e.bad = true → e = k) : firstFailing l = some k := by
  obtain ⟨pre, post, rfl, hnot⟩ := List.eq_append_cons_of_mem hmem
  refine firstFailing_append_cons hbad hdeps (fun e he => ?_) fun e he hebad => ?_
  · rw [Bool.eq_false_iff]
    exact fun hebad => hnot (hall e (by simp [he]) hebad ▸ he)
  · rw [hall e (by simp [he]) hebad]
    exact Check.before_eq_false le_rfl horder

/-! ### Undefined opcodes (R45) -/

/-- The checks made of an undefined opcode before it is found so. -/
def State.undefinedChecks (s : State) (f : FuncId) : List Check :=
  headerChecks (s.cmd f) ++
  [plainCheck 2 rcFenced (s.func f).state.isFenced,
   plainCheck 2 rcFenced ((s.cmd f).behalf && (s.func (s.cmd f).obj).state.isFenced)]

/-- An undefined opcode that passes them is answered BAD_OPCODE (R45). -/
theorem State.runUndefined_of_pass {s : State} {f : FuncId} (htake : s.canTake f = true) (hop : opcodeDefined (s.cmd f).opcode = false)
    (hpass : firstFailing (s.undefinedChecks f) = none) : s.runUndefined f = (s.take f).answer f (Reply.refuse rcBadOpcode 0) := by
  rw [State.undefinedChecks] at hpass
  simp only [State.runUndefined, htake, hop, hpass, Bool.not_true, Bool.or_self, Bool.false_eq_true, if_false]

/-- One that fails one of them is answered by it (R45). -/
theorem State.runUndefined_of_fail {s : State} {f : FuncId} {k : Check} (htake : s.canTake f = true)
    (hop : opcodeDefined (s.cmd f).opcode = false) (hfail : firstFailing (s.undefinedChecks f) = some k) :
    s.runUndefined f = (s.take f).answer f ⟨k.code, k.detail, k.body⟩ := by
  rw [State.undefinedChecks] at hfail
  simp only [State.runUndefined, htake, hop, hfail, Bool.not_true, Bool.or_self, Bool.false_eq_true, if_false]

/-- A fence is the first check that fails of a sound header (R45). -/
theorem State.undefinedChecks_fenced {s : State} {f : FuncId} (hheader : ∀ k ∈ headerChecks (s.cmd f), k.bad = false)
    (hfenced : (s.func f).state.isFenced = true ∨ (s.cmd f).behalf = true ∧ (s.func (s.cmd f).obj).state.isFenced = true) :
    firstFailing (s.undefinedChecks f) = some (plainCheck 2 rcFenced true) := by
  refine firstFailing_eq_some ?_ rfl rfl (by decide) fun e he hbad => ?_
  · rcases hfenced with hown | ⟨hbehalf, hobj⟩
    · simp [State.undefinedChecks, hown]
    · simp [State.undefinedChecks, hbehalf, hobj]
  · rcases List.mem_append.mp he with he | he
    · simp [hheader e he] at hbad
    · simp only [List.mem_cons, List.not_mem_nil, or_false] at he
      rcases he with rfl | rfl <;> exact congrArg (plainCheck 2 rcFenced) hbad

/-- Without a fence a sound header passes (R45). -/
theorem State.undefinedChecks_pass {s : State} {f : FuncId} (hheader : ∀ k ∈ headerChecks (s.cmd f), k.bad = false)
    (hown : (s.func f).state.isFenced = false) (hobj : (s.cmd f).behalf = false ∨ (s.func (s.cmd f).obj).state.isFenced = false) :
    firstFailing (s.undefinedChecks f) = none := by
  refine firstFailing_eq_none fun k hk => ?_
  rcases List.mem_append.mp hk with hk | hk
  · exact hheader k hk
  · rcases hobj with hobj | hobj <;> simp only [hown, hobj, List.mem_cons, List.not_mem_nil, or_false] at hk <;>
      rcases hk with rfl | rfl <;> simp [plainCheck]

/-- Settles O1: NOP and MODULE_INFO by their plans' runs, an undefined opcode by the checks made of it. -/
theorem informationCommandsAnswer : Obligations.InformationCommandsAnswer := by
  unfold Obligations.InformationCommandsAnswer
  refine fun f s => ⟨answers_of_run rfl fun _ => rfl, answers_of_run rfl fun _ => rfl, fun htake hop hheader => ?_⟩
  have hheader' : ∀ k ∈ headerChecks (s.cmd f), k.bad = false := by simpa using hheader
  refine ⟨fun hown hobj => ?_, fun hfenced => ?_⟩
  · exact congrArg (fun t : State => Host.Outcome.next t.settle)
      (State.runUndefined_of_pass htake hop (State.undefinedChecks_pass hheader' hown hobj))
  · exact congrArg (fun t : State => Host.Outcome.next t.settle)
      (State.runUndefined_of_fail htake hop (State.undefinedChecks_fenced hheader' hfenced))

/-! ### Factory-test opcodes (R424, R471) -/

/-- A sound command of an active manager, for itself, fails no common check but that its opcode is forbidden. -/
theorem commonChecks_bad {s : State} {c : Cmd} {op : Nat} {managerOnly : Bool} (hheader : ∀ k ∈ headerChecks c, k.bad = false)
    (hactive : (s.func c.f).state = .active) (hbehalf : c.behalf = false) (hmanager : (c.f == s.manager) = true) :
    ∀ k ∈ commonChecks s c op managerOnly c.length, k.bad = true → k = plainCheck 5 rcBadState true ∧ s.forbids op = true := by
  intro k hk hbad
  rcases List.mem_append.mp hk with hk | hk
  · simp [hheader k hk] at hbad
  · simp only [hactive, hbehalf, hmanager, List.mem_cons, List.not_mem_nil, or_false] at hk
    rcases hk with rfl | rfl | rfl | rfl | rfl | rfl | rfl | rfl | rfl <;> simp_all [plainCheck, FuncState.isFenced]

/-- FACTORY_TEST in its range performs its plan. -/
theorem execFactoryTest_of_range {f : FuncId} {s : State} (hlow : 0x0B80 ≤ (s.cmd f).opcode) (hhigh : (s.cmd f).opcode ≤ 0x0BFF) :
    exec (.factoryTest f) s = s.perform f (s.cmd f).opcode factoryTestPlan := if_pos ⟨hlow, hhigh⟩

/-- An opcode of the factory range is forbidden by no state of firmware that runs but DECOMMISSIONED (R424). -/
theorem State.forbids_factory {s : State} {op : Nat} (hrun : s.fw = .running) (hlow : 0x0B80 ≤ op) (hhigh : op ≤ 0x0BFF)
    (h : s.forbids op = true) : s.mram.lc = 4 := by
  have hsafe : safeRange op = true := (safeRange_iff op).mpr (.inr (.inl (by omega)))
  simp only [State.forbids, hrun, hsafe] at h
  simpa using (by simpa using h : s.mram.lc = 4 ∧ _).1

/-- Settles O2: within MANUFACTURE and RETURNED the only check that fails is that of order 3, outside them only checks that the state
forbids the opcode do. -/
theorem factoryTestIsAlwaysRefused : Obligations.FactoryTestIsAlwaysRefused := by
  unfold Obligations.FactoryTestIsAlwaysRefused
  intro f s
  dsimp only
  intro htake hlow hhigh hheader hactive hbehalf hmanager hrun
  have hmgr : ((s.cmd f).f == s.manager) = true := by simpa [State.cmd] using hmanager
  have hcommon := commonChecks_bad (op := (s.cmd f).opcode) (managerOnly := true) (by simpa using hheader) hactive hbehalf hmgr
  rw [execFactoryTest_of_range hlow hhigh]
  refine ⟨fun hopen => ?_, fun hclosed => ?_⟩
  · have hchecks : (factoryTestPlan (s.cmd f) s).checks = [plainCheck 3 rcBadOpcode true, plainCheck 5 rcBadState false] := by
      have hlc : (s.mram.lc == 0 || s.mram.lc == 3) = true := by simpa using hopen
      simp [factoryTestPlan, hlc, hmgr]
    refine perform_refused (k := plainCheck 3 rcBadOpcode true) htake rfl (firstFailing_eq_some ?_ rfl rfl (by decide) ?_)
    · simp [hchecks]
    · rw [hchecks]
      intro e he hbad
      rcases List.mem_append.mp he with he | he
      · have hlc := State.forbids_factory hrun hlow hhigh (hcommon e he hbad).2
        omega
      · rcases (by simpa using he : e = _ ∨ e = _) with rfl | rfl
        · rfl
        · cases hbad
  · have hchecks : (factoryTestPlan (s.cmd f) s).checks = [plainCheck 3 rcBadOpcode false, plainCheck 5 rcBadState true] := by
      have hlc : (s.mram.lc == 0 || s.mram.lc == 3) = false := by simpa using hclosed
      simp [factoryTestPlan, hlc]
    refine perform_refused (k := plainCheck 5 rcBadState true) htake rfl (firstFailing_eq_some ?_ rfl rfl (by decide) ?_)
    · simp [hchecks]
    · rw [hchecks]
      intro e he hbad
      rcases List.mem_append.mp he with he | he
      · exact (hcommon e he hbad).1
      · rcases (by simpa using he : e = _ ∨ e = _) with rfl | rfl
        · cases hbad
        · rfl

end Sys2Proof.Machine

/-! PROOFS. What the commands on functions answer and do (R373 to R385). -/

namespace Sys2Proof.Machine

section

variable {c : Cmd} {s t : State}

/-- FUNC_SHARE_SET of a counted share that is as it was (R377). -/
theorem funcShareSetPlan_run_of_same (hcode : c.u16 2 ≠ 2) (hsame : t.shareOf c.target (c.u16 2) = c.u64 8) :
    (funcShareSetPlan c s).run t = (t.setShare c.target (c.u16 2) (c.u64 8), .answer (Reply.ok [])) := by
  simp only [funcShareSetPlan, hcode, hsame, if_false, if_true]

/-- FUNC_SHARE_SET of a counted share that changes: the function is told (R377). -/
theorem funcShareSetPlan_run_of_changed (hcode : c.u16 2 ≠ 2) (hchanged : t.shareOf c.target (c.u16 2) ≠ c.u64 8) :
    (funcShareSetPlan c s).run t = ((t.setShare c.target (c.u16 2) (c.u64 8)).post c.target 0x0007 0
      (leBytes 2 (c.u16 2) ++ zeros 6 ++ leBytes 8 (t.shareOf c.target (c.u16 2)) ++ leBytes 8 (c.u64 8)), .answer (Reply.ok [])) := by
  simp only [funcShareSetPlan, hcode, hchanged, if_false]
  rfl

/-- FUNC_SHARE_SET of the furrows (R376, R377). -/
theorem funcShareSetPlan_run_of_furrows (hcode : c.u16 2 = 2) :
    (funcShareSetPlan c s).run t =
      (let u := t.modFunc c.target (fun w => { w with furrows := BitVec.ofNat 40 (c.u64 8) })
       if t.shareOf c.target 2 = c.u64 8 then u else u.shareChanged c.target 2 (t.shareOf c.target 2) (c.u64 8), .answer (Reply.ok [])) := by
  simp only [funcShareSetPlan, hcode, if_true]

end

/-- Settles O3: each command by its plan's run; FUNC_SHARE_SET by what the share is. -/
theorem functionCommandsAnswer : Obligations.FunctionCommandsAnswer := by
  unfold Obligations.FunctionCommandsAnswer
  exact fun f s => ⟨answers_of_run rfl fun _ => rfl, answers_of_run rfl fun _ => rfl, goesOn_of_run rfl fun _ => rfl,
    fun hcode hsame => answers_of_run rfl fun _ => funcShareSetPlan_run_of_same hcode hsame,
    fun hcode hchanged => answers_of_run rfl fun _ => funcShareSetPlan_run_of_changed hcode hchanged,
    fun hcode => answers_of_run rfl fun _ => funcShareSetPlan_run_of_furrows hcode,
    answers_of_run rfl fun _ => rfl, answers_of_run rfl fun _ => rfl, answers_of_run rfl fun _ => rfl⟩

end Sys2Proof.Machine

/-! PROOFS. What the commands on regions and hot pages answer and do (R84 to R99). -/

namespace Sys2Proof.Machine

/-- The region a command names, where there is one. -/
theorem cmdRegion_of_some {s : State} {c : Cmd} {r : Region} (h : s.region (BitVec.ofNat 32 (c.u32 0)) = some r) :
    cmdRegion s c = r := by
  simp [cmdRegion, h]

/-- REGION_QUERY's payload for a region that stands (R99). -/
theorem regionQueryPlan_run_of_some {c : Cmd} {s t : State} {r : Region} (h : t.region (BitVec.ofNat 32 (c.u32 0)) = some r) :
    (regionQueryPlan c s).run t = (t, .answer (Reply.ok (r.creation ++
      leBytes 4 (t.xfers.filter (fun x => x.2.region == c.u32 0 % 2 ^ 20 && !x.2.purpose.readsMirror)).length))) := by
  simp only [regionQueryPlan, queryPlan, h]

/-- Settles O4: each command by its plan's run, with the slot of the series or the region it names. -/
theorem regionCommandsAnswer : Obligations.RegionCommandsAnswer := by
  unfold Obligations.RegionCommandsAnswer
  refine fun f s => ⟨fun k q hseries => answers_of_run rfl fun _ => ?_, goesOn_of_run rfl fun _ => rfl,
    fun r hr => answers_of_run rfl fun _ => regionQueryPlan_run_of_some hr, fun r hr => goesOn_of_run rfl fun _ => ?_,
    fun r hr => goesOn_of_run rfl fun _ => ?_, answers_of_run rfl fun _ => rfl, answers_of_run rfl fun _ => rfl⟩
  · simp only [regionCreatePlan, createRegion, hseries]
    rfl
  · simp only [regionRemapPlan, remapRegion, waitInval, cmdRegion_of_some hr]
    rfl
  · simp only [mirrorInvalidatePlan, waitInval, cmdRegion_of_some hr]
    rfl

end Sys2Proof.Machine

/-! PROOFS. What the commands on rings, trigger counters and communicators answer and do (R129 to R133, R160 to R167, R259 to R262). -/

namespace Sys2Proof.Machine

/-- A new ring takes the next number of its function's series (R467). -/
theorem State.addRing_of_take {s : State} {f : FuncId} {g : Ring} {n : Nat} {q : Series} (h : (s.func f).ringSeries.take 262144 = some (n, q)) :
    s.addRing f g = (s.setFunc f { s.func f with ringSeries := q, rings := tset (s.func f).rings n g },
      .answer (Reply.ok (leBytes 4 n ++ zeros 4))) := by
  simp only [State.addRing, h]

/-- RING_QUERY's payload for a ring that stands (R129). -/
theorem ringQueryPlan_run_of_some {c : Cmd} {s t : State} {g : Ring} (h : t.ring c.obj (c.u32 0) = some g) :
    (ringQueryPlan c s).run t = (t, .answer (Reply.ok
      (leBytes 1 (if g.error then 2 else b2n (t.ringReady c.obj (c.u32 0) g && !t.canReserve c.obj g)) ++ zeros 3 ++
       leBytes 4 (indexOf g.n g.cons) ++ leBytes 4 (indexOf g.n g.prod) ++ leBytes 4 (indexOf g.n g.started) ++
       leBytes 4 (if g.error then indexOf g.n g.errorIndex else 0)))) := by
  simp only [ringQueryPlan, queryPlan, h]

/-- Settles O5: each command by its plan's run, a new ring with the next number of the series. -/
theorem ringCommandsAnswer : Obligations.RingCommandsAnswer := by
  unfold Obligations.RingCommandsAnswer
  exact fun f s => ⟨fun n q hseries => ⟨answers_of_run rfl fun _ => State.addRing_of_take hseries,
      answers_of_run rfl fun _ => State.addRing_of_take hseries⟩,
    answers_of_run rfl fun _ => rfl, fun g hg => answers_of_run rfl fun _ => ringQueryPlan_run_of_some hg,
    answers_of_run rfl fun _ => rfl, goesOn_of_run rfl fun _ => rfl⟩

/-- CQ_CREATE gives the new completion ring the next number of the series (R467). -/
theorem cqCreatePlan_run_of_take {c : Cmd} {s t : State} {n : Nat} {q : Series} (h : (t.func c.obj).cqSeries.take 65536 = some (n, q)) :
    (cqCreatePlan c s).run t = (t.setFunc c.obj { t.func c.obj with
      cqSeries := q, cqs := tset (t.func c.obj).cqs n (Cq.fresh (c.u8 0) (c.u16 2) (c.u32 4) (BitVec.ofNat 32 (c.u32 8)) (c.u64 16)) },
      .answer (Reply.ok (leBytes 4 n ++ zeros 4))) := by
  simp only [cqCreatePlan, h]

/-- CQ_QUERY's payload for a completion ring that stands (R129). -/
theorem cqQueryPlan_run_of_some {c : Cmd} {s t : State} {q : Cq} (h : t.cq c.obj (c.u32 0) = some q) :
    (cqQueryPlan c s).run t = (t, .answer (Reply.ok
      (leBytes 1 (cqStateCode q.state) ++ zeros 3 ++ leBytes 4 (indexOf q.n q.prod) ++ leBytes 4 (indexOf q.n q.cons) ++
       leBytes 4 q.windrow.length ++ leBytes 4 q.peak ++ leBytes 4 q.reserved))) := by
  simp only [cqQueryPlan, queryPlan, h]

/-- TRIG_ALLOC gives the new counter the next number of the series (R467). -/
theorem trigAllocPlan_run_of_take {c : Cmd} {s t : State} {n : Nat} {q : Series} (h : (t.func c.obj).trigSeries.take 65536 = some (n, q)) :
    (trigAllocPlan c s).run t = (t.setFunc c.obj { t.func c.obj with
      trigSeries := q, trigs := tset (t.func c.obj).trigs n ⟨0, if c.u64 8 = 0 then 0 else c.u16 0, c.u64 8, false⟩ },
      .answer (Reply.ok (leBytes 2 n ++ zeros 6))) := by
  simp only [trigAllocPlan, h]

/-- Settles O6: each command by its plan's run. That a new counter starts at 0 is the model's choice (log entry 6). -/
theorem completionAndTriggerCommandsAnswer : Obligations.CompletionAndTriggerCommandsAnswer := by
  unfold Obligations.CompletionAndTriggerCommandsAnswer
  exact fun f s => ⟨fun n q hseries => answers_of_run rfl fun _ => cqCreatePlan_run_of_take hseries, answers_of_run rfl fun _ => rfl,
    fun q hq => answers_of_run rfl fun _ => cqQueryPlan_run_of_some hq,
    fun n q hseries => answers_of_run rfl fun _ => trigAllocPlan_run_of_take hseries,
    answers_of_run rfl fun _ => rfl, answers_of_run rfl fun _ => rfl, answers_of_run rfl fun _ => rfl, answers_of_run rfl fun _ => rfl⟩

/-- COMM_QUERY's payload for a communicator that stands (R289). -/
theorem commQueryPlan_run_of_some {c : Cmd} {s t : State} {m : Comm} (h : t.comm c.obj (c.u32 0) = some m) :
    (commQueryPlan c s).run t = (t, .answer (Reply.ok
      (leBytes 1 (b2n m.degraded) ++ zeros 3 ++ leBytes 4 (t.opsOf c.obj (c.u32 0)) ++ leBytes 4 m.pruned ++ zeros 4))) := by
  simp only [commQueryPlan, queryPlan, h]

/-- Settles O12: each command by its plan's run, a new communicator with the next number of the series. -/
theorem communicatorCommandsAnswer : Obligations.CommunicatorCommandsAnswer := by
  unfold Obligations.CommunicatorCommandsAnswer
  refine fun f s => ⟨fun m q hseries => answers_of_run rfl fun _ => ?_, answers_of_run rfl fun _ => rfl,
    fun m hm => answers_of_run rfl fun _ => commQueryPlan_run_of_some hm, answers_of_run rfl fun _ => rfl⟩
  simp only [commCreatePlan, hseries]

end Sys2Proof.Machine

/-! PROOFS. What the commands on connections, keys and transport parameters answer and do (R143 to R147, R200 to R203, R208). -/

namespace Sys2Proof.Machine

/-- CONN_QUERY's payload for a connection that stands (R167). -/
theorem connQueryPlan_run_of_some {c : Cmd} {s t : State} {k : Conn} (h : t.conn (c.u32 0) = some k) :
    (connQueryPlan c s).run t = (t, .answer (Reply.ok
      (leBytes 1 (connStateCode k.state) ++ leBytes 1 (connModeCode k.mode) ++ leBytes 1 (b2n (k.ctx == .cached)) ++ leBytes 1 (b2n k.pin) ++
       leBytes 4 k.tx.next ++ leBytes 4 k.rx.epsn ++ leBytes 4 (k.psnSub k.tx.next k.tx.una) ++ leBytes 4 (min max32 k.stats.missDrops)))) := by
  simp only [connQueryPlan, queryPlan, h]

/-- Settles O7: each command by its plan's run, with the number of the series or the connection it names. -/
theorem connectionCommandsAnswer : Obligations.ConnectionCommandsAnswer := by
  unfold Obligations.ConnectionCommandsAnswer
  refine fun f s => ⟨fun m q hseries => answers_of_run rfl fun _ => ?_, fun k hk => answers_of_run rfl fun _ => ?_,
    answers_of_run rfl fun _ => rfl,
    fun k hk => ⟨answers_of_run rfl fun _ => connQueryPlan_run_of_some hk, answers_of_run rfl fun _ => ?_⟩⟩
  · simp only [connCreatePlan, hseries]
  · simp only [connConnectPlan, hk] <;> rfl
  · simp only [connResetPlan, setPlan, hk]

/-- KEY_CREATE gives the new key the next number of the series (R202, R467). -/
theorem keyCreatePlan_run_of_take {c : Cmd} {s t : State} {k : Nat} {q : Series} (h : t.keySeries.take 0x100000000 = some (k, q)) :
    (keyCreatePlan c s).run t =
      ({ t with keySeries := q, keys := tset t.keys k ⟨c.obj, useOf (c.u8 0), c.bytes 4 4, c.bytes 8 32, 0, false, none⟩ },
       .answer (Reply.ok (leBytes 4 k ++ zeros 4))) := by
  simp only [keyCreatePlan, h]

/-- What an accepted command does to the state: its plan's effect, then the answer (R39). -/
theorem runCommand_accepted {s t : State} {f : FuncId} {op : Nat} {plan : Cmd → State → Plan} {r : Reply}
    (haccepts : s.accepts f op plan = true) (hrun : (plan (s.cmd f) s).run (s.take f) = (t, .answer r)) :
    s.runCommand f op plan = t.answer f r := by
  simp only [State.accepts, Bool.and_eq_true, beq_iff_eq, Bool.not_eq_true', Option.isNone_iff_eq_none] at haccepts
  obtain ⟨⟨⟨htake, hop⟩, honly⟩, hpass⟩ := haccepts
  simp only [State.runCommand, State.runCommandC, htake, hop, honly, hpass, hrun, Bool.not_true, bne_self_eq_false, Bool.or_self,
    Bool.false_eq_true, if_false]

/-- A KEY_CREATE that is accepted is answered, and the key wiped from the mailbox (R201). -/
theorem exec_keyCreate_accepted {s t : State} {f : FuncId} {r : Reply} (haccepts : s.accepts f 0x0400 keyCreatePlan = true)
    (hrun : (keyCreatePlan (s.cmd f) s).run (s.take f) = (t, .answer r)) :
    exec (.keyCreate f) s = .next ((t.answer f r).wipeKey f).settle := by
  have hdue : (s.canTake f && (s.cmd f).opcode == 0x0400) = true := by
    simp only [State.accepts, Bool.and_eq_true] at haccepts
    obtain ⟨⟨hdue, -⟩, -⟩ := haccepts
    simpa only [Bool.and_eq_true] using hdue
  rw [← runCommand_accepted haccepts hrun]
  exact congrArg (fun t : State => Host.Outcome.next t.settle) (if_pos hdue)

/-- Settles O8: each command by its plan's run, on the connection it names; KEY_CREATE wipes its key after the answer. -/
theorem keyAndTransportCommandsAnswer : Obligations.KeyAndTransportCommandsAnswer := by
  unfold Obligations.KeyAndTransportCommandsAnswer
  refine fun f s => ⟨fun k q hseries haccepts => exec_keyCreate_accepted haccepts (keyCreatePlan_run_of_take hseries),
    answers_of_run rfl fun _ => rfl, fun k hk => answers_of_run rfl fun _ => ?_, answers_of_run rfl fun _ => rfl,
    answers_of_run rfl fun _ => rfl, fun k hk => answers_of_run rfl fun _ => ?_, answers_of_run rfl fun _ => rfl,
    fun k hk => answers_of_run rfl fun _ => ?_⟩
  · simp only [connSetKeysPlan, setPlan, hk]
  · simp only [xportQueryPlan, queryPlan, hk]
  · simp only [ccQueryPlan, queryPlan, hk]

end Sys2Proof.Machine

/-! PROOFS. What the commands on shapers, the scheduler, policers, gates, ports, time and the relay answer and do (R213 to R227, R229 to
R255, R364 to R372). -/

namespace Sys2Proof.Machine

/-- Settles O9: each command by its plan's run, SHAPER_BIND by its kind and GATE_SET by its count. -/
theorem schedulingCommandsAnswer : Obligations.SchedulingCommandsAnswer := by
  unfold Obligations.SchedulingCommandsAnswer
  refine fun f s => ⟨fun n q hseries => answers_of_run rfl fun _ => ?_, answers_of_run rfl fun _ => rfl,
    fun hkind => answers_of_run rfl fun _ => ?_, fun hkind => answers_of_run rfl fun _ => ?_,
    fun hkind => answers_of_run rfl fun _ => ?_, fun hkind => answers_of_run rfl fun _ => ?_,
    answers_of_run rfl fun _ => rfl, answers_of_run rfl fun _ => rfl, answers_of_run rfl fun _ => rfl,
    fun hnamed => answers_of_run rfl fun _ => ?_, fun n q halloc hseries => answers_of_run rfl fun _ => ?_,
    fun q hq => answers_of_run rfl fun _ => ?_, answers_of_run rfl fun _ => rfl,
    fun hcount => answers_of_run rfl fun _ => ?_, fun hcount => answers_of_run rfl fun _ => ?_, answers_of_run rfl fun _ => rfl⟩
  · simp only [shaperAllocPlan, hseries]
  · simp [shaperBindPlan, setPlan, hkind]
  · simp [shaperBindPlan, setPlan, hkind]
  · simp [shaperBindPlan, setPlan, hkind]
  · simp [shaperBindPlan, setPlan, hkind]
  · simp [policerSetPlan, hnamed]
  · simp [policerSetPlan, halloc, hseries]
  · simp only [policerQueryPlan, queryPlan, hq]
  · simp [gateSetPlan, setPlan, hcount]
  · simp [gateSetPlan, setPlan, hcount] <;> rfl

/-- Settles O10: each command by its plan's run, PORT_STATS by whether the port is its physical port's first. That a change of PREEMPT
is one of its enable bit is the model's choice (log entry 23). -/
theorem portCommandsAnswer : Obligations.PortCommandsAnswer := by
  unfold Obligations.PortCommandsAnswer
  refine fun f s => ⟨answers_of_run rfl fun _ => rfl, answers_of_run rfl fun _ => rfl, goesOn_of_run rfl fun _ => rfl,
    goesOn_of_run rfl fun _ => rfl, fun hlater => answers_of_run rfl fun _ => ?_, fun hfirst => answers_of_run rfl fun _ => ?_,
    answers_of_run rfl fun _ => rfl, answers_of_run rfl fun _ => rfl, answers_of_run rfl fun _ => rfl, answers_of_run rfl fun _ => rfl⟩
  · simp only [portStatsPlan, hlater, if_false]
  · simp only [portStatsPlan, hfirst, if_true]

/-- Settles O11: each command by its plan's run, PTP_ADJUST by its operation and RELAY_EPOCH_SWITCH by whether the epoch is another. -/
theorem timeAndRelayCommandsAnswer : Obligations.TimeAndRelayCommandsAnswer := by
  unfold Obligations.TimeAndRelayCommandsAnswer
  refine fun f s => ⟨fun hop => answers_of_run rfl fun _ => ?_, fun hop => answers_of_run rfl fun _ => ?_,
    fun hop => answers_of_run rfl fun _ => ?_, answers_of_run rfl fun _ => rfl, answers_of_run rfl fun _ => rfl,
    answers_of_run rfl fun _ => rfl, answers_of_run rfl fun _ => rfl, fun hother => answers_of_run rfl fun _ => ?_,
    fun hsame => answers_of_run rfl fun _ => ?_, answers_of_run rfl fun _ => rfl⟩
  · simp [ptpAdjustPlan, setPlan, hop]
  · simp [ptpAdjustPlan, setPlan, hop]
  · simp [ptpAdjustPlan, setPlan, hop]
  · simp [relayEpochSwitchPlan, setPlan, hother]
  · simp [relayEpochSwitchPlan, setPlan, hsame]

end Sys2Proof.Machine

/-! PROOFS. What the commands on programs, memory, spares, resets, images, the life cycle, observation and the global stop answer and
do (R316 to R348, R378, R385, R404 to R428, R432 to R448). -/

namespace Sys2Proof.Machine

/-! ### Drill programs (R316, R320, R334) -/

/-- An accepted DRILL_LOAD whose effect goes on running leaves its job in the mailbox (R39, R316). -/
theorem exec_drillLoad_accepted {s t : State} {f : FuncId} {img0 : Bytes} {code : ImageCode} {job : LongJob} {committed : Bool}
    (haccepts : s.accepts f 0x0800 (drillLoadPlan img0 code.stochasticAt code.descs) = true)
    (hrun : (drillLoadPlan img0 code.stochasticAt code.descs (s.cmd f) s).run (s.take f) = (t, .long job committed)) :
    exec (.drillLoad f img0 code) s = .next (t.modMbx f (fun m => { m with long := some (job, committed) })).settle := by
  simp only [State.accepts, Bool.and_eq_true, beq_iff_eq, Bool.not_eq_true', Option.isNone_iff_eq_none] at haccepts
  obtain ⟨⟨⟨htake, hop⟩, honly⟩, hpass⟩ := haccepts
  have hload : s.runCommandC f 0x0800 (drillDry img0) (drillLoadPlan img0 code.stochasticAt code.descs) =
      t.modMbx f (fun m => { m with long := some (job, committed) }) := by
    simp only [State.runCommandC, htake, hop, honly, hpass, hrun, Bool.not_true, bne_self_eq_false, Bool.or_self,
      Bool.false_eq_true, if_false]
  exact congrArg (fun u : State => Host.Outcome.next u.settle) hload

/-- A load that passed its checks finds its program number and its inputs' numbers, and begins (R316). -/
theorem State.beginLoad_of_take {s : State} {c : Cmd} {img : Bytes} {descs : List StreamDesc} {n base : Nat} {q : Series}
    (hseries : s.progSeries.take 0xFFFFFFFF = some (n, q)) (hbase : s.inputBaseFor c.obj (cmdBindings c img) = some base) :
    s.beginLoad c img descs =
      let w := s.weightsRegion c.obj n img (s.chooseFurrows c.obj img).chosen
      let p := s.makeProg c img descs base w.1
      let u := w.2.modFunc c.obj (fun v => { v with
        pulses := (pulseInputs p.bindings).foldl (fun t i => tset t (base + i) (n, i)) v.pulses })
      ({ u with progSeries := q, progs := tset u.progs n p }, .long (.drillLoad n) false) := by
  simp only [State.beginLoad, hseries, hbase]

/-- Settles O13: each command by its plan's run, DRILL_LOAD by `beginLoad_of_take` and, with CHECK_ONLY, by its dry run's answer. That
ENABLE starts the program's wait is the model's choice (log entry 91). -/
theorem programCommandsAnswer : Obligations.ProgramCommandsAnswer := by
  unfold Obligations.ProgramCommandsAnswer
  refine fun f s => ⟨fun img0 stoch descs k base q hseries hbase haccepts => ?_, fun img0 stoch descs htake hop honly hpass => ?_,
    goesOn_of_run rfl fun _ => rfl, fun p hp => answers_of_run rfl fun _ => ?_, answers_of_run rfl fun _ => rfl,
    answers_of_run rfl fun _ => rfl⟩
  · exact exec_drillLoad_accepted (code := ⟨stoch, descs⟩) haccepts (State.beginLoad_of_take hseries hbase)
  · exact request_checkOnly (q := ⟨f, 0x0800, drillLoadPlan img0 stoch descs, drillDry img0, id⟩) rfl (by simp [Request.due, htake, hop])
      hpass honly
  · simp only [drillQueryPlan, queryPlan, hp]

/-! ### Memory and spares (R338 to R348, R378, R385, R404, R405) -/

/-- Settles O14: each command by its plan's run, REPAIR by whether its KIND is one of HBM. That HBM_ROWS counts four times the HBM banks
less those used is the model's choice (log entry 117). -/
theorem memoryCommandsAnswer : Obligations.MemoryCommandsAnswer := by
  unfold Obligations.MemoryCommandsAnswer
  refine fun f s => ⟨answers_of_run rfl fun _ => rfl, goesOn_of_run rfl fun _ => rfl, goesOn_of_run rfl fun _ => rfl,
    answers_of_run rfl fun _ => rfl, answers_of_run rfl fun _ => rfl, answers_of_run rfl fun _ => rfl, goesOn_of_run rfl fun _ => rfl,
    answers_of_run rfl fun _ => rfl, answers_of_run rfl fun _ => rfl, fun hkind => goesOn_of_run rfl fun _ => ?_,
    fun hkind => goesOn_of_run rfl fun _ => ?_, fun mj => answers_of_run rfl fun _ => rfl⟩
  · simp [repairPlan, hkind]
  · simp only [repairPlan, hkind, if_true]

/-! ### Resets, images and the life cycle (R413 to R428) -/

/-- Settles O15: each command by its plan's run, MODULE_FALLOW by its OP. That FW_RESTART is answered before the restart is the model's
choice (log entry 54). -/
theorem resetAndImageCommandsAnswer : Obligations.ResetAndImageCommandsAnswer := by
  unfold Obligations.ResetAndImageCommandsAnswer
  refine fun f s => ⟨answers_of_run rfl fun _ => rfl, answers_of_run rfl fun _ => rfl, goesOn_of_run rfl fun _ => rfl,
    fun henter => goesOn_of_run rfl fun _ => ?_, fun hleave => goesOn_of_run rfl fun _ => ?_, goesOn_of_run rfl fun _ => rfl,
    answers_of_run rfl fun _ => rfl, fun img => goesOn_of_run rfl fun _ => rfl, answers_of_run rfl fun _ => rfl,
    answers_of_run rfl fun _ => rfl, answers_of_run rfl fun _ => rfl⟩
  · simp [moduleFallowPlan, henter]
  · simp [moduleFallowPlan, hleave]

/-- Settles O16: each command by its plan's run. -/
theorem lifeCycleCommandsAnswer : Obligations.LifeCycleCommandsAnswer := by
  unfold Obligations.LifeCycleCommandsAnswer
  exact fun f s => ⟨answers_of_run rfl fun _ => rfl, answers_of_run rfl fun _ => rfl, fun good => goesOn_of_run rfl fun _ => rfl⟩

/-! ### Observation and the global stop (R432 to R448) -/

/-- Settles O17: each command by its plan's run, TRACE_CONTROL and FAULT_READ by the operation or log they name. That FAULT_READ reads
the newest records of the MRAM log is the model's choice (log entry 38). -/
theorem observationCommandsAnswer : Obligations.ObservationCommandsAnswer := by
  unfold Obligations.ObservationCommandsAnswer
  refine fun f s => ⟨answers_of_run rfl fun _ => rfl, answers_of_run rfl fun _ => rfl, fun hop => answers_of_run rfl fun _ => ?_,
    fun hop => answers_of_run rfl fun _ => ?_, fun hop => answers_of_run rfl fun _ => ?_, answers_of_run rfl fun _ => rfl,
    goesOn_of_run rfl fun _ => rfl, fun hqueue => answers_of_run rfl fun _ => ?_, fun hlog => answers_of_run rfl fun _ => ?_,
    goesOn_of_run rfl fun _ => rfl⟩
  · simp [traceControlPlan, setPlan, hop]
  · simp [traceControlPlan, setPlan, hop]
  · simp [traceControlPlan, setPlan, hop]
  · simp only [faultReadPlan, hqueue, if_true]
  · simp only [faultReadPlan, hlog, if_false]

/-- Settles O18: each command by its plan's run, GLOBAL_RESUME by whether the module is stopped. That a resume without a stop is
answered OK is the model's choice (log entry 131). -/
theorem gleanAndStopCommandsAnswer : Obligations.GleanAndStopCommandsAnswer := by
  unfold Obligations.GleanAndStopCommandsAnswer
  refine fun f s => ⟨fun need => answers_of_run rfl fun _ => rfl, fun p hp => answers_of_run rfl fun _ => ?_,
    answers_of_run rfl fun _ => rfl, answers_of_run rfl fun _ => rfl, fun hstopped => answers_of_run rfl fun _ => ?_,
    fun hrunning => answers_of_run rfl fun _ => ?_, answers_of_run rfl fun _ => rfl⟩
  · simp only [gleanQueryPlan, queryPlan, hp]
  · simp only [globalResumePlan, setPlan, hstopped, if_true]
  · simp [globalResumePlan, setPlan, hrunning]

end Sys2Proof.Machine

/-! PROOFS. What the end of a long command and the events of a mailbox do (R35, R39, R40, R42, R44, R47, R48, R51, R57). -/

namespace Sys2Proof.Machine

/-! ### The end of a long command (R39, R42, R47) -/

/-- The end of a long command of a module whose firmware serves mailboxes does what its job's end leads to. -/
theorem exec_longCommandDone_of_end {f : FuncId} {s t : State} {job : LongJob} {b : Bool} (hserving : s.serving = true)
    (hend : s.longDone f job = t) (hlong : (s.func f).mbx.long = some (job, b)) : exec (.longCommandDone f) s = .next t.settle := by
  simp only [exec, execLongCommandDone, next, hlong, hserving, if_true, hend]

/-- Settles O19: the row does what its job's end leads to; where that asks whether the work is over, the hypotheses say it is. -/
theorem longCommandsEndWithTheirEffect : Obligations.LongCommandsEndWithTheirEffect := by
  unfold Obligations.LongCommandsEndWithTheirEffect
  intro f s b hserving
  have ends : ∀ {job : LongJob} {t : State}, s.longDone f job = t → (s.func f).mbx.long = some (job, b) →
      exec (.longCommandDone f) s = .next t.settle := exec_longCommandDone_of_end hserving
  refine ⟨fun g hdone => ends ?_, fun g r v hring hjobs hposts hwait => ends ?_, fun ph k => ends rfl, fun p => ends rfl,
    fun n => ends ?_, fun n hidle => ends ?_, fun w t n l => ends rfl, fun base len => ends rfl, fun g base len => ends rfl,
    fun g base len => ends rfl, fun kind unit addr hhbm hchan => ends ?_, fun unit addr hover => ends ?_,
    fun unit addr hover => ends ?_, fun mask => ends rfl, ends rfl, ends rfl, ends rfl, fun slot img => ends rfl,
    fun to_ h => ends rfl, fun die key off len => ends rfl, fun key off len sample => ends rfl⟩
  · simp only [State.longDone, hdone, if_false]
  · simp [State.longDone, hring, hjobs, hposts, hwait, State.ringRestarted]
  · simp only [State.longDone]
  · simp [State.longDone, hidle]
  · simp only [State.longDone, hhbm, hchan, if_false]
  · simp only [State.longDone, hover, Bool.false_eq_true, if_true, if_false]
  · simp only [State.longDone, hover, Nat.reduceEqDiff, Bool.false_eq_true, if_true, if_false]

/-! ### Progress, deadline and the mailbox registers (R35, R39, R40, R44, R48, R51, R57) -/

/-- A read or write of a mailbox register takes place at a function that can be reached. -/
theorem next_hostAccess {s : State} {f : FuncId} {g : State → State} (h : s.reachable f = true) :
    next (s.hostAccess f g) = .next (g (s.regSent f)) := congrArg next (hostAccess_reachable h)

/-- GO posts a command where none is POSTED or RUNNING and firmware serves mailboxes (R39). -/
theorem State.go_posts {s : State} {f : FuncId} {v : Word32} (hgo : bit v.toNat 0 = true) (hposted : (s.func f).mbx.state ≠ .posted)
    (hrunning : (s.func f).mbx.state ≠ .running) (hserving : s.serving = true) :
    s.go f v =
      let s1 := s.count f cntMailbox 1
      let s2 := s1.fresh.2.modMbx f (fun w => { w with
        state := .posted, token := BitVec.ofNat 16 ((s1.cmd f).hdr 2 2), mixed := [], goOrder := s.goNext })
      { s2 with goNext := s.goNext + 1 } := by
  simp only [State.go, hgo, hposted, hrunning, hserving, Bool.not_true, Bool.false_eq_true, or_self, if_false]

/-- GO is ignored, and counted, while a command is POSTED or RUNNING (R39). -/
theorem State.go_busy {s : State} {f : FuncId} {v : Word32} (hgo : bit v.toNat 0 = true)
    (hbusy : (s.func f).mbx.state = .posted ∨ (s.func f).mbx.state = .running) : s.go f v = s.count f cntProtocol 1 := by
  simp only [State.go, hgo, hbusy, Bool.not_true, Bool.false_eq_true, if_false, if_true]

/-- The hardware answers GO where firmware serves no mailbox (R57). -/
theorem State.go_unserved {s : State} {f : FuncId} {v : Word32} (hgo : bit v.toNat 0 = true) (hposted : (s.func f).mbx.state ≠ .posted)
    (hrunning : (s.func f).mbx.state ≠ .running) (hserving : s.serving = false) :
    s.go f v = (s.count f cntMailbox 1).hardwareBusy f := by
  simp only [State.go, hgo, hposted, hrunning, hserving, Bool.not_true, Bool.not_false, Bool.false_eq_true, or_self, if_false, if_true]

/-- EVT_CONS frees the slots up to it, where it does not pass the producer (R48). -/
theorem State.evtCons_frees {s : State} {f : FuncId} {v : Word32}
    (hwithin : (BitVec.ofNat 7 v.toNat - (s.func f).mbx.evtCons).toNat ≤ (s.func f).mbx.occupied) :
    s.evtCons f v = (s.modMbx f (fun w => { w with evtCons := BitVec.ofNat 7 v.toNat })).refillEvents f := by
  simp only [State.evtCons, Nat.not_lt.mpr hwithin, if_false]

/-- EVT_CONS is ignored, and counted, where it passes the producer (R48). -/
theorem State.evtCons_past {s : State} {f : FuncId} {v : Word32}
    (hpast : (BitVec.ofNat 7 v.toNat - (s.func f).mbx.evtCons).toNat > (s.func f).mbx.occupied) :
    s.evtCons f v = s.count f cntProtocol 1 := by
  simp only [State.evtCons, hpast, if_true]

/-- Settles O20: the events of a long command by its job and its firmware, those of a register by what the register's write does. That
a GO which the hardware answers is counted in MAILBOX_COMMANDS, with ELAPSED_US 0, is the model's choice (log entries 107 and 145). -/
theorem mailboxEventsAct : Obligations.MailboxEventsAct := by
  unfold Obligations.MailboxEventsAct
  refine fun f s => ⟨fun stage d n ms job b hlong hrunning hserving => ?_, fun job hlong hserving htimeout => ?_,
    fun v hreach hgo hposted hrunning hserving => (next_hostAccess hreach).trans (congrArg next (State.go_posts hgo hposted hrunning hserving)),
    fun v hreach hgo hbusy => (next_hostAccess hreach).trans (congrArg next (State.go_busy hgo hbusy)),
    fun v hreach hgo hposted hrunning hserving =>
      (next_hostAccess hreach).trans (congrArg next (State.go_unserved hgo hposted hrunning hserving)),
    fun v hreach hwithin => (next_hostAccess hreach).trans (congrArg next (State.evtCons_frees hwithin)),
    fun v hreach hpast => (next_hostAccess hreach).trans (congrArg next (State.evtCons_past hpast)), next_hostAccess⟩
  · simp only [exec, execProgressRecord, next, hlong, hrunning, hserving, and_self, if_true]
  · simp only [exec, execCommandTimeout, next, hlong, hserving, ne_eq, htimeout, not_false_eq_true, and_self, if_true]

end Sys2Proof.Machine

/-! PROOFS. What accesses to a function's window, event controller, MSI-X table and counters do (R65 to R68, R75 to R79, R429). -/

namespace Sys2Proof.Machine

/-- A register access that a stop holds takes place at a function that is served. -/
theorem next_regAccess {s : State} {f : FuncId} {c : Instr} {g : State → State} (h : s.served f = true) :
    next (s.regAccess f c g) = .next (g (s.regSent f)) := congrArg next (regAccess_served h)

/-! ### The BAR2 window (R65 to R68) -/

/-- A read that the window allows reads module memory; data that met an uncorrectable block is all ones (R68, R345). -/
theorem State.bar2Read_of_allowed {s : State} {f : FuncId} {off len : Nat} {obs : List BlockObs}
    (hallowed : s.winRefused f false (s.winAddr f off) len = false) :
    s.bar2Read f off len obs =
      let d := (s.winAsks f (s.winAddr f off) len).memRead (s.winAddr f off) len obs
      d.1.emit (.readData f (if d.2.2.1 then List.replicate len 0xFF else d.2.1) d.2.2.1) := by
  simp only [State.bar2Read, hallowed, Bool.false_eq_true, if_false]

/-- A read that the window refuses returns all ones (R67). -/
theorem State.bar2Read_of_refused {s : State} {f : FuncId} {off len : Nat} {obs : List BlockObs}
    (hrefused : s.winRefused f false (s.winAddr f off) len = true) :
    s.bar2Read f off len obs = (s.winFault f).emit (.readData f (List.replicate len 0xFF) false) := by
  simp only [State.bar2Read, hrefused, if_true]

/-- A write that the window allows writes module memory (R68). -/
theorem State.bar2Write_of_allowed {s : State} {f : FuncId} {off : Nat} {data : Bytes} {obs : List BlockObs}
    (hallowed : s.winRefused f true (s.winAddr f off) data.length = false) :
    s.bar2Write f off data obs = ((s.winSends f (s.winAddr f off) data.length).memWrite (s.winAddr f off) data obs).1 := by
  simp only [State.bar2Write, hallowed, Bool.false_eq_true, if_false]

/-- A write that the window refuses is discarded (R67). -/
theorem State.bar2Write_of_refused {s : State} {f : FuncId} {off : Nat} {data : Bytes} {obs : List BlockObs}
    (hrefused : s.winRefused f true (s.winAddr f off) data.length = true) : s.bar2Write f off data obs = s.winFault f := by
  simp only [State.bar2Write, hrefused, if_true]

/-- Settles O22: an access to BAR2 is what the window allows or refuses. -/
theorem windowAccessesAct : Obligations.WindowAccessesAct := by
  unfold Obligations.WindowAccessesAct
  intro f s off obs hserved
  refine ⟨fun len hallowed => ?_, fun len hrefused => ?_, fun data hallowed => ?_, fun data hrefused => ?_⟩
  · exact (exec_bar2Read_of_served hserved off len obs).trans (congrArg next (State.bar2Read_of_allowed hallowed))
  · exact (exec_bar2Read_of_served hserved off len obs).trans (congrArg next (State.bar2Read_of_refused hrefused))
  · exact (exec_bar2Write_of_served hserved off data obs).trans (congrArg next (State.bar2Write_of_allowed hallowed))
  · exact (exec_bar2Write_of_served hserved off data obs).trans (congrArg next (State.bar2Write_of_refused hrefused))

/-! ### The event controller (R75 to R79) -/

/-- No valid source is the number that stands for none. -/
theorem validSource_ne_none {src : Nat} (h : validSource src = true) : src ≠ 0xFFF := by
  rintro rfl
  exact absurd h (by decide)

/-- EVC_RAISE with WITHDRAW 0 signals a valid source (R76). -/
theorem State.evcRaise_signals {s : State} {f : FuncId} {v : Word32} (hraise : bit v.toNat 31 = false)
    (hvalid : validSource (bits v.toNat 11 0) = true) : s.evcRaise f v = s.signal f (bits v.toNat 11 0) := by
  simp only [State.evcRaise, validSource_ne_none hvalid, hvalid, hraise, Bool.not_true, Bool.false_eq_true, if_false]

/-- EVC_RAISE with WITHDRAW 1 withdraws a valid source (R76). -/
theorem State.evcRaise_withdraws {s : State} {f : FuncId} {v : Word32} (hwithdraw : bit v.toNat 31 = true)
    (hvalid : validSource (bits v.toNat 11 0) = true) : s.evcRaise f v = s.withdraw f (bits v.toNat 11 0) := by
  simp only [State.evcRaise, validSource_ne_none hvalid, hvalid, hwithdraw, Bool.not_true, Bool.false_eq_true, if_false, if_true]

/-- MSG_EN going from 0 to 1 lets every group's message out (R79). -/
theorem State.evcCtrl_enables {s : State} {f : FuncId} {v : Word32} (hset : bit v.toNat 0 = true) (hoff : (s.func f).evc.msgEn = false) :
    s.evcCtrl f v = (s.modFunc f (fun w => { w with evc := { w.evc with msgEn := true } })).sendAllGroups f := by
  simp only [State.evcCtrl, hset, hoff, Bool.not_false, Bool.and_self, if_true]

/-- MSG_EN cleared lets nothing out (R79). -/
theorem State.evcCtrl_disables {s : State} {f : FuncId} {v : Word32} (hclear : bit v.toNat 0 = false) :
    s.evcCtrl f v = s.modFunc f (fun w => { w with evc := { w.evc with msgEn := false } }) := by
  simp only [State.evcCtrl, hclear, Bool.false_and, Bool.false_eq_true, if_false]

/-- A route that is not 0 once its reserved bits are cleared is set (R12, R75). -/
theorem State.evcRoute_sets {s : State} {f : FuncId} {src : Nat} {v : Word32} (hsrc : src < 4095) (hroute : v &&& 0x8F0007FF#32 ≠ 0) :
    s.evcRoute f src v = s.setEvc f { (s.func f).evc with route := tset (s.func f).evc.route src (v &&& 0x8F0007FF#32) } := by
  simp only [State.evcRoute, ge_iff_le, Nat.not_le.mpr hsrc, if_neg hroute, if_false]

/-- A valid source of a function that is not fenced becomes pending (R76). -/
theorem State.signal_of_valid {s : State} {f : FuncId} {src : Nat} (hvalid : validSource src = true) (hopen : s.fenced f = false) :
    s.signal f src = ((s.fabSend (.transport (dieOf f)) .headland .crsp 8).count f cntEvents 1).setEvc f { (s.func f).evc with
      pending := linsert (s.func f).evc.pending src } := by
  simp only [State.signal, hvalid, hopen, Bool.not_true, Bool.or_self, Bool.false_eq_true, if_false]

/-- Settles O23: each access, once it has crossed the fabric, is what its register does; the module's units act at once. -/
theorem eventControllerActs : Obligations.EventControllerActs := by
  unfold Obligations.EventControllerActs
  refine fun f s0 => ⟨fun src hserved hbest => ?_, fun hserved hbest => ?_, fun v hserved hsrc hactive => ?_,
    fun v hserved hsrc hidle => ?_, fun v hserved => next_regAccess hserved, fun v hserved hraise hvalid => ?_,
    fun v hserved hwithdraw hvalid => ?_, fun v hserved hset hoff => ?_, fun v hserved hclear => ?_,
    fun src v hserved hsrc hroute => ?_, fun src hvalid hopen => congrArg next (State.signal_of_valid hvalid hopen), fun src => rfl⟩
  · exact (exec_evcClaimRead_of_served hserved).trans (congrArg next (State.evcClaim_of_some (s := s0.regSent f) hbest))
  · exact (exec_evcClaimRead_of_served hserved).trans (congrArg next (State.evcClaim_of_none (s := s0.regSent f) hbest))
  · exact (exec_evcEoiWrite_of_served hserved v).trans (congrArg next (State.evcEoi_of_active (s := s0.regSent f) hsrc hactive))
  · exact (exec_evcEoiWrite_of_served hserved v).trans (congrArg next (State.evcEoi_of_inactive (s := s0.regSent f) hsrc hidle))
  · simp only [exec, execEvcRaiseSignal, hraise, Bool.false_eq_true, if_false]
    exact (next_regAccess hserved).trans (congrArg next (State.evcRaise_signals hraise hvalid))
  · simp only [exec, execEvcRaiseWithdraw, hwithdraw, if_true]
    exact (next_regAccess hserved).trans (congrArg next (State.evcRaise_withdraws hwithdraw hvalid))
  · exact (next_regAccess hserved).trans (congrArg next (State.evcCtrl_enables (s := s0.regSent f) hset hoff))
  · exact (next_regAccess hserved).trans (congrArg next (State.evcCtrl_disables hclear))
  · exact (next_regAccess hserved).trans (congrArg next (State.evcRoute_sets (s := s0.regSent f) hsrc hroute))

/-! ### MSI-X and the counter snapshot (R79, R429) -/

/-- A vector that the function has loses its mask (R79). -/
theorem State.unmaskVector_of_lt {s : State} {f : FuncId} {n : Nat} (hn : n < s.vectors f) :
    s.unmaskVector f n = (s.modEntry f n (fun e => { e with masked := false })).unmasked f n := by
  simp only [State.unmaskVector, ge_iff_le, Nat.not_le.mpr hn, if_false]

/-- SNAP copies the counters while no copy is in progress (R429). -/
theorem State.cntSnap_copies {s : State} {f : FuncId} {v : Word32} (hset : bit v.toNat 0 = true) (hdone : (s.func f).cnt.snap = false) :
    s.cntSnap f v = s.modFunc f (fun w => { w with cnt := { w.cnt with shadow := w.cnt.live, snapTime := s.time, snap := true } }) := by
  simp only [State.cntSnap, hset, hdone, Bool.not_true, Bool.or_self, Bool.false_eq_true, if_false]

/-- MSI-X Enable set anew lets every group's message out (R79). -/
theorem State.enableMsix_of_disabled {s : State} {f : FuncId} (hoff : (s.func f).msix.enable = false) :
    s.enableMsix f = (s.modFunc f (fun w => { w with msix := { w.msix with enable := true } })).sendAllGroups f := by
  simp only [State.enableMsix, hoff, Bool.false_eq_true, if_false]

/-- Settles O24: each access, once it has crossed the fabric, is what its register does. That the counters and module time of the write
go to the shadow is the model's choice (log entry 41). -/
theorem messageAndCounterEventsAct : Obligations.MessageAndCounterEventsAct := by
  unfold Obligations.MessageAndCounterEventsAct
  refine fun f s0 => ⟨fun hserved => ⟨fun n hn => ?_, fun x hset hdone => ?_⟩,
    fun hreach => ⟨next_hostAccess hreach, next_hostAccess hreach, fun hoff => ?_, next_hostAccess hreach⟩, rfl⟩
  · exact (next_regAccess hserved).trans (congrArg next (State.unmaskVector_of_lt hn))
  · exact (next_regAccess hserved).trans (congrArg next (State.cntSnap_copies (s := s0.regSent f) hset hdone))
  · exact (next_hostAccess hreach).trans (congrArg next (State.enableMsix_of_disabled (s := s0.regSent f) hoff))

end Sys2Proof.Machine

/-! PROOFS. How the requests of work rings start, and what the reads of their entries lead to (R104 to R110, R119, R148, R161, R247, R262,
R344, R469). -/

namespace Sys2Proof.Machine

/-! ### Starting a request (R106, R110) -/

/-- The machine in which the arbiter picks: a context that the request of ring `g` needs is being fetched (R142). -/
def State.contextSought (s : State) (f : FuncId) (r : Nat) (g : Ring) : State :=
  match (if g.kind = RingKind.send ∧ !isRaw g (g.held.headD []) then s.boundConn f r (g.held.headD []) else none) with
  | some (n, c) => if c.ctx = CtxState.cached then s else s.fetchContext n
  | none => s

/-- A row that names the whole request of its ring starts it when the arbiter picks that ring (R106, R110). -/
theorem State.startRow_picked {s s2 : State} {f : FuncId} {r : Nat} {is : Ring → Bytes → List Bytes → Bool} {g0 g g2 : Ring}
    (hruns : s.runs = true) (hring0 : s.ring f r = some g0) (herror : g0.error = false) (hring : (s.judgeHeld f r).ring f r = some g)
    (hwhole : chainOf g.held = .complete) (his : is g (g.held.headD []) (g.held.drop 1) = true)
    (hpick : ((s.judgeHeld f r).contextSought f r g).arbiter (dieOf f) = (s2, some (f, r))) (hring2 : s2.ring f r = some g2) :
    s.startRow f r is = (s2.startHeld f r g2).refreshSet (dieOf f) := by
  simp only [State.runs, Bool.and_eq_true, Bool.not_eq_true'] at hruns
  obtain ⟨hon, hgo⟩ := hruns
  simp only [State.startRow, hring0, hon, hgo, hring, herror, hwhole, his, bne_self_eq_false, Bool.not_true, Bool.or_self,
    Bool.false_eq_true, if_false]
  change (match ((s.judgeHeld f r).contextSought f r g).arbiter (dieOf f) with
    | (s2, some (h, k)) =>
      if h = f ∧ k = r then (match s2.ring f r with
        | some g2 => (s2.startHeld f r g2).refreshSet (dieOf f)
        | none => s2) else s2
    | (s2, none) => s2) = _
  simp only [hpick, hring2, and_self, if_true]

/-- Settles O26: each row names the requests of its opcode, and a row that names the request the arbiter picked starts it. -/
theorem requestsStart : Obligations.RequestsStart := by
  unfold Obligations.RequestsStart
  intro f r s hruns s0 g0 g g2 s2 hring0 herror hring hwhole e s1 hpick hring2 t net coll
  have starts : ∀ is : Ring → Bytes → List Bytes → Bool, is g e (g.held.drop 1) = true → next (s.startRow f r is).settle = .next t :=
    fun is his => congrArg (fun u : State => next u.settle) (State.startRow_picked hruns hring0 herror hring hwhole his hpick hring2)
  have nets : ∀ op, net op → next (s.startRow f r (isNet op)).settle = .next t := fun op ⟨hkind, hop, hraw⟩ =>
    starts (isNet op) (by simp [isNet, hkind, hop, hraw])
  have colls : ∀ op, coll op → next (s.startRow f r (isColl op)).settle = .next t := fun op ⟨hkind, hop⟩ =>
    starts (isColl op) (by simp [isColl, hkind, hop])
  refine ⟨fun hkind => starts _ ?_, nets 0x10, nets 0x11, nets 0x12, fun ⟨hkind, hop⟩ => starts _ ?_, nets 0x14, nets 0x15, nets 0x16,
    fun ⟨hkind, hraw, hop⟩ => starts _ ?_, colls 0x80, colls 0x81, colls 0x82, colls 0x83, colls 0x84, fun hwait => starts _ ?_⟩
  · simp [hkind]
  · simp [hkind, hop]
  · simp [hkind, hraw, hop]
  · simpa using hwait

/-! ### Entry reads (R104, R105, R109, R344, R469) -/

/-- The read of an entry, issued, ends with what came back (R104). -/
theorem State.entryRead_of_xfer {s : State} {f : FuncId} {r x : Nat} {t : Xfer} {bytes : Bytes} {last : Bool} {obs : BlockObs}
    (hxfer : s.entryXfer f r = some (x, t)) :
    s.entryRead f r bytes last obs =
      let s1 := s.modXfer x (fun v => { v with purpose := .ringEntry f r last })
      if t.pieces.any (fun p => p.host) then s1.hostReadDone x bytes else s1.memReadDone x [obs] := by
  simp only [State.entryRead, hxfer]

/-- The read of an entry whose translation fails ends (R469). -/
theorem State.entryFault_translation {s : State} {f : FuncId} {r x : Nat} {t : Xfer}
    (hxfer : s.xfers.find? (fun (q : Nat × Xfer) => q.2.readsEntry f r) = some (x, t)) :
    s.entryFault f r .translation = s.endXfer x .xlateFault := by
  simp only [State.entryFault, hxfer]

/-- The read of an entry whose block is uncorrectable ends, at its controller if it is module memory's and issued (R344). -/
theorem State.entryFault_memory {s : State} {f : FuncId} {r x : Nat} {t : Xfer}
    (hxfer : s.xfers.find? (fun (q : Nat × Xfer) => q.2.readsEntry f r) = some (x, t)) :
    s.entryFault f r .memory =
      if t.phase = .issued ∧ !t.pieces.any (fun p => p.host) then s.memReadDone x [.uncorrectable] else s.endXfer x .memError := by
  simp only [State.entryFault, hxfer]

/-- An entry row of a module that is not stopped takes effect. -/
theorem exec_entryReadDone_of_running {s : State} {f : FuncId} {r : Nat} {got : EntryCopy} {last : Bool} (hgo : s.stop.stopped = false) :
    exec (.entryReadDone f r got last) s = .next (s.entryRead f r got.bytes last got.obs).settle := by
  simp only [exec, execEntryReadDone, next, hgo, Bool.false_eq_true, if_false]

/-- An entry row of a module that is not stopped takes effect. -/
theorem exec_entryReadFault_of_running {s : State} {f : FuncId} {r : Nat} {cause : EntryFault} (hgo : s.stop.stopped = false) :
    exec (.entryReadFault f r cause) s = .next (s.entryFault f r cause).settle := by
  simp only [exec, execEntryReadFault, next, hgo, Bool.false_eq_true, if_false]

section

variable {s : State} {f : FuncId} {r : Nat} {g : Ring} {b : Bytes} {last : Bool}

/-- An entry of the ring's own lap joins the chain held (R104, R105). -/
theorem State.entryTaken_joins (hring : s.ring f r = some g) (hwants : g.wantsRead = true) (hopen : s.fenced f = false)
    (howner : entOwner b = true) (hlap : entLap b = g.nextRead / g.n % 2) :
    s.entryTaken f r last (.ok b) = ((s.modRing f r (fun v => { v with
      held := g.held ++ [b], fetching := none
      waitSince := if chainOf (g.held ++ [b]) = .complete then s.time else g.waitSince })).judgeHeld f r).refreshSet (dieOf f) := by
  simp only [State.entryTaken, hring, hwants, hopen, howner, hlap, Bool.not_true, Bool.or_self, Bool.false_eq_true, if_false, and_self,
    if_true]

/-- Another entry is read again, or makes the request BAD_ENTRY after the last reread (R104, R109). -/
theorem State.entryTaken_stale (hring : s.ring f r = some g) (hwants : g.wantsRead = true) (hopen : s.fenced f = false)
    (hstale : entOwner b = false ∨ entLap b ≠ g.nextRead / g.n % 2) :
    s.entryTaken f r last (.ok b) =
      if g.fetching.getD 0 ≥ 4 ∨ last then
        s.badRequest f r g g.started ((g.held ++ [b]).headD []) ((g.held ++ [b]).drop 1) (g.held.length + 1) stBadEntry
      else s.modRing f r (fun v => { v with fetching := some (g.fetching.getD 0 + 1) }) := by
  have hnot : ¬ (entOwner b = true ∧ entLap b = g.nextRead / g.n % 2) := fun ⟨howner, hlap⟩ =>
    hstale.elim (fun h => by simp [h] at howner) (fun h => h hlap)
  simp only [State.entryTaken, hring, hwants, hopen, hnot, Bool.not_true, Bool.or_self, Bool.false_eq_true, if_false]

end

/-- Settles O27: the answer or the failure of a read goes to its transfer; its end takes the entry, by OWNER and LAP and by the rereads
made. That the wait of a request begins when its chain is whole, and what a completion after four rereads names, are the model's choice
(log entries 91 and 53). -/
theorem entryReadsAct : Obligations.EntryReadsAct := by
  unfold Obligations.EntryReadsAct
  refine fun f r s hgo => ⟨fun x t bytes last obs hxfer => ?_, fun x t hxfer => ?_, fun g b last hring hwants hopen => ?_⟩
  · rw [exec_entryReadDone_of_running hgo, State.entryRead_of_xfer hxfer]
    exact ⟨fun hhost => congrArg (fun u : State => next u.settle) (if_pos hhost),
      fun hmem => congrArg (fun u : State => next u.settle) (if_neg (by simp [hmem]))⟩
  · rw [exec_entryReadFault_of_running hgo, exec_entryReadFault_of_running hgo, State.entryFault_translation hxfer,
      State.entryFault_memory hxfer]
    refine ⟨rfl, fun hissued hmem => ?_, fun helse => ?_⟩
    · rw [if_pos (by simp [hissued, hmem])]
    · rw [if_neg (by rcases helse with h | h <;> simp [h])]
  · refine ⟨State.entryTaken_joins hring hwants hopen, fun hstale hmore hlast => ?_, fun hstale hover => ?_, ?_, ?_, ?_⟩
    · exact (State.entryTaken_stale hring hwants hopen hstale).trans (if_neg (by simp [hlast]; omega))
    · exact (State.entryTaken_stale hring hwants hopen hstale).trans (if_pos hover)
    all_goals simp [State.onXfer, State.entryTaken, hring, hwants, hopen]

end Sys2Proof.Machine

/-! PROOFS. What the answers to transfers, flushes, translations and page requests lead to (R21, R26, R32, R71, R73, R88 to R93, R342 to
R345, R357, R359, R470). -/

namespace Sys2Proof.Machine

/-! ### Answers to transfers (R21, R26, R342 to R345, R359, R470) -/

section

variable {s : State} {x : Nat} {t : Xfer}

/-- Host bytes fill the pieces of a read, mirror entries apart (R26). -/
theorem State.hostReadDone_fills {bytes : Bytes} (hx : tget s.xfers x = some t) (hread : t.write = false) (hissued : t.phase = .issued)
    (hopen : t.pieces.any (fun p => p.host && !p.done) = true) (hplain : ∀ slot page, t.purpose ≠ .mirrorEntry slot page) :
    s.hostReadDone x bytes = (((s.noteSource t).fabSend (.link t.link) (s.engineOf t) .drsp bytes.length).modXfer x
      (fun v => { v with pieces := fillRead v.pieces bytes })).checkXfer x := by
  simp only [State.hostReadDone, hx, hread, hissued, hopen, ne_eq, not_true_eq_false, Bool.not_true, Bool.false_eq_true, or_self, if_false]

/-- The bytes of a mirror entry are judged, and cached where they hold (R91). -/
theorem State.hostReadDone_mirror {bytes : Bytes} {slot page : Nat} (hx : tget s.xfers x = some t) (hread : t.write = false)
    (hissued : t.phase = .issued) (hopen : t.pieces.any (fun p => p.host && !p.done) = true) (hmirror : t.purpose = .mirrorEntry slot page) :
    s.hostReadDone x bytes = (s.fabSend (.link t.link) (s.engineOf t) .drsp bytes.length).mirrorRead x t slot page bytes := by
  simp only [State.hostReadDone, hx, hread, hissued, hopen, hmirror, ne_eq, not_true_eq_false, Bool.not_true, Bool.false_eq_true, or_self,
    if_false]

/-- Module memory is read by the blocks of each piece (R342 to R345). -/
theorem State.memReadDone_reads {obs : List BlockObs} {r : Region} (hx : tget s.xfers x = some t) (hread : t.write = false)
    (hfirst : s.memBehind t = false) (hopen : t.pieces.any (fun p => !p.host && !p.done) = true) (hr : tget s.regions t.region = some r) :
    s.memReadDone x obs =
      let d := (s.fabAnswer t).readPieces r t.pieces obs
      let s0 := if t.purpose.atomic then forEach (t.pieces.filter (fun p => !p.host && !p.done)) d.1 (fun st p => st.recode p.addr p.len obs) else d.1
      let s1 := s0.modXfer x (fun v => { v with pieces := d.2.1 })
      if d.2.2 then s1.endXfer x .memError else s1.checkXfer x := by
  simp only [State.memReadDone, hx, hread, hfirst, hopen, hr, Bool.not_true, Bool.false_eq_true, or_self, if_false]

/-- Module memory is written by the blocks of each piece (R21, R470). -/
theorem State.memWriteDone_writes {obs : List BlockObs} {r : Region} (hx : tget s.xfers x = some t) (hwrite : t.write = true)
    (hfirst : s.memBehind t = false) (hopen : t.pieces.any (fun p => !p.host && !p.done) = true) (hr : tget s.regions t.region = some r) :
    s.memWriteDone x obs =
      let s0 := (s.fabAnswer t).writePieces r t.pieces obs
      let s1 := match t.purpose.writesFor with
        | some n => s.ownWrite s0 n
        | none => s0
      (s1.modXfer x (fun v => { v with pieces := v.pieces.map (fun p => if p.host then p else { p with done := true }) })).checkXfer x := by
  simp only [State.memWriteDone, hx, hwrite, hfirst, hopen, hr, Bool.not_true, Bool.false_eq_true, or_self, if_false] <;> rfl

end

/-- Settles O28: each answer goes to the transfer it names, by whose memory it reads or writes. -/
theorem transferAnswersAct : Obligations.TransferAnswersAct := by
  unfold Obligations.TransferAnswersAct
  intro x t s hruns hx hissued
  refine ⟨fun bytes hread hopen hplain => ?_, fun bytes slot page hread hopen hmirror => ?_, fun obs r hread hfirst hopen hr => ?_,
    fun obs r hwrite hfirst hopen hr => ?_⟩
  · simp only [exec, execDmaReadCompletion, arrival_runs hruns, State.hostReadDone_fills hx hread hissued hopen hplain]
  · simp only [exec, execDmaReadCompletion, arrival_runs hruns, State.hostReadDone_mirror hx hread hissued hopen hmirror]
  · simp only [exec, execMemReadResponse, engine_runs hruns, State.memReadDone_reads hx hread hfirst hopen hr]
  · simp only [exec, execMemWriteResponse, engine_runs hruns]
    exact congrArg (fun u : State => next u.settle) (State.memWriteDone_writes hx hwrite hfirst hopen hr)

/-! ### Flushes (R71, R73) -/

/-- Settles O29: each row is what its flush's end does, by whether the flush is a probe and by the failures before it. -/
theorem flushesAct : Obligations.FlushesAct := by
  unfold Obligations.FlushesAct
  refine fun id fl s hruns hfl => ⟨?_, fun hprobe => ?_, fun hflush hthird => ?_, ?_⟩
  · simp only [exec, execFlushComplete, arrival_runs hruns, State.flushDone, hfl]
  · simp only [exec, execFlushFailed, arrival_runs hruns, State.flushFail, hfl, hprobe, if_true]
  · simp only [exec, execFlushFailed, arrival_runs hruns, State.flushFail, hfl, hflush, Bool.false_eq_true, if_false]
    exact congrArg (fun u : State => next u.settle) (if_pos hthird)
  · simp only [exec, execProbeFlushTimer, engine_runs hruns]

/-! ### Translations and page requests (R32, R88 to R93) -/

section

variable {s : State} {x : Nat} {q : XlateReq}

/-- The machine in which page request `x` has ended, noted for a peer's retry where one was refused (R90). -/
def State.pageFailed (s : State) (x : Nat) (q : XlateReq) : State :=
  let s0 : State := { s with xlates := tdel s.xlates x }
  { s0 with pageFails := if q.peer then s0.pageFails.erase (q.func, q.pasid, q.page) ++ [(q.func, q.pasid, q.page)] else s0.pageFails }

/-- On Success the transfers that wait translate again (R90). -/
theorem State.pageDone_succeeds (hx : tget s.xlates x = some q) (hpaging : q.paging = true) :
    s.pageDone x true false =
      (forEach (s.waitersFor q) { s with xlates := tdel s.xlates x } (fun st y => st.tryXfer y)).retryParked q.link := by
  simp only [State.pageDone, hx, hpaging, Bool.not_true, Bool.false_and, Bool.false_eq_true, if_false, if_true]

/-- Without Success they end in a translation fault; a Response Failure stops the function's page requests (R90). -/
theorem State.pageDone_fails (hx : tget s.xlates x = some q) (hpaging : q.paging = true) (stop : Bool) :
    s.pageDone x false stop =
      (forEach (s.waitersFor q)
        (if stop then (s.pageFailed x q).modFunc q.func (fun f => { f with cfg := { f.cfg with priStopped := true } }) else s.pageFailed x q)
        (fun st y => st.endXfer y .xlateFault)).retryParked q.link := by
  cases hpeer : q.peer <;>
    simp only [State.pageDone, State.pageFailed, hx, hpaging, hpeer, Bool.not_true, Bool.not_false, Bool.and_true, Bool.and_false,
      Bool.false_eq_true, if_false, if_true]

/-- The host's response crosses the fabric and then ends the request (R90, R357). -/
theorem State.pageAnswered_of_paging (hx : tget s.xlates x = some q) (hpaging : q.paging = true) (ok stop : Bool) :
    s.pageAnswered x ok stop = (s.fabSend (.link q.link) (.transport (dieOf q.func)) .crsp 16).pageDone x ok stop := by
  simp only [State.pageAnswered, hx, hpaging, Bool.not_true, Bool.false_eq_true, if_false]

/-- The reads that an invalidation waits for and that do not return are made anew, or end with the region they read (R93). -/
theorem State.abandonReads_of_inval {id : Nat} {v : Inval} (hv : tget s.invals id = some v) :
    s.abandonReads id = forEach v.reads { s with invals := tset s.invals id { v with reads := [] } } (fun st x => match tget st.xfers x with
      | none => st
      | some t =>
        let d := (st.dropXfer x).newId
        let st2 : State := { d.2 with xfers := tset d.2.xfers d.1 { t with phase := .parked, pieces := [] } }
        if v.destroy then st2.endXfer d.1 .gone else st2) := by
  simp only [State.abandonReads, hv] <;> rfl

end

/-- Settles O30: each row is what its translation, page request or invalidation does. The list by which a peer's retry is refused is the
model's choice (log entry 143). -/
theorem translationEventsAct : Obligations.TranslationEventsAct := by
  unfold Obligations.TranslationEventsAct
  refine fun s hruns => ⟨fun x q ans hx hxlate => ?_, fun x q hx hpaging => ?_, fun l f pasid base len hlink hup => ?_,
    fun id v hv => ?_, fun f => rfl, fun f => rfl, fun f => rfl⟩
  · simp only [exec, execAtsTranslationDone, arrival_runs hruns]
  · have answered : ∀ ans, exec (.pageRequestResponse x ans) s = .next ((s.fabSend (.link q.link) (.transport (dieOf q.func)) .crsp 16).pageDone x
        (ans == .success) (ans == .responseFailure)).settle := fun ans => by
      simp only [exec, execPageRequestResponse, arrival_runs hruns, State.pageAnswered_of_paging hx hpaging]
    have hx' : tget (s.fabSend (.link q.link) (.transport (dieOf q.func)) .crsp 16).xlates x = some q := hx
    refine ⟨(answered _).trans ?_, (answered _).trans ?_, (answered _).trans ?_, ?_⟩
    · exact congrArg (fun u : State => next u.settle) (State.pageDone_succeeds hx' hpaging)
    · exact congrArg (fun u : State => next u.settle) (State.pageDone_fails hx' hpaging true)
    · exact congrArg (fun u : State => next u.settle) (State.pageDone_fails hx' hpaging false)
    · simp only [exec, execPageRequestTimeout, engine_runs hruns]
      exact congrArg (fun u : State => next u.settle) (State.pageDone_fails hx hpaging false)
  · simp [exec, execInvalidateRequest, arrival_runs hruns, hlink, hup]
  · simp only [exec, execInvalidateReadTimeout, engine_runs hruns]
    exact congrArg (fun u : State => next u.settle) (State.abandonReads_of_inval hv)

end Sys2Proof.Machine

/-! PROOFS. What sending, the ports' schedulers and a connection's timers do (R138, R142, R168 to R171, R177, R181, R184, R193, R209, R213,
R217, R221, R222, R249, R254, R371). -/

namespace Sys2Proof.Machine

/-! ### Sending (R168 to R171, R209, R213, R225, R240, R249, R254) -/

/-- A connection with nothing to send again has no first packet to send again (R171). -/
theorem Conn.nextResend_eq_none {c : Conn} (h : c.tx.resend = []) : c.nextResend = none := by
  simp [Conn.nextResend, h]

section

variable {s : State} {n : Nat} {c : Conn}

/-- A READY connection in the cache sends its first retransmission (R171, R181). -/
theorem State.packetSend_resends {r : SendRec} (hc : s.conn n = some c) (hready : c.state = .ready) (hcached : c.ctx = .cached)
    (hheld : c.tx.held = []) (hr : c.nextResend = some r) (hsacked : r.sacked = false) :
    s.packetSend n = ((s.rereadAll n).beginWork n).sendAgain n c r := by
  simp [State.packetSend, hc, hready, hcached, hheld, State.sendHeld, hr, hsacked]

/-- With nothing to send again it sends the next new packet of the request at the front of its queue (R168, R171). -/
theorem State.packetSend_sends {r slot : Nat} {rest : List (Nat × Nat)} {j : Job} (hc : s.conn n = some c) (hready : c.state = .ready)
    (hcached : c.ctx = .cached) (hheld : c.tx.held = []) (hresend : c.tx.resend = []) (hcoll : c.tx.coll = [])
    (hqueue : c.tx.queue = (r, slot) :: rest) (hj : ((s.rereadAll n).beginWork n).job c.func r slot = some j)
    (hnext : ((s.rereadAll n).beginWork n).nextReady c.func r c j = true) :
    s.packetSend n = ((s.rereadAll n).beginWork n).sendNew n c r slot j := by
  simp [State.packetSend, hc, hready, hcached, hheld, State.sendHeld, Conn.nextResend_eq_none hresend, hresend, hcoll, hqueue, hj, hnext]

/-- PACKET_SEND lets a connection of a function that may work send (R171, R209). -/
theorem exec_packetSend_of_working (hruns : s.runs = true) (hc : s.conn n = some c) (hopen : s.fenced c.func = false)
    (hawake : (s.func c.func).cfg.d3hot = false) : exec (.packetSend n) s = .next ((s.failUnroutable n true).packetSend n).settle := by
  simp only [exec, execPacketSend, engine_runs hruns, hc, hopen, hawake, Bool.or_self, Bool.false_eq_true, if_false]

end

/-- An idle port starts the frame that its scheduler picks (R213, R225). -/
theorem State.egressStart_idle {s : State} {p : LPort} {k : Nat} {fr : QFrame} {ms : Tbl Nat} {drr : List DrrQ}
    (hruns : (s.dropOversize p).runs = true) (hup : (s.dropOversize p).portUp p = true) (hpaused : ((s.dropOversize p).port p).paused = false)
    (hsending : ((s.dropOversize p).port p).sending = none) (hsuspended : ((s.dropOversize p).port p).suspended = none)
    (hpick : ((s.dropOversize p).pinHeads p (fun _ => true)).pickClass p (fun _ => true) = some (k, fr, ms, drr)) :
    s.egressStart p = ((s.dropOversize p).pinHeads p (fun _ => true)).startFrame p k fr ms drr := by
  simp only [State.runs, Bool.and_eq_true, Bool.not_eq_true'] at hruns
  obtain ⟨hon, hgo⟩ := hruns
  simp only [State.egressStart, hon, hgo, hup, hpaused, hsending, hsuspended, hpick, Bool.not_true, Bool.or_self, Bool.false_eq_true, if_false]

/-- The end of a good frame that is no raw SEND is counted (R254). -/
theorem State.txEnd_counts {s : State} {p : LPort} {q : QFrame} {a b : Nat} (hsending : (s.port p).sending = some (q, a, b))
    (hgood : q.badFcs = false) (hraw : q.raw = none) :
    s.txEnd p = (((s.modPort p (fun v => { v with sending := none })).countPort p 2 1).countPort p 3 q.len).rawFlush := by
  simp only [State.txEnd, hsending, hgood, hraw, Bool.false_eq_true, if_false]

/-- Settles O31: PACKET_SEND by what the connection has to send, the port's rows by what the port holds. -/
theorem sendingEventsAct : Obligations.SendingEventsAct := by
  unfold Obligations.SendingEventsAct
  refine fun s hruns => ⟨fun n c c1 hc hopen hawake hc1 hready hcached hheld => ⟨fun r hr hsacked => ?_,
      fun r slot rest j hresend hcoll hqueue hj hnext => ?_⟩,
    fun p k fr ms drr hgo hup hpaused hsending hsuspended hpick => ?_, fun p q a b hsending hgood hraw => ?_, ?_, fun p g hoper => ?_,
    fun p g hpend => ?_⟩
  · rw [exec_packetSend_of_working hruns hc hopen hawake, State.packetSend_resends hc1 hready hcached hheld hr hsacked]
  · rw [exec_packetSend_of_working hruns hc hopen hawake,
      State.packetSend_sends hc1 hready hcached hheld hresend hcoll hqueue hj hnext]
  · simp only [exec, execEgressFrameStart, engine_runs hruns, State.egressStart_idle hgo hup hpaused hsending hsuspended hpick]
  · simp only [exec, execTxFrameEnd, engine_runs hruns, State.txEnd_counts hsending hgood hraw]
  · simp only [exec, execShaperRefill, engine_runs hruns, State.refillAll]
  · simp only [exec, execGateIntervalEnd, engine_runs hruns, State.gateNext, hoper]
  · simp only [exec, execGateListSwitch, engine_runs hruns, State.gateSwitch, hpend]

/-! ### The timers of a connection (R138, R142, R177, R181, R184, R193, R371) -/

section

variable {s : State} {n : Nat} {c : Conn}

/-- A retransmission timeout at RETRY_LIMIT ends the connection (R181). -/
theorem State.rtoExpiry_limit {r : SendRec} (hc : s.conn n = some c) (hready : c.state = .ready)
    (hr : c.tx.records.find? (fun r => !r.sacked) = some r) (hlimit : r.tries + 1 > (s.ruleOf c r).1.retryLimit) :
    s.rtoExpiry n = s.connError n := by
  simp only [State.rtoExpiry, hc, hready, bne_self_eq_false, Bool.false_eq_true, if_false, hr, hlimit, if_true]

/-- Below it the packet is sent again, its path's window cut and the timeout doubled; its path fails at PATH_FAIL timeouts (R181). -/
theorem State.rtoExpiry_again {r : SendRec} (hc : s.conn n = some c) (hready : c.state = .ready)
    (hr : c.tx.records.find? (fun r => !r.sacked) = some r) (hbelow : r.tries + 1 ≤ (s.ruleOf c r).1.retryLimit) :
    s.rtoExpiry n =
      let x := s.ruleOf c r
      let again := c.tx.backoff.1 = r.psn ∧ c.tx.backoff.2 > 0
      let v := c.pathCc r.path
      let c1 := c.setPath r.path { v with timeouts := v.timeouts + 1, cwnd := if c.native then x.2.cwndMin * 256 else v.cwnd }
      let c2 : Conn := { c1 with
        stats := { c1.stats with timeouts := satAdd max32 c1.stats.timeouts 1 }
        tx := { c1.tx with
          backoff := (r.psn, if again then c.tx.backoff.2 + 1 else 1), rto := min (2 * c.tx.rto) (x.1.rtoMaxMs * 1000000) } }
      let s1 := (({ s with conns := tset s.conns n c2 } : State).lose n [r.psn]).rereadAll n
      if v.timeouts + 1 ≥ x.1.pathFail ∧ c.native = true then s1.pathFail n r.path else s1 := by
  simp only [State.rtoExpiry, hc, hready, bne_self_eq_false, Bool.false_eq_true, if_false, hr, gt_iff_lt, Nat.not_lt.mpr hbelow]

/-- A context that was being fetched is in the cache, and the packets that waited for it are taken (R142). -/
theorem State.contextFetched_of_fetching {obs : BlockObs} (hc : s.conn n = some c) (hfetching : c.ctx = .fetching) :
    s.contextFetched n obs =
      let s1 := s.modConn n (fun v => { v with ctx := .cached, missed := [] })
      let d := s1.decodeBlock (s1.contextBlock n) obs
      let s2 := if d.2.1 then (d.1.fault 4 2 (some c.func) n 0 0).toError n else d.1
      forEach c.missed s2 (fun st (w : LPort × NFrame) => st.rxTransport w.1 w.2 true) := by
  simp only [State.contextFetched, hc, hfetching, bne_self_eq_false, Bool.false_eq_true, if_false]

end

/-- Settles O32: each timer by what the connection it names has outstanding. That a rate is cut by ALPHA without rounding up, and when a
wait began, are the model's choices (log entries 152, 62 and 91). -/
theorem connectionTimersAct : Obligations.ConnectionTimersAct := by
  unfold Obligations.ConnectionTimersAct
  refine fun s n c hruns hc hready => ⟨fun hack => ?_, fun r hr hlimit => ?_, fun r hr hbelow => ?_, fun hnative => ?_, fun hpause => ?_,
    fun p hdraining => ?_, fun hroce hseen => ?_, fun hroce hseen => ?_, fun obs hfetching => ?_, ?_⟩
  · simp [exec, execAckDelayExpiry, engine_runs hruns, State.ackDelay, hc, hready, hack]
  · simp only [exec, execRtoExpiry, engine_runs hruns, State.rtoExpiry_limit hc hready hr hlimit]
  · simp only [exec, execRtoExpiry, engine_runs hruns, State.rtoExpiry_again hc hready hr hbelow]
  · simp only [exec, execProbeIntervalExpiry, engine_runs hruns, State.probePaths, hc, hready, hnative, bne_self_eq_false, Bool.not_true,
      Bool.or_self, Bool.false_eq_true, if_false]
  · simp only [exec, execRnrRetryExpiry, engine_runs hruns, State.rnrRetry, hc, hready, hpause, bne_self_eq_false, Bool.not_true,
      Bool.or_self, Bool.false_eq_true, if_false]
  · simp only [exec, execDrainMaxExpiry, engine_runs hruns, State.drainMax, hc, hdraining, Bool.not_true, Bool.false_eq_true, if_false]
  · simp only [exec, execRpTimerExpiry, engine_runs hruns, hc, hready, hroce, hseen, bne_self_eq_false, Bool.or_self, Bool.false_eq_true,
      if_false, if_true]
  · simp only [exec, execRpTimerExpiry, engine_runs hruns, hc, hready, hroce, hseen, bne_self_eq_false, Bool.or_self, Bool.false_eq_true,
      if_false]
  · simp only [exec, execContextFetchDone, engine_runs hruns, State.contextFetched_of_fetching hc hfetching, hc, hfetching, if_true]
  · simp only [exec, execContextWriteBackDone, engine_runs hruns]

end Sys2Proof.Machine

/-! PROOFS. What happens to links, functions, lanes and ports (R58, R60, R73, R79 to R83, R190, R229 to R233, R374, R375, R382 to R384,
R418, R419, R421). -/

namespace Sys2Proof.Machine

/-! ### Links (R60, R73, R80 to R83, R421) -/

section

variable {s : State} {l : LinkId}

/-- What happens to a link of a module that runs takes effect at once. -/
theorem linkArrival_runs {c : Instr} {g : State → State} (hruns : s.runs = true) : s.linkArrival c g = .next (g s).settle := by
  simp only [State.runs, Bool.and_eq_true, Bool.not_eq_true'] at hruns
  obtain ⟨hon, hgo⟩ := hruns
  simp only [State.linkArrival, State.linksOn, next, hon, hgo, Bool.true_or, Bool.not_true, Bool.false_eq_true, if_false]

/-- DL_Down without LINK_RETAIN is a hot reset (R80). -/
theorem State.linkLost_resets (hup : (s.link l).up = true) (hretain : (s.link l).retain = false) :
    s.linkLost l = (s.modLink l (fun v => { v with up := false, rate := 0, width := 0, l1 := false, l0p := false })).hotReset l := by
  simp only [State.linkLost, hup, hretain, Bool.not_true, Bool.not_false, Bool.false_eq_true, if_false, if_true]

/-- DL_Down with LINK_RETAIN begins a retrain (R80, R81). -/
theorem State.linkLost_retains (hup : (s.link l).up = true) (hretain : (s.link l).retain = true) :
    s.linkLost l =
      ((((s.modLink l (fun v => { v with up := false, rate := 0, width := 0, l1 := false, l0p := false })).loseLink l).modLink l
        (fun v => { v with downAt := some s.time, retrains := v.retrains + 1 })).fault 2 3 none l.val 0 0).signalLink l := by
  simp only [State.linkLost, hup, hretain, Bool.not_true, Bool.false_eq_true, if_false]

/-- DL_Active of a link that was not retraining (R81). -/
theorem State.linkBack_fresh {rate width : Nat} (hdown : (s.link l).up = false) (hfresh : (s.link l).downAt = none) :
    s.linkBack l rate width =
      ((((s.modLink l (fun v => { v with up := true, rate := rate, width := width, downAt := none })).signalLink l).probeLink l).narrowLink l
        rate width) := by
  simp only [State.linkBack, hdown, hfresh, Option.isSome_none, Bool.false_and, Bool.false_eq_true, if_false]

/-- An outage in which configuration space changed was a hot reset (R80). -/
theorem State.linkBack_touched {rate width : Nat} (hretrain : (s.link l).downAt ≠ none) (htouched : (s.link l).cfgTouched = true)
    (hdown : ((s.hotReset l).link l).up = false) (hfresh : ((s.hotReset l).link l).downAt = none) :
    s.linkBack l rate width = (s.hotReset l).linkBack l rate width := by
  have hsome : (s.link l).downAt.isSome = true := Option.isSome_iff_ne_none.mpr hretrain
  rw [State.linkBack_fresh hdown hfresh]
  simp only [State.linkBack, hsome, htouched, Bool.and_self, if_true, hdown, hfresh, Option.isSome_none, Bool.false_eq_true, if_false]

/-- DL_Active after a retrain replays what was recorded and sends lost messages again (R81). -/
theorem State.linkBack_retrained {rate width : Nat} (hdown : (s.link l).up = false) (hretrain : (s.link l).downAt ≠ none)
    (huntouched : (s.link l).cfgTouched = false) :
    s.linkBack l rate width =
      let s1 := (s.modLink l (fun v => { v with up := true, rate := rate, width := width, downAt := none })).signalLink l
      ((forEach ((funcsOfLink l).filter (fun f => (s.func f).state != .disabled)) (s1.replayLink l)
        (fun st f => st.sendAllGroups f)).probeLink l).narrowLink l rate width := by
  have hsome : (s.link l).downAt.isSome = true := Option.isSome_iff_ne_none.mpr hretrain
  simp only [State.linkBack, hdown, hsome, huntouched, Bool.and_false, Bool.false_eq_true, if_false, if_true]

/-- A replay whose flush has completed and whose sources are all read is over (R81). -/
theorem State.replayOver_ends (hreplaying : (s.link l).replaying = true) (hread : s.replayRereads l = false) :
    s.replayOver l =
      ((forEach ((s.flushes.filter (fun (q : Nat × Flush) => q.2.link == l && q.2.replay)).map Prod.fst) s
        (fun st id => st.flushDone id)).settle.modLink l (fun v => { v with replaying := false })).signalLink l := by
  simp only [State.replayOver, hreplaying, hread, Bool.not_true, Bool.or_self, Bool.false_eq_true, if_false]

end

/-- Settles O33: each row by the state of the link it names. That an outage with changed configuration space becomes a hot reset when the
link is back, and the count of retrains, are the model's choices (log entries 132 and 121). -/
theorem linkEventsAct : Obligations.LinkEventsAct := by
  unfold Obligations.LinkEventsAct
  refine fun s l hruns => ⟨fun hup hretain => ?_, fun hup hretain => ?_, fun rate width hdown hfresh => ?_,
    fun rate width hdown hretrain htouched hdown2 hfresh2 => ?_, fun rate width hdown hretrain huntouched => ?_,
    fun hreplaying hread => ?_, fun hretrain => ?_, ?_, fun hup hl1 hflush => ?_, fun hup => ?_⟩
  · simp only [exec, execLinkDown, linkArrival_runs hruns, State.linkLost_resets hup hretain]
  · simp only [exec, execLinkDown, linkArrival_runs hruns, State.linkLost_retains hup hretain]
  · simp only [exec, execLinkUp, linkArrival_runs hruns, State.linkBack_fresh hdown hfresh]
  · simp only [exec, execLinkUp, linkArrival_runs hruns, State.linkBack_touched hretrain htouched hdown2 hfresh2,
      State.linkBack_fresh hdown2 hfresh2]
  · simp only [exec, execLinkUp, linkArrival_runs hruns, State.linkBack_retrained hdown hretrain huntouched]
  · simp only [exec, execReplayDone, arrival_runs hruns, State.replayOver_ends hreplaying hread]
  · simp only [exec, execRetrainWindowExpiry, arrival_runs hruns, Option.isSome_iff_ne_none.mpr hretrain, if_true]
  · simp only [exec, execLinkHotReset, arrival_runs hruns]
    rfl
  · simp only [exec, execL1IdleEntry, engine_runs hruns, hup, hl1, hflush, Bool.not_false, Bool.and_self, if_true]
  · simp only [exec, execL0pNarrow, engine_runs hruns, hup, if_true]

/-! ### Functions (R58, R79, R82, R374, R375, R382 to R384, R419) -/

/-- VF Enable makes the virtual functions inside NumVFs UNPROVISIONED (R375). -/
theorem State.vfsOn_of_allowed {s : State} {l : LinkId} {n : Nat} (hallowed : s.vfsAllowed = true) :
    s.vfsOn l n = forEach ((lrange 1 (min n 63)).map (vfOf l)) ((s.configWrite l).modLink l (fun v => { v with numVfs := min n 63 })) (fun st f =>
      if (st.func f).state == .disabled then st.modFunc f (fun v => { v with state := .unprovisioned }) else st) := by
  simp only [State.vfsOn, hallowed, Bool.not_true, Bool.false_eq_true, if_false]

/-- NumVFs lowered resets and destroys the virtual functions beyond it (R375, R384). -/
theorem State.vfsOff_of_lower {s : State} {l : LinkId} {n : Nat} (hlower : n < (s.link l).numVfs) :
    s.vfsOff l n = forEach ((lrange (n + 1) ((s.link l).numVfs - n)).map (vfOf l)) ((s.configWrite l).modLink l (fun v => { v with numVfs := n }))
      (fun st f => match (st.func f).state with
        | .disabled => st
        | .destroying => st
        | .unprovisioned => (st.silentJob f).destroyFunc f
        | .active => (st.silentJob f).destroyFunc f
        | .fenced => (st.resetWhole f).destroyFunc f
        | .cleaning => (st.resetWhole f).destroyFunc f) := if_neg (by omega)

/-- Settles O34: each row by the state of the function or link it names. -/
theorem functionEventsAct : Obligations.FunctionEventsAct := by
  unfold Obligations.FunctionEventsAct
  refine fun s hruns => ⟨fun f => ?_, fun f => ?_, fun f hfenced => ?_, fun f => ?_, fun l n hallowed => ?_, fun l n hlower => ?_,
    fun f henabled => ?_, fun f hasleep => ?_⟩
  · simp only [exec, execFunctionLevelReset, arrival_runs hruns, State.resetWhole]
  · simp only [exec, execConfigResetDone, arrival_runs hruns]
  · simp only [exec, execAttachMsExpiry, engine_runs hruns, hfenced, beq_self_eq_true, if_true]
  · simp only [exec, execTeardownDone, engine_runs hruns]
  · simp only [exec, execVfEnable, arrival_runs hruns, State.vfsOn_of_allowed hallowed]
  · simp only [exec, execVfDisable, arrival_runs hruns]
    exact congrArg (fun u : State => next u.settle) (State.vfsOff_of_lower hlower)
  · simp only [exec, execD3hotEntry, arrival_runs hruns, beq_eq_false_iff_ne.mpr henabled, Bool.false_eq_true, if_false]
  · simp only [exec, execD0Return, arrival_runs hruns, hasleep, if_true]

/-! ### Lanes and ports (R190, R229 to R233) -/

/-- An event of a powered module's lanes takes effect, stopped or not (R445). -/
theorem laneEvent_powered {s : State} {g : State → State} (hon : s.power.on = true) : s.laneEvent g = .next (g s).settle := by
  simp only [State.laneEvent, next, hon, if_true]

/-- Settles O35: each row by whether the spare may take over the lane it names, or by whether its port is up. -/
theorem laneAndPortEventsAct : Obligations.LaneAndPortEventsAct := by
  unfold Obligations.LaneAndPortEventsAct
  refine fun s hon => ⟨fun ph lane hspare hserves => ?_, fun ph lane hlit hspare => ?_, fun ph lane hlit hnone hswap => ?_, fun ph => ?_,
    fun p hup => ?_, fun p a b hdown => ?_⟩
  · simp only [exec, execLaneSerExceeded, laneEvent_powered hon, State.laneErrors, hspare, hserves, Bool.and_self, if_true]
  · have htakes : ((s.spareReady ph lane.val && (s.physPort ph).laneServes lane.val) || (s.physPort ph).swap.any (fun w => w.1 == lane.val)) = true := by
      simpa using hspare
    simp only [exec, execLaneSignalLoss, laneEvent_powered hon, State.laneLost, hlit, htakes, Bool.false_eq_true, if_false, if_true]
  · have hnot : (s.spareReady ph lane.val && (s.physPort ph).laneServes lane.val) = false := by
      rcases hnone with h | h <;> simp [h]
    simp only [exec, execLaneSignalLoss, laneEvent_powered hon, State.laneLost, hlit, hnot, hswap, Bool.or_self, Bool.false_eq_true, if_false]
  · simp only [exec, execLaneSwapDone, laneEvent_powered hon]
  · simp only [exec, execPortLinkDown, laneEvent_powered hon, State.portLost, hup, if_true]
  · simp only [exec, execPortLinkUp, laneEvent_powered hon, State.portTrained, hdown, Bool.false_eq_true, if_false]

end Sys2Proof.Machine

/-! PROOFS. What the events of runs, gleans, tines, memory upkeep and fault summaries do (R97, R321 to R334, R344, R346, R347, R386 to R389,
R392, R440, R443, R444, R453). -/

namespace Sys2Proof.Machine

/-! ### Runs, gleans and tines (R321 to R334, R386 to R389, R443, R444, R453) -/

/-- A deterministic run that is computed holds its outputs for its schedule's end, unless that is over or the run is late (R330). -/
def Prog.holdsOutputs (p : Prog) (r : Run) (cycles : Nat) : Bool :=
  p.deterministic && !r.scheduleEnded && !(p.deterministic && decide (cycles > p.schedule))

/-- The machine in which a run's operations are done, its outputs gathered, and the run is in phase `ph` (R323, R330). -/
def State.computed (s : State) (n : Nat) (p : Prog) (r : Run) (ops : List TineOp) (outs : List Piece) (added : List Nat) (cycles : Nat)
    (ph : RunPhase) : State :=
  let d := s.tineOps n p r ops
  let s1 := forEach (ops.takeWhile TineOp.goesOn) d.1 (fun st o => st.noteStore o)
  (({ s1 with free := s1.free + 1 } : State).modRun n (fun q => { q with cycles := cycles })).modRun n (fun q => { q with
    outputs := (d.1.endBarriers p).gatherOutputs p outs, added := added, flags := d.1.runFlags p, phase := ph
    cycles := if p.deterministic then max cycles p.schedule else cycles
    late := q.late || (p.deterministic && decide (cycles > p.schedule)) || s.slowed p })

section

variable {s : State} {n : Nat} {p : Prog} {r : Run}

/-- A run one of whose tines fails is aborted (R388, R389). -/
theorem State.finishRun_fails {ops : List TineOp} {outs : List Piece} {added : List Nat} {cycles : Nat} {l : Option Loc} {w : Bool}
    (hgo : s.stop.stopped = false)
    (hp : s.prog n = some p) (hr : p.current = some r) (hphase : r.phase = .computing) (hops : ops.all p.can = true)
    (houts : outs.all p.canMove = true) (hfail : (s.tineOps n p r ops).2 = some (l, w)) :
    s.finishRun n ops outs added cycles =
      let s1 := forEach (ops.takeWhile TineOp.goesOn) (s.tineOps n p r ops).1 (fun st o => st.noteStore o)
      (((({ s1 with free := s1.free + 1 } : State).modRun n (fun q => { q with cycles := cycles })).abortRun n stRunAborted w false).storeFailed
        l) := by
  simp only [State.finishRun, hp, hr, hgo, hphase, hops, houts, hfail, bne_self_eq_false, Bool.not_true, Bool.or_self, Bool.false_eq_true,
    if_false]

/-- A run that is computed waits for its schedule's end where it holds its outputs (R330). -/
theorem State.finishRun_holds {ops : List TineOp} {outs : List Piece} {added : List Nat} {cycles : Nat} (hgo : s.stop.stopped = false)
    (hp : s.prog n = some p) (hr : p.current = some r) (hphase : r.phase = .computing) (hops : ops.all p.can = true)
    (houts : outs.all p.canMove = true) (hdone : (s.tineOps n p r ops).2 = none) (hholds : p.holdsOutputs r cycles = true) :
    s.finishRun n ops outs added cycles = s.computed n p r ops outs added cycles .waiting := by
  rw [Prog.holdsOutputs] at hholds
  simp only [State.finishRun, State.computed, hp, hr, hgo, hphase, hops, houts, hdone, hholds, bne_self_eq_false, Bool.not_true, Bool.or_self,
    Bool.false_eq_true, if_false, if_true]

/-- Otherwise its outputs go (R323, R330). -/
theorem State.finishRun_writes {ops : List TineOp} {outs : List Piece} {added : List Nat} {cycles : Nat} (hgo : s.stop.stopped = false)
    (hp : s.prog n = some p) (hr : p.current = some r) (hphase : r.phase = .computing) (hops : ops.all p.can = true)
    (houts : outs.all p.canMove = true) (hdone : (s.tineOps n p r ops).2 = none) (hholds : p.holdsOutputs r cycles = false) :
    s.finishRun n ops outs added cycles = (s.computed n p r ops outs added cycles .computing).writeOutputs n := by
  rw [Prog.holdsOutputs] at hholds
  simp only [State.finishRun, State.computed, hp, hr, hgo, hphase, hops, houts, hdone, hholds, bne_self_eq_false, Bool.not_true, Bool.or_self,
    Bool.false_eq_true, if_false]

/-- A glean step that its program awaits is copied to its region, where that takes it (R444). -/
theorem State.gleanReached_writes {step : Nat} {data : Bytes} (hgo : s.stop.stopped = false) (hp : s.prog n = some p)
    (hr : p.current = some r) (hphase : r.phase = .computing) (harmed : p.glean.state = 1) (hrun : p.glean.run = r.num)
    (hstep : p.glean.step = step)
    (hok : ((s.modRun n (fun q => { q with phase := .gleaning })).accessOk p.func p.glean.key accLocalWrite p.glean.offset p.glean.bytes).isSome = true) :
    s.gleanReached n step data =
      (s.modRun n (fun q => { q with phase := .gleaning })).startWrite p.func p.glean.key p.glean.offset (fit p.glean.bytes data) (.glean n) := by
  simp only [State.gleanReached, hp, hr, hgo, hphase, harmed, hrun, hstep, hok, bne_self_eq_false, Bool.or_self, Bool.false_eq_true, if_false,
    if_true]

end

/-- Settles O36: each row by its program's run, or by its furrow's or tine's state. That WARM_HOLD counts in ns, what a wait begins with,
the cores a load takes and the runs a stop makes late are the model's choices (log entries 32, 91, 99, 103 and 160). -/
theorem runAndTineEventsAct : Obligations.RunAndTineEventsAct := by
  unfold Obligations.RunAndTineEventsAct
  intro s hruns
  have hboth := hruns
  simp only [State.runs, Bool.and_eq_true, Bool.not_eq_true'] at hboth
  obtain ⟨hon, hgo⟩ := hboth
  refine ⟨fun n feed p hp hready hloading hunloading hidle hdue hfeed => ?_, fun n p r hp hr hdet hended hwaiting => ?_,
    fun n ops outs added cycles p r hp hr hphase hops houts => ⟨fun l w hfail => ?_, fun hdone hwrites => ?_, fun hdone hdet hended hintime => ?_⟩,
    fun n step data p r hp hr hphase harmed hrun hstep hok => ?_, fun n p r hp hr hphase hfirst hstore => ?_, fun fur hcool => ?_,
    fun fur core tine hdrawn => ?_, fun fur core tine hdrawn herrors => ?_, fun f n b hlong hcurrent => ?_,
    fun n p r hp hr hunjudged hreserving hverdict => ?_⟩
  · simp only [exec, execRunStart, engine_runs hruns, State.startRun, hp, hon, hgo, hready, hloading, hunloading, hidle, hdue, hfeed,
      bne_self_eq_false, Bool.not_true, Option.isSome_none, Bool.or_self, Bool.false_eq_true, if_false]
  · simp only [exec, execRunScheduleEnd, engine_runs hruns, State.scheduleEnd, hp, hr, hgo, hdet, hended, hwaiting, Bool.not_true, Bool.or_self,
      Bool.false_eq_true, if_false, if_true]
  · simp only [exec, execRunEnd, engine_runs hruns, State.finishRun_fails hgo hp hr hphase hops houts hfail]
  · have hholds : p.holdsOutputs r cycles = false := by
      rcases hwrites with hdet | hended | hover
      · simp [Prog.holdsOutputs, hdet]
      · simp [Prog.holdsOutputs, hended]
      · cases hdet : p.deterministic <;> simp [Prog.holdsOutputs, hdet, hover]
    simp only [exec, execRunEnd, engine_runs hruns, State.finishRun_writes hgo hp hr hphase hops houts hdone hholds, State.computed]
  · have hholds : p.holdsOutputs r cycles = true := by simp [Prog.holdsOutputs, hdet, hended, hintime]
    simp only [exec, execRunEnd, engine_runs hruns, State.finishRun_holds hgo hp hr hphase hops houts hdone hholds, State.computed]
  · simp only [exec, execGleanStepReached, engine_runs hruns, State.gleanReached_writes hgo hp hr hphase harmed hrun hstep hok]
  · simp only [exec, execRampGranted, engine_runs hruns, State.rampGranted, hp, hr, hphase, hfirst, hstore, and_self, if_true]
  · simp only [exec, execWarmHoldExpiry, engine_runs hruns, State.warmExpiry, hcool, Bool.not_true, Bool.false_eq_true, if_false]
  · simp only [exec, execTineFault, engine_runs hruns, State.tineFault, hdrawn, Bool.true_or, if_true]
  · simp only [exec, execTineThresholdDraw, engine_runs hruns, State.thresholdDraw, hdrawn, Nat.not_lt.mpr herrors, Bool.false_eq_true, if_false]
  · simp only [exec, execUnloadRunTimeout, engine_runs hruns, State.unloadTimeout, hlong, hcurrent, if_true]
  · simp only [exec, execDrillFrameVerdict, engine_runs hruns, State.frameVerdict, hp, hr, hunjudged, beq_eq_false_iff_ne.mpr hreserving,
      ne_eq, hverdict, not_false_eq_true, Bool.not_true, Bool.or_self, Bool.false_eq_true, if_false, if_true]

/-! ### Memory upkeep and fault summaries (R97, R344, R346, R347, R392, R440) -/

/-- Settles O37: each row is what its event does; a function's first summary is never too early. -/
theorem upkeepEventsAct : Obligations.UpkeepEventsAct := by
  unfold Obligations.UpkeepEventsAct
  refine fun s => ⟨fun tilth obs hruns hworks => ?_, fun stack hruns => ?_, fun f hruns => ?_, fun f hserving henabled hfaults hfirst => ?_⟩
  · simp only [exec, execPatrolScrub, engine_runs hruns, State.patrol, hworks, Bool.false_eq_true, if_false]
  · simp only [exec, execRehashDone, engine_runs hruns]
  · simp only [exec, execHotIntervalEnd, engine_runs hruns, State.hotEnd]
  · simp only [exec, execFaultSummaryPost, next, State.summarise, hserving, beq_eq_false_iff_ne.mpr henabled,
      List.isEmpty_eq_false_iff.mpr hfaults, hfirst, Bool.not_true, Bool.or_self, Bool.false_eq_true, if_false]

end Sys2Proof.Machine

/-! PROOFS. What firmware restarts, the global stop's pins, power, time inputs and the management bus do (R57, R399 to R406, R412 to R414,
R439, R445 to R462). -/

namespace Sys2Proof.Machine

/-! ### Firmware and the global stop (R57, R412, R414, R445 to R447) -/

/-- The end of a restart that is under way (R57, R414). -/
theorem State.restartDone_of_restart {s : State} {cause start image : Nat} (hrestart : s.restart = some (cause, start, image)) :
    s.restartDone =
      let s1 : State := { s with
        fw := if s.safeHeld then .safeMode else .running, restartGen := s.restartGen + 1, image := image, restart := none }
      let s2 := forEach allFuncs s1 (fun st f => st.restartAnswer f)
      forEach s2.liveFuncs s2 (fun st f => st.post f 0x0003 0 (s2.restartRecord cause start)) := by
  simp only [State.restartDone, hrestart]

/-- Settles O38: each row by its event's effect where the module is powered. That a module held in safe mode restarts into it is the
model's choice (log entry 108). -/
theorem firmwareAndStopEventsAct : Obligations.FirmwareAndStopEventsAct := by
  unfold Obligations.FirmwareAndStopEventsAct
  refine fun s hon => ⟨fun hserving => ?_, fun hserving => ?_, fun cause start image hrestart => ?_, fun hserved => ?_,
    fun hstopped hpin => ?_, ?_⟩
  · simp only [exec, execFwWatchdogExpiry, next, hon, hserving, Bool.and_self, if_true]
  · simp only [exec, execFwFault, next, hon, hserving, Bool.and_self, if_true]
  · simp only [exec, execFwRestartDone, next, hon, if_true, State.restartDone_of_restart hrestart]
  · simp only [exec, execFreezeAssert, next, hserved, if_true]
  · simp only [exec, execFreezeRelease, next, hstopped, hpin, Bool.and_self, if_true]
  · simp only [exec, execStopRefLatch, next, hon, if_true]

/-! ### Power (R399 to R406, R412, R413, R450 to R458) -/

section

variable {s : State}

/-- A module reset of a powered module that neither flushes nor waits starts it anew (R412, R413). -/
theorem State.moduleReset_of_good {boots : List BootReport} (hgood : s.power.good = true) (hflush : s.power.flushing = false)
    (hlatch : s.power.latched = false) : s.moduleReset boots = (s.cold true).boot boots := by
  simp only [State.moduleReset, hgood, hflush, hlatch, Bool.not_true, Bool.or_self, Bool.false_eq_true, if_false]

/-- A shutdown records every cause present (R458). -/
theorem State.shutdown_of_input {cause : Nat} (hinput : s.power.input = true) (hflush : s.power.flushing = false)
    (hlatch : s.power.latched = false) :
    s.shutdown cause = s.powerDown (cause ||| (if tempsShut s.power.temps then 2 else 0) ||| (if s.overLong then 8 else 0)) true := by
  simp only [State.shutdown, hinput, hflush, hlatch, Bool.not_true, Bool.or_self, Bool.false_eq_true, if_false]

end

/-- Settles O39: each row by the pins and latches it asks for. That the thresholds of stacks and optics have no hysteresis is the model's
choice (log entry 128). -/
theorem powerEventsAct : Obligations.PowerEventsAct := by
  unfold Obligations.PowerEventsAct
  refine fun s => ⟨fun boots hgood hflush hlatch => ?_, fun boots hgood hflush hlatch => ⟨fun hdue => ?_, ?_⟩,
    fun hgood hlatch hflush => ?_, fun hflush => ?_, fun mj hon => ?_, fun r hon => ?_, fun t hon hcool => ?_,
    fun ma hinput hflush hlatch hover => ?_, fun mv hinput => ?_⟩
  · simp only [exec, execPowerOn, next, State.powerOn, hgood, hflush, hlatch, Bool.or_self, Bool.false_eq_true, if_false]
  · simp only [exec, execModuleResetStart, next, Option.isSome_iff_ne_none.mpr hdue, if_true, State.moduleReset_of_good hgood hflush hlatch]
  · simp only [exec, execMrstAssert, next, State.moduleReset_of_good hgood hflush hlatch]
  · simp only [exec, execPowerLoss, next, State.powerLost, hgood, hlatch, hflush, Bool.not_false, Bool.and_self, if_true]
  · simp only [exec, execPowerLossFlushDone, next, hflush, if_true]
  · simp only [exec, execHoldupMeasure, next, hon, if_true]
  · simp only [exec, execPowerSample, next, hon, if_true]
  · simp only [exec, execThermalSample, next, hon, if_true, State.thermalSample, hcool, Bool.false_eq_true, if_false] <;> rfl
  · simp only [exec, execOvercurrent, next, hover, true_or, if_true, State.shutdown_of_input hinput hflush hlatch]
  · simp only [exec, execInputInsertion, next, hinput, Bool.false_eq_true, if_false]

/-! ### Time inputs and the management bus (R459 to R462) -/

/-- An interval that has passed, where one began, is not still running. -/
theorem not_early {now gap : Nat} {last : Option Nat} :
    (∀ t, last = some t → now - t ≥ gap) → (match last with
      | some t => decide (now - t < gap)
      | none => false) = false := by
  cases last with
  | none => exact fun _ => rfl
  | some t => exact fun h => decide_eq_false (Nat.not_lt.mpr (h t rfl))

/-- A read of the management bus is answered with the input present and no flush (R462). -/
theorem State.smbusAnswer_of_input {s : State} {data : Bytes} (hinput : s.power.input = true) (hflush : s.power.flushing = false) :
    s.smbusAnswer data = s.emit (.smbus data) := by
  simp only [State.smbusAnswer, hinput, hflush, Bool.not_false, Bool.and_self, if_true]

/-- Settles O40: the time inputs where the module is powered and not too early, the bus's commands by the answer to a read. -/
theorem timeAndManagementBusEventsAct : Obligations.TimeAndManagementBusEventsAct := by
  unfold Obligations.TimeAndManagementBusEventsAct
  refine fun s => ⟨fun hon => ⟨fun hgap => ?_, fun hgap => ?_, ?_, ?_⟩, fun hinput hflush => ?_⟩
  · simp only [exec, execPpsInEdge, next, hon, Bool.not_true, Bool.false_or]
    exact congrArg next (if_neg (Bool.eq_false_iff.mp (not_early hgap)))
  · simp only [exec, execPpsOutSecond, next, hon, Bool.not_true, Bool.false_or]
    exact congrArg next (if_neg (Bool.eq_false_iff.mp (not_early hgap)))
  · simp only [exec, execRefLock, next, hon, if_true]
  · simp only [exec, execRefLost, next, hon, if_true]
  · have answers : ∀ data, next (s.smbusAnswer data) = .next (s.emit (.smbus data)) :=
      fun data => congrArg next (State.smbusAnswer_of_input hinput hflush)
    refine ⟨answers _, answers _, fun r hr => ?_, answers _, answers _, answers _, answers _, answers _, answers _, fun code data => rfl⟩
    simp only [exec, execSmbusBoot, next, State.smbusBootBytes, hr, State.smbusAnswer_of_input hinput hflush]

end Sys2Proof.Machine

/-! PROOFS. What reports, native packets and RoCE v2 packets that reach their connection do (R151, R172, R174, R175, R182 to R185, R193,
R196, R198, R211, R212, R280, R419). -/

namespace Sys2Proof.Machine

/-! ### Acknowledgements, NAKs and probes (R172, R175, R182 to R185, R193) -/

section

variable {s s2 : State} {p : LPort} {fr : NFrame} {m : Bool} {n : Nat} {c : Conn} {ty : Byte}

/-- A report that reaches its READY connection is taken by its type, whoever its function is (R174). -/
theorem rxRow_control (i : Instr) (hhands : s.HandsOn p fr s2 m) (hreaches : s2.Reaches fr n c) (htype : fr.type = ty)
    (hcontrol : isControl ty = true) :
    s.rxRow p fr ty i = .next ((s2.touchConn n).control n c (fr.marked m)).settle := by
  rw [rxRow_reaches hhands hreaches htype, live_ready hreaches, htype, hcontrol, if_pos rfl]

end

/-- Settles O41: each row is the control packet of its type, on the connection the frame reaches. -/
theorem reportsAct : Obligations.ReportsAct := by
  unfold Obligations.ReportsAct
  intro s s2 p fr m n c hhands hreaches
  refine ⟨fun htype => ?_, fun htype => ?_, fun htype => ?_, fun htype => ?_, fun htype => ?_, fun htype => ?_, fun htype => ?_⟩
  · simp only [exec, execRxAck, rxRow_control _ hhands hreaches htype rfl]
    simp [State.control, marked_type, htype]
  · simp only [exec, execRxNakRnr, rxRow_control _ hhands hreaches htype rfl]
    simp [State.control, marked_type, htype]
  · simp only [exec, execRxNakAccess, rxRow_control _ hhands hreaches htype rfl]
    simp [State.control, marked_type, htype]
  · simp only [exec, execRxNakSeq, rxRow_control _ hhands hreaches htype rfl]
    simp [State.control, marked_type, htype]
  · simp only [exec, execRxNakClosed, rxRow_control _ hhands hreaches htype rfl]
    simp [State.control, marked_type, htype]
  · simp only [exec, execRxProbe, rxRow_control _ hhands hreaches htype rfl]
    simp [State.control, marked_type, htype]
  · simp only [exec, execRxProbeReply, rxRow_control _ hhands hreaches htype rfl]
    simp [State.control, marked_type, htype]

/-! ### Data, requests, responses and collective packets (R151, R174, R183, R198, R280) -/

/-- The policers change nothing of a frame's length and sequence number. -/
theorem marked_fields (fr : NFrame) (m : Bool) : (fr.marked m).l2 = fr.l2 ∧ (fr.marked m).psn = fr.psn := by cases m <;> exact ⟨rfl, rfl⟩

section

variable {s s2 : State} {p : LPort} {fr f1 : NFrame} {m nx : Bool} {n : Nat} {c v : Conn} {ty : Byte}

/-- The machine in which a frame opened with its connection's key has been noted (R198). -/
def State.opened (s : State) (n : Nat) (f : NFrame) (nx : Bool) : State := ((s.touchConn n).noteKeyPhase n f nx).dropOldRx n

/-- A packet that its connection's key opens goes to the request that awaits it, or through the sequence check (R174). -/
theorem rxRow_opened (i : Instr) (hhands : s.HandsOn p fr s2 m) (hreaches : s2.Reaches fr n c) (hopen : s2.fenced c.func = false)
    (hawake : (s2.func c.func).cfg.d3hot = false) (hedge : fr.type.toNat ≥ 0x40 → c.edge.isSome = true)
    (hkey : s2.openFrame c (fr.marked m) = (f1, true, nx)) (hv : (s2.opened n (fr.marked m) nx).conn n = some v) (htype : fr.type = ty)
    (hpacket : isControl ty = false) :
    s.rxRow p fr ty i = .next (
      let st := s2.opened n (fr.marked m) nx
      let cls := (s2.port p).classOf (fr.marked m).ip.dscp.toNat
      if ty = 0x05 ∨ ty = 0x07 then st.response n v p cls fr.l2.length fr.psn.toNat (ty == 0x07) f1.payload
      else st.sequence n v p cls f1 true).settle := by
  obtain ⟨hl2, hpsn⟩ := marked_fields fr m
  have hnoEdge : ¬ (fr.type.toNat ≥ 0x40 ∧ c.edge.isNone) := fun ⟨hcoll, hnone⟩ => by
    have := hedge hcoll
    simp_all
  rw [State.opened] at hv
  rw [rxRow_reaches hhands hreaches htype, live_ready hreaches]
  simp only [htype] at hnoEdge ⊢
  simp only [State.opened, hpacket, hopen, hawake, hnoEdge, hkey, hv, hl2, hpsn, Bool.not_true, Bool.false_and, Bool.false_eq_true, or_self,
    if_false, if_true]

end

/-- Settles O42: each row is what its type's packet does once the connection's key has opened it. -/
theorem nativePacketsAct : Obligations.NativePacketsAct := by
  unfold Obligations.NativePacketsAct
  intro s s2 p fr f1 m nx n c v hhands hreaches hopen hawake hedge hkey hv
  have row : ∀ (ty : Byte) (i : Instr), fr.type = ty → isControl ty = false → s.rxRow p fr ty i = _ :=
    fun ty i => rxRow_opened i hhands hreaches hopen hawake hedge hkey hv
  exact ⟨fun ht => row 0x01 (.rxWrite p fr) ht rfl, fun ht => row 0x02 (.rxWriteFlag p fr) ht rfl, fun ht => row 0x03 (.rxSend p fr) ht rfl,
    fun ht => row 0x04 (.rxReadReq p fr) ht rfl, fun ht => row 0x06 (.rxAtomicReq p fr) ht rfl, fun ht => row 0x40 (.rxCollUp p fr) ht rfl,
    fun ht => row 0x41 (.rxCollDown p fr) ht rfl, fun ht => row 0x42 (.rxCollReport p fr) ht rfl, fun ht => row 0x43 (.rxCollSeal p fr) ht rfl,
    fun ht => row 0x44 (.rxCollRepair p fr) ht rfl, fun ht => row 0x45 (.rxCollGrant p fr) ht rfl, fun ht => row 0x05 (.rxReadResp p fr) ht rfl,
    fun ht => row 0x07 (.rxAtomicResp p fr) ht rfl⟩

/-! ### RoCE v2 (R184, R196, R211, R212, R419) -/

section

variable {s s2 : State} {p : LPort} {fr f1 : RFrame} {n : Nat} {c : Conn}

/-- The policers change of a packet its congestion mark alone. -/
theorem State.HandsOnRoce.fields (h : s.HandsOnRoce p fr f1 s2) :
    f1.dqp = fr.dqp ∧ f1.op = fr.op ∧ f1.pkey = fr.pkey ∧ f1.psn = fr.psn ∧ f1.ip.src = fr.ip.src ∧ f1.ip.dscp = fr.ip.dscp := by
  obtain ⟨-, -, -, -, -, s1, s3, m, -, -, -, rfl⟩ := h
  cases m <;> exact ⟨rfl, rfl, rfl, rfl, rfl, rfl⟩

/-- A packet that is handed on is acted on, judged good (R196, R218). -/
theorem State.HandsOnRoce.rxRoce (h : s.HandsOnRoce p fr f1 s2) (act : State → RFrame → Bool → State) : s.rxRoce p fr act = act s2 f1 true := by
  obtain ⟨-, hup, haddressed, htags, hlength, s1, s3, m, hlink, hpolice, rfl, rfl⟩ := h
  have hwire : (fr.l2.length == fr.wireLen) = true := beq_iff_eq.mpr hlength
  simp only [State.ipClass] at hlink
  simp only [State.rxRoce, hup, htags, haddressed, hlink, hpolice, hwire, Bool.and_self, Bool.not_true, Bool.or_self,
    Bool.false_eq_true, if_false]

/-- A packet row at a module that runs acts on what is handed on. -/
theorem exec_rxRocePacket_of_handsOn (h : s.HandsOnRoce p fr f1 s2) (hop : fr.op ≠ .cnp) :
    exec (.rxRocePacket p fr) s = .next (s2.roceTransport p f1 true).settle := by
  simp only [exec, execRxRocePacket, beq_eq_false_iff_ne.mpr hop, frameArrival_runs h.1, h.rxRoce, Bool.false_eq_true, if_false]

/-- A packet of an RC queue pair whose context is in the cache reaches it (R196). -/
theorem State.roceTransport_reaches (hn : f1.dqp.toNat = n) (hc : s.conn n = some c) (hmode : c.mode = .roce) (hctx : c.ctx = .cached) :
    s.roceTransport p f1 true = s.roceLive n c p ((s.port p).classOf f1.ip.dscp.toNat) f1 true := by
  simp only [State.roceTransport, hn, hc, hmode, hctx, bne_self_eq_false, Bool.false_eq_true, if_false, reduceCtorEq]

/-- A good packet of its peer to a READY queue pair is sequenced, or taken as a reply, by its function's state (R184, R196, R211). -/
theorem State.roceLive_ready {cls : Nat} (hready : c.state = .ready) (hkey : f1.pkey = c.pkey) (hsrc : c.sourceOk f1.ip.src = true) :
    s.roceLive n c p cls f1 true =
      if s.fenced c.func = true ∨ (s.func c.func).cfg.d3hot = true then
        let st := if f1.ip.ecn = 3 then s.sendCnp n else s
        if roceRequest f1.op then st.nakRnr n 4 f1.psn.toNat (roceEcho f1.psn.toNat) else (st.touchConn n).roceReply n c p cls f1
      else
        let st := if f1.ip.ecn = 3 then (s.touchConn n).sendCnp n else s.touchConn n
        if roceRequest f1.op then st.roceSequence n c p cls f1 else st.roceReply n c p cls f1 := by
  simp [State.roceLive, hready, hkey, hsrc]

end

/-- Settles O43: a packet by whether its function may work and whether it is a request, a CNP by what it does to the rate. That G_SHIFT
gives R212 its g is the model's choice (log entry 152). -/
theorem rocePacketsAct : Obligations.RocePacketsAct := by
  unfold Obligations.RocePacketsAct
  intro s s2 p fr f1 c hhands hc hmode hctx hready hkey hsrc
  obtain ⟨hdqp, hop, hpkey, hpsn, hip, hdscp⟩ := hhands.fields
  have hlive : fr.op ≠ .cnp → exec (.rxRocePacket p fr) s =
      .next (s2.roceLive fr.dqp.toNat c p ((s2.port p).classOf fr.ip.dscp.toNat) f1 true).settle := fun hdata => by
    rw [exec_rxRocePacket_of_handsOn hhands hdata, State.roceTransport_reaches (by rw [hdqp]) hc hmode hctx, hdscp]
  rw [State.roceLive_ready hready (by rw [hpkey, hkey]) (by rw [hip, hsrc]), hop, hpsn] at hlive
  refine ⟨fun hdata hopen hawake => ?_, fun hdata hbarred => ?_, fun hcnp => ?_⟩
  · rw [if_neg (by simp [hopen, hawake])] at hlive
    exact ⟨fun hreq => by rw [hlive hdata, if_pos hreq], fun hrep => by rw [hlive hdata, if_neg (by simp [hrep])]⟩
  · rw [if_pos hbarred] at hlive
    exact ⟨fun hreq => by rw [hlive hdata, if_pos hreq], fun hrep => by rw [hlive hdata, if_neg (by simp [hrep])]⟩
  · have hsrc1 : c.sourceOk f1.ip.src = true := by rw [hip, hsrc]
    simp only [exec, execRxCnp, hcnp, bne_self_eq_false, Bool.false_eq_true, if_false, frameArrival_runs hhands.1, hhands.rxRoce, hdqp, hc,
      hmode, hsrc1, hready, Bool.not_true, Bool.or_self, State.onCnp]

end Sys2Proof.Machine

/-! PROOFS. What a port does with frames of its own, with frames for other nodes, and with pauses and preemption (R28, R218, R235, R238,
R239, R242 to R244, R247, R248, R328, R364 to R368, R445). -/

namespace Sys2Proof.Machine

/-! ### Frames a port disposes of (R235, R238, R244, R247, R248, R328) -/

section

variable {s s1 : State} {p : LPort} {fr w f : EFrame}

/-- What tags a port knows changes nothing of a frame's length and of its codewords' errors (R244). -/
theorem PortSt.sees_fields (v : PortSt) (fr : EFrame) :
    (v.sees fr).l2.length = fr.l2.length ∧ (v.sees fr).l2.corrected = fr.l2.corrected ∧
      (v.sees fr).l2.uncorrectable = fr.l2.uncorrectable := by
  unfold PortSt.sees
  split
  · split
    · exact ⟨rfl, rfl, rfl⟩
    · split
      · split
        · exact ⟨rfl, rfl, rfl⟩
        · split <;> exact ⟨rfl, rfl, rfl⟩
      · exact ⟨rfl, rfl, rfl⟩
  · exact ⟨rfl, rfl, rfl⟩

/-- A runt on a port that is up is counted and goes no further (R235). -/
theorem State.rxOther_runt (hup : s.portUp p = true) (hrunt : w.l2.length ≤ 63) :
    s.rxOther p w =
      (((((s.countPort p 0 1).countPort p 1 w.l2.length).countPort p 10 w.l2.corrected).countPort p 11 w.l2.uncorrectable).countPort p 5 1,
        none) := by
  simp only [State.rxOther, State.rxLink, hup, hrunt, Bool.not_true, Bool.false_eq_true, if_false, if_true]

/-- A runt is discarded where it was counted (R235). -/
theorem State.rxDiscard_runt (hup : s.portUp p = true) (hrunt : w.l2.length ≤ 63) :
    s.rxDiscard p w =
      (((((s.countPort p 0 1).countPort p 1 w.l2.length).countPort p 10 w.l2.corrected).countPort p 11 w.l2.uncorrectable).countPort p 5 1) := by
  simp only [State.rxDiscard, State.rxOther_runt hup hrunt]

/-- A good frame whose destination address is another's is dropped and counted (R238). -/
theorem State.rxDiscard_daDrop (hgood : s.rxOther p w = (s1, some (true, f))) (hdest : s.dispatch p w = .daDrop) :
    s.rxDiscard p w = s1.countPort p 12 1 := by
  simp only [State.rxDiscard, hgood, hdest]

/-- A good frame that nothing takes is dropped and counted (R238). -/
theorem State.rxDiscard_noMatch (hgood : s.rxOther p w = (s1, some (true, f))) (hdest : s.dispatch p w = .noMatch) :
    s.rxDiscard p w = s1.countPort p 13 1 := by
  simp only [State.rxDiscard, hgood, hdest]

/-- A good frame is placed in the oldest RECV of its raw queue, where that and the die's staging take it (R180, R247, R248). -/
theorem State.rxRaw_places {cls q k r : Nat} {g : Bool} {rq : RawQueue} {v : Ring} {j : Job} (hqueue : tget (s.port p).rawqs q = some rq)
    (hrecv : rq.recv = some r) (hring : s.ring rq.func r = some v)
    (hposted : v.jobs.find? (fun j => j.phase == .posted && entOp j.ent == 0x13) = some j)
    (hfits : (s.rawBytes p f k g).length ≤ netLen j.ent) (hopen : s.fenced rq.func = false)
    (hroom : s.rawRoom (dieOf rq.func) (s.rawBytes p f k g).length = true)
    (haccess : ((s.modJob rq.func r j.slot (fun w => { w with phase := .writing })).accessOk rq.func (netKey j.ent) accLocalWrite
      (netOff j.ent) (s.rawBytes p f k g).length).isSome = true) :
    s.rxRaw p cls f q k g =
      ((((s.modJob rq.func r j.slot (fun w => { w with phase := .writing })).rxKeep p (.raw rq.func r j.slot) cls f.l2.length).rxCross p
        (dieOf rq.func) f.l2.length).startWrite rq.func (netKey j.ent) (netOff j.ent) (s.rawBytes p f k g) (.rawRecv rq.func r j.slot)) := by
  have hnot : (decide ((s.rawBytes p f k g).length > netLen j.ent) || s.fenced rq.func || !s.rawRoom (dieOf rq.func) (s.rawBytes p f k g).length) = false := by
    simp [hfits, hopen, hroom]
  simp only [State.rxRaw, hqueue, hrecv, hring, hposted, hnot, haccess, Bool.false_eq_true, if_false, if_true]

/-- A frame for a program that is loaded waits for its next run, where the binding's span and its buffers take it (R322, R328). -/
theorem State.rxDrill_waits {cls n : Nat} {q : Prog} {b : Binding} (hq : s.prog n = some q) (hb : q.inputOn p = some b)
    (hloading : q.loading = false) (hunloading : q.unloading = false) (hspan : bits b.b 15 0 + bits b.b 31 16 ≤ f.bytes.length + 4)
    (hroom : q.frames.countP (fun e => e.1 == b.index) <
      bits b.b 39 32 + b2n (q.startKind == 2 && b.index == q.startInput && q.current.isNone && q.state == .ready)) :
    s.rxDrill p cls f n =
      ((s.rxKeep p (.drill n b.index) cls f.l2.length).fabSend (.portMac (physOf p)) (.furrow (q.furrows.headD 0)) .dreq
        f.l2.length).modProg n (fun v => { v with
          frames := v.frames ++ [(b.index, f)]
          waitSince := if (q.startKind == 2 && b.index == q.startInput) && v.current.isNone && (v.frameOf b.index).isNone then s.time
            else v.waitSince }) := by
  simp only [State.rxDrill, hq, hb, hloading, hunloading, Nat.not_lt.mpr hspan, ge_iff_le, Nat.not_le.mpr hroom, Bool.or_self,
    Bool.false_eq_true, if_false]

end

/-- Settles O44: each row by the frame's destination, and by what is there to take it. That a runt counts in RX_FRAMES and RX_BYTES, and
when a program's wait begins, are the model's choices (log entries 83 and 91). -/
theorem portFramesAct : Obligations.PortFramesAct := by
  unfold Obligations.PortFramesAct
  refine fun s s1 p fr f hruns => ⟨fun hup hrunt => ?_, fun hgood hdest => ?_, fun hgood hdest => ?_,
    fun q k g rq r v j hgood hdest hqueue hrecv hring hposted hfits hopen hroom haccess => ?_,
    fun n good q b hjudged hdest hq hb hloading hunloading hspan hroom => ?_⟩
  · obtain ⟨hlength, hcorrected, huncorrectable⟩ := PortSt.sees_fields (s.port p) fr
    simp only [exec, execRxFrameDiscard, frameArrival_runs hruns, State.rxDiscard_runt hup (hlength ▸ hrunt), hlength, hcorrected,
      huncorrectable]
  · simp only [exec, execRxFrameDiscard, frameArrival_runs hruns, State.rxDiscard_daDrop hgood hdest]
  · simp only [exec, execRxFrameDiscard, frameArrival_runs hruns, State.rxDiscard_noMatch hgood hdest]
  · simp only [exec, execRxRawFrame, frameArrival_runs hruns, hgood, hdest,
      State.rxRaw_places hqueue hrecv hring hposted hfits hopen hroom haccess]
  · simp only [exec, execRxDrillFrame, frameArrival_runs hruns, hjudged, hdest, State.rxDrill_waits hq hb hloading hunloading hspan hroom]

/-! ### The relay (R28, R364 to R368) -/

section

variable {s s1 s2 s3 : State} {p q : LPort} {fr : NFrame} {m : Bool}

/-- The policers change nothing of what the relay reads of a frame but its congestion mark. -/
theorem marked_relayed (fr : NFrame) (m : Bool) :
    (fr.marked m).node = fr.node ∧ (fr.marked m).dstConn = fr.dstConn ∧ (fr.marked m).path = fr.path ∧
      frameEpoch (fr.marked m) = frameEpoch fr ∧ (fr.marked m).hopLimit = fr.hopLimit ∧ (fr.marked m).ipLen = fr.ipLen := by
  cases m <;> exact ⟨rfl, rfl, rfl, rfl, rfl, rfl⟩

/-- A good frame with a hop left goes on by the port its flow has, where that takes it, one hop fewer (R28, R364 to R367). -/
theorem State.relayOn_forwards (hports : bit s.relay.ports.toNat p.val = true) (hhops : fr.hopLimit ≠ 0)
    (hroute : s.routeFlow (dieOfPort p) fr.node (fr.dstConn.toNat % 2 ^ 24) fr.path (frameEpoch fr) fr.ip.dscp.toNat = (s3, some q))
    (hfits : max 64 fr.ipLen ≤ (s3.port q).maxFrame) (hqueue : s3.canEnqueue q ((s3.port q).classOf fr.ip.dscp.toNat) = true)
    (hroom : s3.rawRoom (dieOfPort p) (min fr.l2.length (s3.port p).maxFrame) = true) :
    s.relayOn p fr true =
      let len := min fr.l2.length (s3.port p).maxFrame
      let fr1 : NFrame := { fr with
        hopLimit := fr.hopLimit - 1, l2 := { fr.l2 with da := Config.nextMac q.val fr.ip.dst, sa := (s3.port q).mac, length := len } }
      ((s3.enqueueFrom (.portMac (physOf p)) q ((s3.port q).classOf fr.ip.dscp.toNat) ⟨.native fr1, len, none, none, false, false⟩).modRelay
        (fun r => { r with relayed := satAdd max64 r.relayed 1 })).countGlobal 4 (4 * (dieOfPort p).val + 3) 1 := by
  simp only [State.relayOn, hports, hhops, hroute, gt_iff_lt, Nat.not_lt.mpr hfits, hqueue, hroom, Bool.not_true, Bool.and_false,
    Bool.false_and, Bool.or_self, Bool.false_eq_true, if_false]

/-- A whole, good frame for another node goes to the relay as the policers leave it (R218, R235, R238). -/
theorem State.relayArrive_relays (hup : s.portUp p = true) (htags : (s.port p).knowsTags fr.l2 = true)
    (haddressed : s.addressed p fr.l2.da = true) (hother : s.forMe fr = false) (htype : fr.type ≠ 0x22) (hudp : fr.udpDst = s.nativePort)
    (hlink : s.rxLink p fr.l2 (s.ipClass p fr.ip) = (s1, some true)) (hversion : fr.version = 1) (hlong : 78 ≤ fr.l2.length)
    (hwire : fr.l2.length = fr.wireLen) (hpolice : s1.police p fr.l2 fr.ip fr.ipLen none = (s2, true, m)) :
    s.relayArrive p fr = s2.relayOn p (fr.marked m) true := by
  have hwhole : (fr.version != 1 || decide (fr.l2.length < 78)) = false := by simp [hversion, hlong]
  have hequal : (fr.l2.length == fr.wireLen) = true := beq_iff_eq.mpr hwire
  simp only [State.ipClass] at hlink
  simp only [State.relayArrive, hup, htags, haddressed, hother, beq_eq_false_iff_ne.mpr htype, hudp, hlink, hwhole, hpolice, hequal,
    bne_self_eq_false, Bool.not_true, Bool.and_self, Bool.or_self, Bool.false_eq_true, if_false, NFrame.marked]

/-- A whole, good UNREACH holds its port out of the entry it names (R368). -/
theorem State.unreachArrive_holds {e : Nat × RelayEntry} (hup : s.portUp p = true) (htags : (s.port p).knowsTags fr.l2 = true)
    (haddressed : s.addressed p fr.l2.da = true) (htype : fr.type = 0x22) (hudp : fr.udpDst = s.nativePort)
    (hlink : s.rxLink p fr.l2 (s.ipClass p fr.ip) = (s1, some true)) (hversion : fr.version = 1) (hlong : 78 ≤ fr.l2.length)
    (hwire : fr.l2.length = fr.wireLen) (hpolice : s1.police p fr.l2 fr.ip fr.ipLen none = (s2, true, m))
    (hentry : s2.relay.lookup (frameEpoch fr) fr.node = some e) (hnew : s2.relay.heldOut.contains (frameEpoch fr, e.1, p.val) = false) :
    s.unreachArrive p fr =
      (s2.modRelay (fun r => { r with heldOut := r.heldOut ++ [(frameEpoch fr, e.1, p.val)] })).failUnroutableAll := by
  have hwhole : (fr.version != 1 || decide (fr.l2.length < 78)) = false := by simp [hversion, hlong]
  have hequal : (fr.l2.length != fr.wireLen) = false := by simp [hwire]
  simp only [State.ipClass] at hlink
  simp only [State.unreachArrive, hup, htags, haddressed, htype, hudp, hlink, hwhole, hpolice, hequal, hentry, hnew, bne_self_eq_false,
    Bool.not_true, Bool.or_self, Bool.false_eq_true, if_false]

end

/-- Settles O45: the frame's rows by what the port, the policers and the relay tables say of it, the timers by what they end. -/
theorem relayEventsAct : Obligations.RelayEventsAct := by
  unfold Obligations.RelayEventsAct
  refine fun s s1 s2 p fr hruns hup htags =>
    ⟨fun m s3 q haddressed hother htype hudp hlink hversion hlong hwire hpolice hports hhops hroute hfits hqueue hroom => ?_,
      fun m q haddressed htype hudp hlong hlink hversion hpolice hwire hentry hnew => ?_, fun epoch index => ?_,
      fun die node conn path hidle => ?_⟩
  · obtain ⟨hnode, hconn, hpath, hepoch, hlimit, hip⟩ := marked_relayed fr m
    obtain ⟨hl2, -⟩ := marked_fields fr m
    have hforwards := State.relayOn_forwards (fr := fr.marked m) hports (hlimit ▸ hhops) (by rw [hnode, hconn, hpath, hepoch]; exact hroute)
      (hip ▸ hfits) hqueue (hl2 ▸ hroom)
    simp only [exec, execRelayFrame, frameArrival_runs hruns,
      State.relayArrive_relays hup htags haddressed hother htype hudp hlink hversion hlong hwire hpolice, hforwards, hl2]
  · simp only [exec, execRxUnreach, frameArrival_runs hruns,
      State.unreachArrive_holds hup htags haddressed htype hudp hlink hversion hlong hwire hpolice hentry hnew]
  · simp only [exec, execUnreachHoldExpiry, engine_runs hruns]
  · simp only [exec, execFlowIdleExpiry, engine_runs hruns, hidle, Bool.false_eq_true, if_false]

/-! ### Pauses, priority flow control and preemption (R239, R242, R243, R445) -/

/-- An event of a port that is up takes effect, stopped or not (R445). -/
theorem portEvent_up {s : State} {p : LPort} {g : State → State} (hon : s.power.on = true) (hup : s.portUp p = true) :
    s.portEvent p g = .next (g s) := by
  simp only [State.portEvent, next, hon, hup, Bool.not_true, Bool.or_self, Bool.false_eq_true, if_false]

/-- Settles O46: each row by the port's flow control, its classes and the verify frames it has sent. -/
theorem portControlActs : Obligations.PortControlActs := by
  unfold Obligations.PortControlActs
  refine fun s p hon hup => ⟨fun q hflow => ?_, fun en qs hflow => ?_, ?_, fun k => ?_, fun k hgo hclass hsent hfull => ?_,
    fun k hstopped hflow => ?_, ?_, fun hpreempt hsent hfew => ?_, fun hpreempt hinactive hsent hfew => ?_,
    fun hpreempt hinactive hlast => ?_⟩
  · simp only [exec, execRxPause, portEvent_up hon hup, hflow, if_true]
  · simp only [exec, execRxPfc, portEvent_up hon hup, hflow, if_true]
  · simp only [exec, execPauseQuantaExpiry, portEvent_up hon hup]
  · simp only [exec, execPauseQuantaExpiry, portEvent_up hon hup]
  · simp only [exec, execPfcXoffRefresh, portEvent_up hon hup, hgo, hclass, hsent, hfull, decide_true, Bool.false_and, Bool.and_self,
      Bool.or_true, Bool.false_eq_true, if_false, if_true]
  · simp only [exec, execPfcXoffRefresh, portEvent_up hon hup, hstopped, hflow, beq_self_eq_true, Bool.and_self, if_true]
  · simp only [exec, execRxPreemptVerify, portEvent_up hon hup, Bool.not_false, if_true]
  · have hsome : decide ((s.port p).verifySent > 0) = true := decide_eq_true hsent
    simp only [exec, execRxPreemptVerify, portEvent_up hon hup, hpreempt, hsome, decide_eq_true hfew, Bool.not_true, Bool.and_self,
      Bool.false_eq_true, if_false, if_true]
  · have hnot : (!(s.port p).preempt || (s.port p).preemptActive || decide ((s.port p).verifySent = 0) || decide ((s.port p).verifySent > 3)) = false := by
      simp [hpreempt, hinactive]
      omega
    have hmore : (s.port p).verifySent < 3 := by omega
    simp only [exec, execPreemptVerifyTimeout, portEvent_up hon hup, hnot, hmore, Bool.false_eq_true, if_false, if_true]
  · simp [exec, execPreemptVerifyTimeout, portEvent_up hon hup, hpreempt, hinactive, hlast]

end Sys2Proof.Machine

/-! PROOFS. What a step is, and what the module holds at reset. -/

namespace Sys2Proof.Machine

/-- A step on a queue that is not empty is its front command's meaning on the rest. -/
theorem step_of_pending {c : Instr} {rest : List Instr} {s : State} (h : s.pending = c :: rest) : step s = exec c { s with pending := rest } := by
  simp only [step, h]

/-- Settles O47: by the queue, empty or not; that time passes on an empty one is the model's choice (log entry 1). -/
theorem stepTakesTheFrontCommand : Obligations.StepTakesTheFrontCommand := by
  unfold Obligations.StepTakesTheFrontCommand
  refine ⟨fun c s => step_of_pending (s := { s with pending := c :: s.pending }) rfl, fun c rest s => step_of_pending, fun s h => ?_⟩
  simp only [step, h]

/-- Every function of the reset state is a fresh one. -/
theorem reset_func (f : FuncId) : State.reset.func f = Func.reset f := rfl

/-- Settles O48: the reset state lists no function, so each is fresh, and its fields are those of its definition. That memory reads zero
is the model's choice (log entry 42). -/
theorem resetHoldsTheManualsValues : Obligations.ResetHoldsTheManualsValues := by
  unfold Obligations.ResetHoldsTheManualsValues
  refine ⟨rfl, rfl, fun a => rfl, rfl, rfl, rfl, rfl, rfl, rfl, rfl, fun f => ?_⟩
  dsimp only
  rw [reset_func]
  have hcounters : ∀ c ∈ (Func.reset f).cnt.live, c = 0 := fun c hc => List.eq_of_mem_replicate hc
  exact ⟨rfl, rfl, rfl, rfl, rfl, rfl, rfl, rfl, rfl, rfl, rfl, rfl, rfl, rfl, rfl, rfl, fun src => rfl, rfl, rfl, rfl, fun n => rfl,
    hcounters, rfl⟩

end Sys2Proof.Machine
